-- ==== Sys2Proof/Word.lean ====
section
/-! DEFINITION. The word types of the machine: bytes, register words and data words. -/

namespace Sys2Proof

/-- One byte of memory or of a frame. -/
abbrev Byte := BitVec 8

/-- What one register write carries (R3: every register is 32 bits wide). -/
abbrev Word := BitVec 32

end Sys2Proof
end

