-- ==== Sys2Proof/Syntax.lean ====
section
/-! DEFINITION. The commands of the module: one constructor of `Instr` for each row of spec/opcode_table.json, with the operands
the row's rule gives it, and the types of those operands. A command that is a register write names its initiator; a command
that is an event of the outside world (a supply voltage, a frame, a current, a verdict of a check whose algorithm another
standard defines) carries what that event brings. Indices are `Fin`, so a command cannot name a die, channel or port the module
does not have. -/

namespace Sys2Proof

/-- The two worlds of a fabric transaction (R486). -/
inductive World where
  | normal | secure
deriving DecidableEq, Repr

/-- Who issues a fabric transaction (Tables 1.5 and 16.1). A VOTED lane group issues as its lane 0 (R88). -/
inductive Agent where
  | lane (g : Fin 2) (n : Fin 3)
  | core (n : Fin 4)
  | dma (m : Fin 2)
  | ethPf | ethSec | ethVf
  | cgwPf | cgwSec | cgwVf
  | fifo (n : Fin 16)
  | snsBuf | mdBuf
  | lcc | recorder | brg
  | keyMgr | crySec | cryPf | cryVf
  | vfm
  | dbg (w : World)
deriving DecidableEq, Repr

/-- A bit that flipped in a codeword: the number of the codeword and the bit, 0 to 143 (R20). -/
abbrev Flip := Nat × Nat

/-- One fabric transfer of at most four codeword beats (R32). `data` is what a write carries, byte by byte from `addr`; `len`
is the length in bytes. `flips` are the bits the codewords lost on their way (codeword 0 is the first one touched).
`waiting` are the other initiator ports that ask for the same target port at that moment. -/
structure Transfer where
  agent : Agent
  write : Bool
  addr : Nat
  len : Nat
  data : List Byte
  prefetch : Bool
  parityOk : Bool
  flips : List Flip
  waiting : List Nat
deriving DecidableEq, Repr

/-- The memories a controller scrubs (R29). -/
inductive Store where
  | mram | tcm0 | tcm1 | sram | dram
deriving DecidableEq, Repr

/-- One instruction of hart `h` in a single step of the Debug Module, with the registers it writes, by their Debug Module number. -/
structure HartStep where
  h : Fin 12
  wr : List (Nat × Nat)
deriving DecidableEq, Repr

/-- What a lane does in one lane cycle: the fabric request that it makes (R89, R92), with its 32-bit lane address, codeword (16 data
bytes as a number, and the 16 check bits), attributes and byte strobes, and whether it fetches; its TCM write port; and the
offset it reads in its own TCM array (R97). Strobe bit b lets byte b be written. -/
structure LaneOut where
  valid : Bool
  addr : Nat
  data : Nat
  check : Nat
  write : Bool
  fetch : Bool
  beats : Nat
  secure : Bool
  prefetch : Bool
  strobes : Nat
  tcmValid : Bool
  tcmAddr : Nat
  tcmData : Nat
  tcmCheck : Nat
  tcmStrobes : Nat
  own : Option Nat
deriving DecidableEq, Repr

/-- What arrives at the agreement port of a lane group (Table 3.3): the level of the interrupt line or of the debug halt request,
with the lanes that capture it before its change (bit n for lane n), or the response to the group's fabric read, with the lanes
whose capture of it fails. -/
inductive Arrival where
  | line (late : Fin 8)
  | halt (late : Fin 8)
  | read (bad : Fin 8)
deriving DecidableEq, Repr

/-- The ring pairs of the module (R190): of the DMA channels, the LCC, the Ethernet engine, the gateway, the crypto engine, and of
the virtual functions (Table 5.1). -/
inductive Ring where
  | dma (m : Fin 2) (n : Fin 8)
  | lcc
  | eth (r : Fin 12)
  | cgw (r : Fin 8)
  | cry (r : Fin 6)
  | ethVf (v : Fin 16) (r : Fin 4)
  | canVf (v : Fin 8) (r : Fin 2)
  | cryVf (v : Fin 8)
deriving DecidableEq, Repr

/-- What a stage die finds at one channel in one sample (R302): the current in mA that the load would draw if nothing limited it,
positive out of the output (at side A of a motor bridge the motor's, in FWD and REV its size, in BRAKE what circulates, positive
from A to B; at side B nothing), and the junction in °C plus 50. -/
structure ChanSample where
  load : Int
  tj : Nat
deriving DecidableEq, Repr

/-- What the metering die measures over one interval: its length in ns on the die's oscillator, the mean shunt voltages of I0 and
I1 in nV and the mean pack voltage in µV, each after the trims of the die's OTP (R414, R415, R418). -/
structure MdSample where
  ns : Nat
  s0 : Int
  s1 : Int
  uv : Nat
deriving DecidableEq, Repr

/-- The load of channel `k` of a stage die (of a bridge: of its side A), and the current in mA that it would now draw (R261). -/
structure ChanLoad where
  k : Fin 12
  load : Nat
deriving DecidableEq, Repr

/-- The arrival of a frame of a stage link: its time in µs (R229), and whether the part that it carries meets an uncorrectable
codeword inside the far die (Table 7.3). -/
structure FrameCome where
  time : Nat
  farUe : Bool
deriving DecidableEq, Repr


/-- The MACsec protection a received frame carries (R334): its SCI, association number and packet number (in full for an XPN
suite), and whether its ICV is right under the key of that association. -/
structure SecTag where
  sci : Nat
  an : Nat
  pn : Nat
  icvOk : Bool
deriving DecidableEq, Repr


/-- A CAN frame (R356). -/
structure CanFrame where
  id : Nat
  ide : Bool
  fdf : Bool
  brs : Bool
  esi : Bool
  rtr : Bool
  data : List Byte
deriving DecidableEq, Repr

/-- The commands, in the order of spec/opcode_table.json. -/
inductive Instr where
  /-- REG_WRITE (R5): initiator `a` writes `v` to the register at `addr`, which takes effect field by field according to the access types. -/
  | regWrite (a : Agent) (addr : Nat) (v : Word)
  /-- COUNTER_LO_READ (R11): initiator `a` reads the LO register at `addr`, in 32 bits or (`wide`) in 64 bits, and its latch for the upper half is loaded. -/
  | counterLoRead (a : Agent) (addr : Nat) (wide : Bool)
  /-- FABRIC_TRANSFER (R32): a fabric transfer of one to four beats is granted at its target port and served. -/
  | fabricTransfer (t : Transfer)
  /-- TARGET_TIMEOUT (R34): the target at `addr` gave no response within 50 µs and the crossbar answers with an error response. -/
  | targetTimeout (a : Agent) (addr : Nat) (write : Bool)
  /-- SCRUB_PASS (R29): the scrub period of a memory comes round; `flips` are the bits its codewords (numbered by address / 16) lost since the last pass. -/
  | scrubPass (st : Store) (flips : List Flip)
  /-- EVC_SET_WRITE (R44): a write of `v` to EVC_SETk sets pending bits for test. -/
  | evcSetWrite (a : Agent) (k : Fin 8) (v : Word)
  /-- EVC_ACK (R43): a write of `v` to EVC_PENDk acknowledges the events whose bits are 1. -/
  | evcAck (a : Agent) (k : Fin 8) (v : Word)
  /-- WCE_REARM (R46): WCE_CTL.REARM clears the word-code capture VALID. -/
  | wceRearm (a : Agent)
  /-- WCE_CLR_CNT (R46): WCE_CTL.CLR_CNT clears both word-code counters. -/
  | wceClrCnt (a : Agent)
  /-- FAB_REARM (R46): FAB_CTL.REARM clears the fabric capture VALID. -/
  | fabRearm (a : Agent)
  /-- MIRROR_WRITE_LAND (R19): the oldest write to an ISL_AON mirror register still on its way lands in ISL_AON. -/
  | mirrorWriteLand
  /-- VBAT_SAMPLE (R48): the module measures VBAT, `v` units of 10 mV, and updates the supply events. -/
  | vbatSample (v : Nat)
  /-- POWER_ON_RELEASE (R48): VBAT rises above 7.0 V, power-on reset ends and start-up begins. -/
  | powerOnRelease
  /-- POWER_ON_RESET (R73): VBAT has stayed below 6.0 V for longer than 20 µs and the whole module is reset. -/
  | powerOnReset
  /-- ETH_PHY_HOLD (R48): VBAT falls below 8.0 V and all Ethernet PHYs are held in reset. -/
  | ethPhyHold
  /-- ETH_PHY_RELEASE (R48): VBAT rises above 8.5 V and the Ethernet PHYs retrain. -/
  | ethPhyRelease
  /-- PWR_REQ_OPEN (R79): a write of PWR_REQ TARGET 0x1 requests OPEN. -/
  | pwrReqOpen (a : Agent)
  /-- SHADE_EXIT_COMPLETE (R69): ISL_APP is powered again after a SHADE-to-OPEN request, and the cores are held in reset. -/
  | shadeExitComplete
  /-- PWR_REQ_SHADE (R59): a write of PWR_REQ TARGET 0x2 has the application cores park. -/
  | pwrReqShade (a : Agent)
  /-- PWR_REQ_DUSK (R58): a write of PWR_REQ TARGET 0x3 is checked and, if accepted, starts the power-down sequence. -/
  | pwrReqDusk (a : Agent)
  /-- PWR_REQ_CLOSED (R58): a write of PWR_REQ TARGET 0x4 is checked and, if accepted, starts the power-down sequence. -/
  | pwrReqClosed (a : Agent)
  /-- PWR_REQ_INVALID (R79): a write of a PWR_REQ TARGET outside 0x1 to 0x4. -/
  | pwrReqInvalid (a : Agent) (t : Fin 16)
  /-- APP_PARK (R59): an application core writes its bit in PWR_APP_PARK. -/
  | appPark (a : Agent) (v : Word)
  /-- PARK_TIMEOUT (R59): PARK_TO expires before all four cores have parked. -/
  | parkTimeout
  /-- POWERDOWN_CONTINUE (R60): the power-down goes on: from step 1 to step 2, and from step 2 through steps 3 to 5, where the ISL_AON clock is measured at `cal` Hz. -/
  | powerdownContinue (cal : Nat)
  /-- AON_WAKE_SOURCE (R61): wake source `src` (R78) becomes active after `ticks` further ISL_AON ticks. -/
  | aonWakeSource (src : Fin 23) (ticks : Nat)
  /-- DWELL_EXPIRY (R62): the time in DUSK reaches DWELL hours, after `ticks` further ISL_AON ticks. -/
  | dwellExpiry (ticks : Nat)
  /-- CONVERTERS_IN_REGULATION (R73): the converters regulate; control die and stage dies are powered. -/
  | convertersInRegulation
  /-- OTP_LOAD (R72): the PLLs lock, OTP and strap row are loaded and checked, and the zone-code inputs, reading `zone`, are sampled. -/
  | otpLoad (zone : Fin 8)
  /-- ZERO_FILL_COMPLETE (R73): the TCM and SRAM zero-fill is complete, the tamper monitors are checked and SG0 leaves reset. -/
  | zeroFillComplete
  /-- BOOT_ROM_START (R67): SG0 runs the boot ROM sequence that loads and verifies the SG0 image; `sigA` and `sigB` say whether both signatures of the image in bank A and in bank B verify. -/
  | bootRomStart (sigA sigB : Bool)
  /-- DRAM_READY (R66): the DRAM is trained and its zero-fill completes. -/
  | dramReady
  /-- PLL_UNLOCK (R76): the PLL of island `i` (CLK_STAT bit 1 + i) loses lock. -/
  | pllUnlock (i : Fin 7)
  /-- PLL_RELOCK (R76): the PLL of island `i` locks again. -/
  | pllRelock (i : Fin 7)
  /-- CONTROL_DIE_TEMP_CHANGE (R77): the control-die temperature is measured at `t` units of 0.25 °C. -/
  | controlDieTempChange (t : Int)
  /-- WDT_KICK (R75): a write of `v` to RST_WDT_KICK. -/
  | wdtKick (a : Agent) (v : Word)
  /-- WDT_WARN (R75): half the watchdog period has elapsed without a kick. -/
  | wdtWarn
  /-- WATCHDOG_RESET (R73): the watchdog period expires and the control die is reset. -/
  | watchdogReset
  /-- SYSTEM_SW_RESET (R73): a write of `v` to RST_SYS. -/
  | systemSwReset (a : Agent) (v : Word)
  /-- BLOCK_RESET (R74): a write of `v` to RST_BLK0 resets each selected block that the writer's world owns. -/
  | blockReset (a : Agent) (v : Word)
  /-- APP_CORE_RESET (R69): a write of `v` to RST_APP holds or releases application cores. -/
  | appCoreReset (a : Agent) (v : Word)
  /-- STAGE_DIE_RESET (R73): a write of `v` to RST_STAGE resets selected power-stage dies or the metering die. -/
  | stageDieReset (a : Agent) (v : Word)
  /-- CLOCK_GATE (R81): a write of `v` to CLK_ISL_GATE (`islands`) or CLK_BLK_GATE. -/
  | clockGate (a : Agent) (islands : Bool) (v : Word)
  /-- LANE_GROUP_STEP (R92): lane group `g` executes `cycles` lane cycles, in the last of which an instruction retires, with the registers it writes (by their Debug Module number, the pc as dpc), or none does, and the voter compares the outputs `a`, `b`, `c` of lanes 0, 1, 2. -/
  | laneGroupStep (g : Fin 2) (a b c : LaneOut) (retired : Option (List (Nat × Nat))) (cycles : Nat)
  /-- AGREEMENT_ARRIVAL (R98): a value arrives at the agreement port of group `g`, is captured by each lane and the agreed value is delivered. -/
  | agreementArrival (g : Fin 2) (x : Arrival)
  /-- LANE_TIME_READ (R103): lane `n` of group `g` (a VOTED group as one) reads CSR time; `bad` are the lanes whose capture of the sample fails. -/
  | laneTimeRead (g : Fin 2) (n : Fin 3) (bad : Fin 8)
  /-- VOTE_FAIL (R109): VOTE_CTL.FAIL of group `g` with the lane bits `m`. -/
  | voteFail (a : Agent) (g : Fin 2) (m : Fin 8)
  /-- VOTE_RELEASE (R107): VOTE_CTL.RELEASE of group `g` with the lane bits `m`. -/
  | voteRelease (a : Agent) (g : Fin 2) (m : Fin 8)
  /-- VOTE_REJOIN_NOW (R112): VOTE_CTL.REJOIN_NOW of group `g`. -/
  | voteRejoinNow (a : Agent) (g : Fin 2)
  /-- VOTE_REARM (R125): VOTE_CTL.REARM of group `g`. -/
  | voteRearm (a : Agent) (g : Fin 2)
  /-- VOTE_AGREE_REARM (R125): VOTE_CTL.AGREE_REARM of group `g`. -/
  | voteAgreeRearm (a : Agent) (g : Fin 2)
  /-- VOTE_CLR_CNT (R125): VOTE_CTL.CLR_CNT of group `g`. -/
  | voteClrCnt (a : Agent) (g : Fin 2)
  /-- REJOIN_MAXWAIT_EXPIRY (R112): REJOIN_MAXWAIT × 10 ms have passed since lane `n` of group `g` was masked, without an idle window. -/
  | rejoinMaxwaitExpiry (g : Fin 2) (n : Fin 3)
  /-- REJOIN_COMPLETE (R117): the rejoin pause of group `g` ends after `pause` units of 10 ns; `flips` are the bits that the codewords of its undo log and checkpoint buffer have lost. -/
  | rejoinComplete (g : Fin 2) (pause : Nat) (flips : List Flip)
  /-- SPLIT_RUN (R121): a write of `v` to SPLIT_RUN of group `g`. -/
  | splitRun (a : Agent) (g : Fin 2) (v : Word)
  /-- SPLIT_IPI_SET (R120): a write of `v` to SPLIT_IPI_SET of group `g`. -/
  | splitIpiSet (a : Agent) (g : Fin 2) (v : Word)
  /-- CHECKPOINT_COMMIT (R128): the checkpoint interval of group `g` ends, or its undo log or release queue has reached its threshold, and it commits a checkpoint. -/
  | checkpointCommit (g : Fin 2)
  /-- QCKPT_REQ (R133): a lane of group `g` writes QCKPT.REQ. -/
  | qckptReq (g : Fin 2)
  /-- RELEASED_WRITE_ERROR (R143): a released once-write of group `g` to `addr` receives an error response. -/
  | releasedWriteError (g : Fin 2) (addr : Nat)
  /-- RESTART_RESET_DONE (R144): the lanes of group `g` that take part in a restart have been reset. -/
  | restartResetDone (g : Fin 2)
  /-- RESTART_RESTORE_COMPLETE (R144): the restore of group `g` ends; `flips` are the bits that the codewords of its undo log (0 to 2047) and checkpoint buffer (half 0 from 2048, half 1 from 2112) have lost. -/
  | restartRestoreComplete (g : Fin 2) (flips : List Flip)
  /-- REPLAY_COMPLETE (R144): group `g` has consumed its last input entry and runs live, `time` units of 10 ns after the mismatch. -/
  | replayComplete (g : Fin 2) (time : Nat)
  /-- IDLE_WINDOW_BEGIN (R148): all ACTIVE lanes of group `g` have been in WFI for IDLE_MIN. -/
  | idleWindowBegin (g : Fin 2)
  /-- LANE_TEST_DUE (R149): the lane-test period of group `g` has passed. -/
  | laneTestDue (g : Fin 2)
  /-- LOGIC_BIST_COMPLETE (R149): 2.5 ms of logic BIST of the lane under test have passed. -/
  | logicBistComplete
  /-- LANE_TEST_COMPLETE (R149): memory BIST of the lane under test ends; `sig` is the failing signature. -/
  | laneTestComplete (pass : Bool) (sig : Fin 65536)
  /-- IDLE_RESOURCE_TEST_START (R152): AUX seconds have passed since the last test of Table 4.7. -/
  | idleResourceTestStart
  /-- IDLE_RESOURCE_TEST_COMPLETE (R153): the resource test in progress ends; `sig` is the failing signature. -/
  | idleResourceTestComplete (pass : Bool) (sig : Fin 65536)
  /-- IST_OVERDUE (R151): the last lane test of group `g` started more than 2 × PERIOD ago. -/
  | istOverdue (g : Fin 2)
  /-- IST_TEST_NOW (R159): IST_CTL.TEST_NOW. -/
  | istTestNow (a : Agent)
  /-- IST_RELQ_REARM (R158): IST_CMD.REARM with the group bits `m`. -/
  | istRelqRearm (a : Agent) (m : Fin 4)
  /-- IST_CLR_CNT (R158): IST_CMD.CLR_CNT. -/
  | istClrCnt (a : Agent)
  /-- APP_TIME_READ (R163): application core `n` reads CSR time. -/
  | appTimeRead (n : Fin 4)
  /-- STIMECMP_FIRE (R163): zone time reaches stimecmp, or (`vs`) vstimecmp, of application core `n`. -/
  | stimecmpFire (n : Fin 4) (vs : Bool)
  /-- SQ_DOORBELL (R198): a write of `v` to the submission doorbell of ring pair `r`. -/
  | sqDoorbell (a : Agent) (r : Ring) (v : Word)
  /-- CQ_DOORBELL (R198): a write of `v` to the completion doorbell of ring pair `r`. -/
  | cqDoorbell (a : Agent) (r : Ring) (v : Word)
  /-- RING_ENABLE (R191): a write of `v` to RING_CFG of ring pair `r` that sets EN. -/
  | ringEnable (a : Agent) (r : Ring) (v : Word)
  /-- RING_DISABLE (R200): a write of `v` to RING_CFG of ring pair `r` with EN 0. -/
  | ringDisable (a : Agent) (r : Ring) (v : Word)
  /-- DESCRIPTOR_FETCHED (R193): the engine of ring pair `r` fetches its next descriptor. -/
  | descriptorFetched (r : Ring)
  /-- DESCRIPTOR_COMPLETE (R196): a descriptor of ring pair `r` that has been executed completes. -/
  | descriptorComplete (r : Ring)
  /-- DMA_NOP (R202): channel `n` of DMA engine `m` executes a NOP descriptor. -/
  | dmaNop (m : Fin 2) (n : Fin 8)
  /-- DMA_COPY (R203): channel `n` of DMA engine `m` moves the data of a COPY descriptor. -/
  | dmaCopy (m : Fin 2) (n : Fin 8)
  /-- DMA_READBACK (R207): channel `n` of DMA engine `m` reads back the last word it wrote. -/
  | dmaReadback (m : Fin 2) (n : Fin 8)
  /-- DMA_ACCESS_TIMEOUT (R209): an access of channel `n` of DMA engine `m` to `addr` gets no response for 10 µs; `late` for a completion write or write-back; `landed` where an abandoned write takes effect all the same. -/
  | dmaAccessTimeout (m : Fin 2) (n : Fin 8) (addr : Nat) (late : Bool) (landed : Bool)
  /-- DMA_ABORT_COMPLETE (R210): a disabled channel reaches its next transfer boundary. -/
  | dmaAbortComplete (m : Fin 2) (n : Fin 8)
  /-- DMA_REARM (R212): DMA_ERR_CTL.REARM clears the DMA capture. -/
  | dmaRearm (a : Agent) (m : Fin 2)
  /-- DMA_CLR_CNT (R212): DMA_ERR_CTL.CLR_CNT clears DMA_DB_IGN and DMA_BYTES. -/
  | dmaClrCnt (a : Agent) (m : Fin 2)
  /-- FIFO_ENABLE (R213): a write of `v` to FIFO_CFG of FIFO `n` that sets EN. -/
  | fifoEnable (a : Agent) (n : Fin 16) (v : Word)
  /-- FIFO_DISABLE (R219): a write of `v` to FIFO_CFG of FIFO `n` with EN 0. -/
  | fifoDisable (a : Agent) (n : Fin 16) (v : Word)
  /-- FIFO_PUSH (R215): a write of `v` to FIFO_PUSH_HI of FIFO `n`. -/
  | fifoPush (a : Agent) (n : Fin 16) (v : Word)
  /-- FIFO_PUSH_COMPLETE (R217): the FIFO engine copies the oldest queued push of FIFO `n` and commits or rewinds. -/
  | fifoPushComplete (n : Fin 16)
  /-- FIFO_POP (R218): a write of `v` to FIFO_POP of FIFO `n`. -/
  | fifoPop (a : Agent) (n : Fin 16) (v : Word)
  /-- FIFO_REARM (R223): FIFO_ERR_CTL.REARM clears the FIFO capture. -/
  | fifoRearm (a : Agent)
  /-- FIFO_CLR_CNT (R223): FIFO_ERR_CTL.CLR_CNT clears FIFO_ERR_CNT. -/
  | fifoClrCnt (a : Agent)
  /-- BRG_LINK_EN_WRITE (R226): a write of `v` to BRG_CTL, its field LINK_EN. -/
  | brgLinkEnWrite (a : Agent) (v : Word)
  /-- BRG_HB_EN_WRITE (R245): a write of `v` to BRG_CTL, its field HB_EN. -/
  | brgHbEnWrite (a : Agent) (v : Word)
  /-- BRG_RETRAIN_WRITE (R228): a write of `v` to BRG_CFG, its field RETRAIN. -/
  | brgRetrainWrite (a : Agent) (v : Word)
  /-- LINK_TRAINING_COMPLETE (R226): stage link `d` (4 is the metering die) completes training. -/
  | linkTrainingComplete (d : Fin 5)
  /-- STAGE_FRAME_RECEIVE (R227): the next frame of stage link `d`, towards the bridge (`up`) or the die, arrives as `x` says, with codeword bits `flips` inverted. -/
  | stageFrameReceive (d : Fin 5) (up : Bool) (flips : List Nat) (x : FrameCome)
  /-- STAGE_RETRANSMIT_TIMEOUT (R227): no ACK has covered the oldest frame of one direction of stage link `d` within 5 µs. -/
  | stageRetransmitTimeout (d : Fin 5) (up : Bool)
  /-- WINDOW_READ (R233): initiator `a` reads `len` bytes at `addr` in the stage bridge window. -/
  | windowRead (a : Agent) (addr len : Nat)
  /-- WINDOW_NONPOSTED_WRITE (R234): initiator `a`, whose window writes are non-posted, writes `data` (`len` bytes) at `addr`. -/
  | windowNonpostedWrite (a : Agent) (addr len : Nat) (data : List Word)
  /-- WINDOW_POSTED_WRITE (R235): initiator `a`, whose window writes are posted, writes `data` (`len` bytes) at `addr`. -/
  | windowPostedWrite (a : Agent) (addr len : Nat) (data : List Word)
  /-- WINDOW_ACCESS_COMPLETE (R233): the oldest open access to die `d` has all its responses and completes. -/
  | windowAccessComplete (d : Fin 5)
  /-- POLL_SEND (R240): a poll period ends and the bridge polls each UP link. -/
  | pollSend
  /-- HEARTBEAT_SEND (R244): 50 µs have passed and the bridge sends a heartbeat to each die whose heartbeat runs. -/
  | heartbeatSend
  /-- BRG_PERR_POP (R243): BRG_PERR_CTL.POP removes the head entry of the posted-error log. -/
  | brgPerrPop (a : Agent)
  /-- BRG_CLR_CNT (R249): BRG_PERR_CTL.CLR_CNT clears LOST, BRG_NP_ERR and the link counters. -/
  | brgClrCnt (a : Agent)
  /-- SHADOW_WORD_WRITE (R238): far die `d` (4 is the metering die) takes a write of `v` to the shadow word at offset `off`. -/
  | shadowWordWrite (d : Fin 5) (off : Nat) (v : Word)
  /-- SHADOW_COMMIT (R239): far die `d` takes a write of `v` to the commit register at offset `off`. -/
  | shadowCommit (d : Fin 5) (off : Nat) (v : Word)
  /-- HEARTBEAT_RECEIVE (R244): stage die `d` receives a clean or corrected heartbeat frame with `count`. -/
  | heartbeatReceive (d : Fin 4) (count : Fin 65536)
  /-- SUPERVISION_HOLD_ENTER (R307): 150 µs have passed on stage die `d` without a valid heartbeat. -/
  | supervisionHoldEnter (d : Fin 4)
  /-- FALLBACK_APPLY (R308): HOLD_MS have elapsed on stage die `d` since the last valid heartbeat. -/
  | fallbackApply (d : Fin 4)
  /-- HOLD_MS_WRITE (R309): a write of `v` to PS_CFG of die `d`. -/
  | holdMsWrite (d : Fin 4) (v : Word)
  /-- CH_CMD_WRITE (R287): a write of `v` to CH_CMD of die `d`. -/
  | chCmdWrite (d : Fin 4) (v : Word)
  /-- CH_CLEAR_WRITE (R264): a write of `v` to CH_CLEAR of die `d`. -/
  | chClearWrite (d : Fin 4) (v : Word)
  /-- BR_CMD_WRITE (R299): a write of `v` to BR_CMD of die `d`. -/
  | brCmdWrite (d : Fin 4) (v : Word)
  /-- CH_LIM_WRITE (R299): a write of `v` to CH_LIM of die `d`. -/
  | chLimWrite (d : Fin 4) (v : Word)
  /-- INFO_CLR_CH (R305): a write of `v` to INFO_CLR of die `d`, its fields CH and CNT. -/
  | infoClrCh (d : Fin 4) (v : Word)
  /-- INFO_CLR_DIE (R298): a write of `v` to INFO_CLR of die `d`, its field DIE. -/
  | infoClrDie (d : Fin 4) (v : Word)
  /-- DIAG_LATCH_WRITE (R302): a write of `v` to DIAG_LATCH of die `d`. -/
  | diagLatchWrite (d : Fin 4) (v : Word)
  /-- CHANNEL_DIAG_SAMPLE (R302): die `d` samples its channels 0, 1, 2 … (`l`), its temperature (°C plus 50) and its supply (units of 0.25 V). -/
  | channelDiagSample (d : Fin 4) (l : List ChanSample) (tdie vstage : Nat)
  /-- CONTROL_LINE_CHANGE (R288): control line `line` (0 to 23 load timer, 24 to 31 direct control) takes a level. -/
  | controlLineChange (line : Fin 32) (high : Bool)
  /-- CURRENT_LIMIT_ENGAGE (R261): a load of die `d` would now draw another current. -/
  | currentLimitEngage (d : Fin 4) (x : ChanLoad)
  /-- LIMIT_TIME_TRIP (R261): limiting of channel `k` of die `d` in RUN has lasted 50 ms of conducting time. -/
  | limitTimeTrip (d : Fin 4) (k : Fin 12)
  /-- JUNCTION_TRIP (R262): the junction of channel `k` of die `d` reaches its trip level. -/
  | junctionTrip (d : Fin 4) (k : Fin 12)
  /-- CHANNEL_RETRY (R262): RETRY_OFF has elapsed on channel `k` of die `d` and its junction is below the re-arm level. -/
  | channelRetry (d : Fin 4) (k : Fin 12)
  /-- RETRY_COUNT_CLEAR (R263): channel `k` of die `d` has stayed in RUN for 1 s. -/
  | retryCountClear (d : Fin 4) (k : Fin 12)
  /-- INRUSH_WINDOW_END (R259): the inrush window of channel `k` of die `d` ends. -/
  | inrushWindowEnd (d : Fin 4) (k : Fin 12)
  /-- WIRE_MODEL_UPDATE (R265): a millisecond ends and die `d` updates the wire models of its channels. -/
  | wireModelUpdate (d : Fin 4)
  /-- UNDERVOLTAGE_TURN_OFF (R268): the supply of die `d` has stayed below the turn-off level for the filter time. -/
  | undervoltageTurnOff (d : Fin 4)
  /-- UV_RESTART_BEGIN (R269): the supply of die `d` has stayed above the restart level for the qualification time. -/
  | uvRestartBegin (d : Fin 4)
  /-- UV_RESTART_SLOT (R269): a 100 µs slot of the restart sequence of die `d` comes round. -/
  | uvRestartSlot (d : Fin 4)
  /-- DIE_DERATING_ENTER (R271): the temperature of die `d` rises above 150 °C. -/
  | dieDeratingEnter (d : Fin 4)
  /-- DIE_DERATING_EXIT (R272): the temperature of die `d` falls below 140 °C. -/
  | dieDeratingExit (d : Fin 4)
  /-- DEFERRED_TURN_ON_SLOT (R272): a 100 µs slot for deferred channels of die `d` comes round. -/
  | deferredTurnOnSlot (d : Fin 4)
  /-- DIE_OVERTEMP_SHUTDOWN (R273): the temperature of die `d` reaches 170 °C. -/
  | dieOvertempShutdown (d : Fin 4)
  /-- DIE_SENSOR_FAIL (R273): the temperature sensor of die `d` fails. -/
  | dieSensorFail (d : Fin 4)
  /-- CURRENT_SUM_UPDATE (R270): 125 µs have passed and die `d` sums its channel currents. -/
  | currentSumUpdate (d : Fin 4)
  /-- STAGE_SHED (R274): the summed current of die `d` has stayed above 200 A for 100 ms, or for 10 ms more. -/
  | stageShed (d : Fin 4)
  /-- OFF_STATE_PHASE_END (R278): a 10 ms off-state phase of channel `k` of die `d` ends with the output above the detection threshold or not. -/
  | offStatePhaseEnd (d : Fin 4) (k : Fin 12) (above : Bool)
  /-- BRIDGE_BRAKE_END (R282): the current of braking bridge pair `p` of die `d` is below 1 A, or 100 ms have passed. -/
  | bridgeBrakeEnd (d : Fin 4) (p : Fin 2)
  /-- LT_ENABLE (R294): a write of `v` to LT_CFG of output `n` that sets EN. -/
  | ltEnable (a : Agent) (n : Fin 24) (v : Word)
  /-- LT_DISABLE (R294): a write of `v` to LT_CFG of output `n` with EN 0. -/
  | ltDisable (a : Agent) (n : Fin 24) (v : Word)
  /-- LOAD_TIMER_WRAP (R294): the counter of load-timer output `n` reaches PERIOD. -/
  | loadTimerWrap (n : Fin 24)
  /-- LT_RUN_WRITE (R290): a write of `v` to LCC_CTL, its field LT_RUN. -/
  | ltRunWrite (a : Agent) (v : Word)
  /-- LCC_NOP (R298): the LCC executes the NOP descriptor at the head of its ring. -/
  | lccNop
  /-- LCC_REQ (R297): the LCC executes the REQ descriptor at the head of its ring. -/
  | lccReq
  /-- LCC_BRIDGE (R299): the LCC executes the BRIDGE descriptor at the head of its ring. -/
  | lccBridge
  /-- LCC_CLEAR (R298): the LCC executes the CLEAR descriptor at the head of its ring. -/
  | lccClear
  /-- LCC_LIMIT (R299): the LCC executes the LIMIT descriptor at the head of its ring. -/
  | lccLimit
  /-- LCC_DIAG (R304): the LCC executes the DIAG descriptor at the head of its ring. -/
  | lccDiag
  /-- LCC_CLRINFO (R298): the LCC executes the CLRINFO descriptor at the head of its ring. -/
  | lccClrinfo
  /-- LCC_DESCRIPTOR_COMPLETE (R300): the die accesses of the LCC descriptor have ended. -/
  | lccDescriptorComplete
  /-- LCC_SNAPSHOT_TRIGGER (R303): PER × 125 µs have passed since the last snapshot trigger. -/
  | lccSnapshotTrigger
  /-- LCC_SNAPSHOT_COMPLETE (R304): the die reads of the snapshot in progress have ended and its record is written. -/
  | lccSnapshotComplete
  /-- LCC_LOAD_SUM (R306): 1 ms has passed since the LCC last summed the die currents. -/
  | lccLoadSum
  /-- LCC_REARM (R314): a write of `v` to LCC_ERR_CTL. -/
  | lccRearm (a : Agent) (v : Word)
  /-- ETH_FRAME_RECEIVE (R318): the frame `data` (without FCS, and unprotected where it carried `sec`) arrives at port `p`. -/
  | ethFrameReceive (p : Fin 8) (data : List Byte) (fcsOk : Bool) (sec : Option SecTag)
  /-- ETH_FRAME_TRANSMIT (R330): egress port `p` serves its queues and starts the frame that its gates let go first. -/
  | ethFrameTransmit (p : Fin 8)
  /-- ETH_FRAME_SENT (R326): the frame that `p` sends for a descriptor with TSREQ or ONESTEP has left the port. -/
  | ethFrameSent (p : Fin 8)
  /-- ETH_SEND (R324): the engine executes the SEND descriptor that is next on ring pair `r`. -/
  | ethSend (r : Ring)
  /-- ETH_RECV (R325): a frame that waits for ring pair `r` is written to the buffer of its next RECV descriptor. -/
  | ethRecv (r : Ring)
  /-- FDB_AGE_OUT (R318): the learned FDB entry at index `i` has had no traffic for AGE × 10 s. -/
  | fdbAgeOut (i : Fin 4096)
  /-- PORT_LINK_CHANGE (R316): the link of port `p` comes up (with signal quality `sqi`, and PLCA cycles running or not) or goes down. -/
  | portLinkChange (p : Fin 8) (up : Bool) (sqi : Fin 8) (plca : Bool)
  /-- QBV_APPLY (R329): a write of `v` to QBV_CTL of port `p`. -/
  | qbvApply (a : Agent) (p : Fin 8) (v : Word)
  /-- QBV_SCHEDULE_CHANGE (R329): zone time reaches the cycle start at which the pending schedule of port `p` takes over. -/
  | qbvScheduleChange (p : Fin 8)
  /-- QBV_GATE_CHANGE (R328): zone time reaches the end of the current interval of port `p`'s gate control list. -/
  | qbvGateChange (p : Fin 8)
  /-- ETH_TBL_READ (R354): TBL_CMD of the switch with OP read. -/
  | ethTblRead (a : Agent) (table : Fin 16) (index : Fin 65536)
  /-- ETH_TBL_WRITE (R354): TBL_CMD of the switch with OP write. -/
  | ethTblWrite (a : Agent) (table : Fin 16) (index : Fin 65536)
  /-- ETH_FDB_SEARCH (R354): TBL_CMD of the switch with OP FDB search. -/
  | ethFdbSearch (a : Agent)
  /-- FRER_RECOVERY_RESET (R333): the recovery of stream entry `i` has seen no frame for RESET_MS. -/
  | frerRecoveryReset (i : Fin 512)
  /-- ETH_REARM (R353): ETH_ERR_CTL.REARM clears the ETH capture. -/
  | ethRearm (a : Agent)
  /-- ETH_PORT_CLR_CNT (R353): PORT_CNT_CTL.CLR_CNT clears the counters of port `p`. -/
  | ethPortClrCnt (a : Agent) (p : Fin 10)
  /-- FOLLOW_UP_TIMEOUT (R341): the Sync that waits has had no Follow_Up within SYNC_TO. -/
  | followUpTimeout
  /-- SYNC_TIMEOUT (R343): no offset has been accepted for SYNC_TO. -/
  | syncTimeout
  /-- TIME_SET (R345): TIME_CMD.SET. -/
  | timeSet (a : Agent)
  /-- TIME_ADJ (R345): TIME_CMD.ADJ. -/
  | timeAdj (a : Agent)
  /-- TIME_CLR_INT (R355): TIME_CMD.CLR_INT. -/
  | timeClrInt (a : Agent)
  /-- TIME_CLR_CNT (R355): TIME_CMD.CLR_CNT. -/
  | timeClrCnt (a : Agent)
  /-- TIME_CTL_WRITE (R343): a write of `v` to TIME_CTL. -/
  | timeCtlWrite (a : Agent) (v : Word)
  /-- TIME_FREQ_WRITE (R342): a write of `v` to TIME_FREQ. -/
  | timeFreqWrite (a : Agent) (v : Word)
  /-- EPOCH_INIT_WRITE (R337): a write of `v` to TIME_EPOCH_INIT. -/
  | epochInitWrite (a : Agent) (v : Word)
  /-- TCU_ENABLE (R349): a write of `v` to TCU_CFG of unit `u`. -/
  | tcuEnable (a : Agent) (u : Fin 16) (v : Word)
  /-- TCU_CMP_HI_WRITE (R349): a write of `v` to TCU_CMP_HI of unit `u`. -/
  | tcuCmpHiWrite (a : Agent) (u : Fin 16) (v : Word)
  /-- TCU_PER_WRITE (R349): a write of `v` to TCU_PER of unit `u`. -/
  | tcuPerWrite (a : Agent) (u : Fin 16) (v : Word)
  /-- TCU_FIRE (R347): zone time reaches the next compare of unit `u`. -/
  | tcuFire (u : Fin 16)
  /-- CAN_TIME_STROBE (R350): zone time passes a whole millisecond; `counts` are the stamp counters of channels 0, 1, 2 … at that moment. -/
  | canTimeStrobe (counts : List Nat)
  /-- CAN_ENABLE (R361): a write of `v` to CAN_CTL of channel `c` that sets EN. -/
  | canEnable (a : Agent) (c : Fin 12) (v : Word)
  /-- CAN_DISABLE (R387): a write of `v` to CAN_CTL of channel `c` with EN 0. -/
  | canDisable (a : Agent) (c : Fin 12) (v : Word)
  /-- CAN_RECOVER (R374): CAN_CTL.RECOVER of channel `c`. -/
  | canRecover (a : Agent) (c : Fin 12)
  /-- CAN_RECOVERY_COMPLETE (R374): channel `c` has counted 128 occurrences of 11 recessive bits. -/
  | canRecoveryComplete (c : Fin 12)
  /-- CAN_REARM (R389): CAN_CMD.REARM of channel `c`. -/
  | canRearm (a : Agent) (c : Fin 12)
  /-- CAN_CLR_CNT (R389): CAN_CMD.CLR_CNT of channel `c`. -/
  | canClrCnt (a : Agent) (c : Fin 12)
  /-- CAN_FRAME_RECEIVE (R376): channel `c` receives frame `f` without error; `stamp` is its counter at the SOF. -/
  | canFrameReceive (c : Fin 12) (f : CanFrame) (stamp : Fin 4294967296)
  /-- CAN_ARBITRATION_START (R370): channel `c` drives the SOF of its highest-priority frame at counter value `stamp`. -/
  | canArbitrationStart (c : Fin 12) (stamp : Fin 4294967296)
  /-- CAN_ARBITRATION_LOST (R370): the frame of channel `c` loses arbitration. -/
  | canArbitrationLost (c : Fin 12)
  /-- CAN_TX_ERROR (R374): an error frame interrupts the frame of channel `c`; `kind` is its TYPE; `exempt` where ISO 11898-1 leaves the transmit error counter unchanged; `tdcFail` where the measured delay was above 127 mtq. -/
  | canTxError (c : Fin 12) (kind : Fin 6) (dataPhase exempt tdcFail : Bool)
  /-- CAN_TX_COMPLETE (R373): the frame of channel `c` is acknowledged and its EOF complete; `tdcv` is the delay measured in it. -/
  | canTxComplete (c : Fin 12) (tdcv : Fin 128)
  /-- CAN_DOMINANT_TIMEOUT (R358): the transmit path of channel `c` has stayed dominant for 4.0 ms. -/
  | canDominantTimeout (c : Fin 12)
  /-- GW_SLOT_LOAD (R368): the gateway looks at the message slots of channel `c`. -/
  | gwSlotLoad (c : Fin 12)
  /-- CGW_SEND (R372): the gateway takes the SEND descriptor that is next on ring pair `r`. -/
  | cgwSend (r : Ring)
  /-- CGW_CANCEL (R371): the gateway acts on the CANCEL descriptor that is next on ring pair `r`. -/
  | cgwCancel (r : Ring)
  /-- CGW_RECV (R378): the frame that waits for ring pair `r` is written to the buffer of its next RECV descriptor. -/
  | cgwRecv (r : Ring)
  /-- CGW_FIFO_RECORD (R379): the gateway takes the next record of FIFO source `j`. -/
  | cgwFifoRecord (j : Fin 2)
  /-- CGW_FIFOSRC_ENABLE (R379): a write of `v` to CGW_FIFOSRC of source `j` that sets EN. -/
  | cgwFifosrcEnable (a : Agent) (j : Fin 2) (v : Word)
  /-- CGW_ETH_FRAME_RECEIVE (R381): the gateway takes the oldest frame that the switch has for it at P9. -/
  | cgwEthFrameReceive
  /-- CGW_TBL_READ (R391): TBL_CMD of the gateway with OP read. -/
  | cgwTblRead (a : Agent) (table : Fin 16) (index : Fin 65536)
  /-- CGW_TBL_WRITE (R391): TBL_CMD of the gateway with OP write. -/
  | cgwTblWrite (a : Agent) (table : Fin 16) (index : Fin 65536)
  /-- CGW_REARM (R390): CGW_ERR_CTL.REARM clears the gateway capture. -/
  | cgwRearm (a : Agent)
  /-- CGW_CLR_CNT (R390): CGW_ERR_CTL.CLR_CNT clears the gateway counters. -/
  | cgwClrCnt (a : Agent)
  /-- NMW_EN_WRITE (R393): a write of `v` to NMW_CTL. -/
  | nmwEnWrite (a : Agent) (v : Word)
  /-- SEG_MANAGED_WRITE (R393): a write of `v` to SEG_CTL of segment `g`: MANAGED, and the fields without a row of their own. -/
  | segManagedWrite (a : Agent) (g : Fin 20) (v : Word)
  /-- SEG_HOLD_WRITE (R397): a write of `v` to SEG_CTL of segment `g`, its field HOLD. -/
  | segHoldWrite (a : Agent) (g : Fin 20) (v : Word)
  /-- NMW_WAKE_REQ (R403): a write of `v` to NMW_WAKE_REQ. -/
  | nmwWakeReq (a : Agent) (v : Word)
  /-- SEG_CURFEW_SET (R409): a write of `v` to SEG_CURFEW_SET of segment `g`. -/
  | segCurfewSet (a : Agent) (g : Fin 20) (v : Word)
  /-- LANTERN_RECEIVE (R396): NMW takes the oldest lantern that has reached it. -/
  | lanternReceive
  /-- OWN_LANTERN_SEND (R397): NMW's own lantern on segment `g` is due and is sent. -/
  | ownLanternSend (g : Fin 20)
  /-- OWN_LANTERN_LATE (R397): NMW's own lantern on segment `g` has not been sent within LANT_INT of its due time. -/
  | ownLanternLate (g : Fin 20)
  /-- SOURCE_NEED_EXPIRY (R396): CLOSE_T has passed without an accepted lantern of source `i` of segment `g`. -/
  | sourceNeedExpiry (g : Fin 20) (i : Fin 32)
  /-- SEGMENT_CLOSE (R399): CLOSE_T has passed on segment `g` since the last accepted lantern or wake request. -/
  | segmentClose (g : Fin 20)
  /-- SEGMENT_COMMIT (R400): CLOSE_WAIT has passed on segment `g`. -/
  | segmentCommit (g : Fin 20)
  /-- SEGMENT_WAKE_DETECT (R403): activity is detected on segment `g`, or (`routed`) a frame has been routed into it. -/
  | segmentWakeDetect (g : Fin 20) (routed : Bool)
  /-- SEGMENT_AWAKE (R399): an evaluation finds segment `g` integrated, or its link up. -/
  | segmentAwake (g : Fin 20)
  /-- WAKING_TIMEOUT (R399): segment `g` has been WAKING for 500 ms. -/
  | wakingTimeout (g : Fin 20)
  /-- CURFEW_EXPIRY (R408): source `i` of segment `g` has kept its need beyond its limit; it has been awake `secs` seconds. -/
  | curfewExpiry (g : Fin 20) (i : Fin 32) (secs : Nat)
  /-- NMW_REARM (R412): NMW_ERR_CTL.REARM clears the NMW capture. -/
  | nmwRearm (a : Agent)
  /-- NMW_CLR_CNT (R412): NMW_ERR_CTL.CLR_CNT clears the NMW counters and every SEG_STAT.LATE. -/
  | nmwClrCnt (a : Agent)
  /-- MD_STROBE (R417): a strobe of MD_TCU reaches the metering die; `m` is the interval since its last sample. -/
  | mdStrobe (m : MdSample)
  /-- MD_INTERVAL_TIMEOUT (R417): no strobe has come in time and the die closes an interval by itself; `m` is that interval. -/
  | mdIntervalTimeout (m : MdSample)
  /-- MD_LATCH_WRITE (R432): a write of `v` to MD_LATCH. -/
  | mdLatchWrite (v : Word)
  /-- MD_ISO_FAULT (R430): the isolated supply of the metering die leaves regulation. -/
  | mdIsoFault
  /-- MBUF_READ (R429): 10 µs after a strobe the writer reads the sample block and writes a metering record. -/
  | mbufRead
  /-- SENSE_SAMPLE (R424): 100 µs have passed and the sense inputs SI0 to SI31, then IGN, at `mv` millivolts, are sampled. -/
  | senseSample (mv : List Int)
  /-- DIRECT_CONTROL_CHANGE (R427): direct control input `j` has held a raw state for DC_FILT. -/
  | directControlChange (j : Fin 8) (closed : Bool)
  /-- SNS_GO (R425): a write of SNS_CMD.GO by `a`, or (`strobe`) a strobe of SCAN_TCU, asks for a scan. -/
  | snsGo (a : Agent) (strobe : Bool)
  /-- SNS_SCAN_COMPLETE (R425): the scan in progress ends; `codes` are the conversions of inputs 0, 1, 2 …. -/
  | snsScanComplete (codes : List Nat)
  /-- SNS_REARM (R431): SNS_CMD.REARM clears SNS_ERR_INFO.VALID. -/
  | snsRearm (a : Agent)
  /-- SNS_CLR_CNT (R431): SNS_CMD.CLR_CNT clears SNS_SKIP. -/
  | snsClrCnt (a : Agent)
  /-- SNS_BUF_ENABLE (R428): a write of `v`, with EN 1, to xBUF_HI of the sense (0) or metering (1) buffer. -/
  | snsBufEnable (a : Agent) (b : Fin 2) (v : Word)
  /-- REC_LB_PUT (R443): a write of `v` to REC_LB_PUT adds a firmware logbook record from the staged parameters. -/
  | recLbPut (a : Agent) (v : Word)
  /-- REC_RECORD_REQUEST (R442): the oldest record a hardware source has ready is handed to the recorder. -/
  | recRecordRequest
  /-- REC_RECORD_WRITE (R441): the recorder writes the next queued record of one log; `upTo` of the three steps of R441 are done when it ends (3 is the whole write; fewer, where the supply is lost in it). -/
  | recRecordWrite (ledger : Bool) (upTo : Fin 4)
  /-- ENERGY_STATEMENT_DUE (R445): STMT_PER minutes have passed since the last ENERGY record. -/
  | energyStatementDue
  /-- REC_STMT (R445): REC_CMD.STMT requests an energy statement. -/
  | recStmt (a : Agent)
  /-- ENERGY_STATEMENT_SIGNED (R445): the ledger signer completes the statement with the ECDSA and ML-DSA signatures `sig`, and the record is written. -/
  | energyStatementSigned (sig : List Byte) (upTo : Fin 4)
  /-- REC_CLEAR (R447): REC_CMD.CLEAR submits the clear message at REC_CLR_ADDR. -/
  | recClear (a : Agent)
  /-- REC_CLEAR_VERIFIED (R447): the key manager ends its check of the submitted clear message; `sigOk` says whether both signatures verify. -/
  | recClearVerified (sigOk : Bool) (upTo : Fin 4)
  /-- REC_SNAP (R449): REC_CMD.SNAP takes a snapshot for the writing initiator. -/
  | recSnap (a : Agent)
  /-- REC_REARM (R452): REC_CMD.REARM clears REC_ERR_INFO.VALID. -/
  | recRearm (a : Agent)
  /-- REC_CLR_CNT (R452): REC_CMD.CLR_CNT clears REC_TORN and REC_LOST. -/
  | recClrCnt (a : Agent)
  /-- REC_STARTUP_RECOVERY (R450): the recorder reads its state area, completes or skips an in-progress record and sets READY. -/
  | recStartupRecovery
  /-- KEY_DELIVER (R461): a write of `v`, with OP DELIVER, to KEY_CMD of channel `c`. -/
  | keyDeliver (a : Agent) (c : Fin 2) (v : Word)
  /-- KEY_UPDATE (R466): a write of `v`, with OP UPDATE, to KEY_CMD of channel `c`. -/
  | keyUpdate (a : Agent) (c : Fin 2) (v : Word)
  /-- KEY_ATTEST (R475): a write of `v`, with OP ATTEST, to KEY_CMD of channel `c`. -/
  | keyAttest (a : Agent) (c : Fin 2) (v : Word)
  /-- KEY_EXTEND (R473): a write of `v`, with OP EXTEND, to KEY_CMD of channel `c`. -/
  | keyExtend (a : Agent) (c : Fin 2) (v : Word)
  /-- KEY_VERIFY_IMAGE (R472): a write of `v`, with OP VERIFY_IMAGE, to KEY_CMD of channel `c`. -/
  | keyVerifyImage (a : Agent) (c : Fin 2) (v : Word)
  /-- KEY_EXPORT_PUB (R475): a write of `v`, with OP EXPORT_PUB, to KEY_CMD of channel `c`. -/
  | keyExportPub (a : Agent) (c : Fin 2) (v : Word)
  /-- KEY_REVOKE (R464): a write of `v`, with OP REVOKE, to KEY_CMD of channel `c`. -/
  | keyRevoke (a : Agent) (c : Fin 2) (v : Word)
  /-- KEY_PERSONALISE (R458): a write of `v`, with OP PERSONALISE, to KEY_CMD of channel `c`. -/
  | keyPersonalise (a : Agent) (c : Fin 2) (v : Word)
  /-- KEY_INVALID_OP (R484): a write of `v`, with an OP outside 0x1 to 0x8, to KEY_CMD of channel `c`. -/
  | keyInvalidOp (a : Agent) (c : Fin 2) (v : Word)
  /-- KEY_OPERATION_START (R465): the key manager, when free, starts the next request in priority order. -/
  | keyOperationStart
  /-- KEY_OPERATION_COMPLETE (R465): the operation in progress of a command channel ends; `sigOk` says whether the signatures it checks verify, `sig` is the ECDSA and ML-DSA signatures it forms, `upTo` how many of its steps are done (5 is all; fewer, where the supply is lost in it). -/
  | keyOperationComplete (sigOk : Bool) (sig : List Byte) (upTo : Fin 6)
  /-- KEY_SEAL (R476): the sealer encrypts the VF blob of the request of VFM in progress. -/
  | keySeal
  /-- KEY_UNSEAL (R476): the sealer checks and decrypts the sealed form of the request of VFM in progress. -/
  | keyUnseal
  /-- KEY_STARTUP_RECOVERY (R469): at start-up the key manager completes or abandons interrupted updates and transitions. -/
  | keyStartupRecovery
  /-- KEY_CLR_CNT (R484): KEY_CTL.CLR_CNT. -/
  | keyClrCnt (a : Agent)
  /-- TAMPER_MONITOR_FIRE (R478): tamper monitor `m` fires; in sleep, `ticks` further ISL_AON ticks after the last event of ISL_AON. -/
  | tamperMonitorFire (m : Fin 5) (ticks : Nat)
  /-- CRY_NOP (R480): the crypto engine executes the NOP descriptor that is next on crypto ring pair `r`. -/
  | cryNop (r : Ring)
  /-- CRY_GCM_ENC (R480): the crypto engine executes the GCM_ENC descriptor that is next on crypto ring pair `r`. -/
  | cryGcmEnc (r : Ring)
  /-- CRY_GCM_DEC (R481): the crypto engine executes the GCM_DEC descriptor that is next on crypto ring pair `r`. -/
  | cryGcmDec (r : Ring)
  /-- CRY_CMAC (R480): the crypto engine executes the CMAC descriptor that is next on crypto ring pair `r`. -/
  | cryCmac (r : Ring)
  /-- CRY_SHA384 (R480): the crypto engine executes the SHA384 descriptor that is next on crypto ring pair `r`. -/
  | crySha384 (r : Ring)
  /-- CRY_REARM (R485): CRY_ERR_CTL.REARM clears the CRY capture. -/
  | cryRearm (a : Agent)
  /-- CRY_CLR_CNT (R485): CRY_ERR_CTL.CLR_CNT clears CRY_AUTHFAIL. -/
  | cryClrCnt (a : Agent)
  /-- VF_CTL_RESET (R177): VF_CTL.RESET in the doorbell page of function `f`. -/
  | vfCtlReset (a : Agent) (f : Fin 32)
  /-- VF_FWD_ACK (R176): a write of `v` to VF_FWD_ACK of function `f`. -/
  | vfFwdAck (a : Agent) (f : Fin 32) (v : Word)
  /-- VFM_ENABLE (R177): VFM_CMD with OP ENABLE for function `f`. -/
  | vfmEnable (a : Agent) (f : Fin 32)
  /-- VFM_DISABLE (R177): VFM_CMD with OP DISABLE for function `f`. -/
  | vfmDisable (a : Agent) (f : Fin 32)
  /-- VFM_RESET (R177): VFM_CMD with OP RESET for function `f`. -/
  | vfmReset (a : Agent) (f : Fin 32)
  /-- VFM_FREEZE (R177): VFM_CMD with OP FREEZE for function `f`. -/
  | vfmFreeze (a : Agent) (f : Fin 32)
  /-- VFM_RESUME (R185): VFM_CMD with OP RESUME for function `f`. -/
  | vfmResume (a : Agent) (f : Fin 32)
  /-- VFM_SAVE (R183): VFM_CMD with OP SAVE for function `f`. -/
  | vfmSave (a : Agent) (f : Fin 32)
  /-- VFM_RESTORE (R184): VFM_CMD with OP RESTORE for function `f`. -/
  | vfmRestore (a : Agent) (f : Fin 32)
  /-- VFM_INVALID_OP (R189): a write of `v` to VFM_CMD with an OP outside 0x1 to 0x7. -/
  | vfmInvalidOp (a : Agent) (v : Word)
  /-- VFM_COMMAND_COMPLETE (R177): the VFM command in progress ends. -/
  | vfmCommandComplete
  /-- VF_FREEZE_DRAINED (R177): the last started item of the freezing function `f` has completed. -/
  | vfFreezeDrained (f : Fin 32)
  /-- VF_DRAIN_BOUND_EXPIRY (R181): the drain bound of the engine of function `f` expires. -/
  | vfDrainBoundExpiry (f : Fin 32)
  /-- STALE_ITEM_END (R179): the end of a stale item of function `f` reaches the VFM. -/
  | staleItemEnd (f : Fin 32)
  /-- VFM_WINDOW_ENABLE (R167): a write of `v` to WIN_CTL of window `w` of function `f`. -/
  | vfmWindowEnable (a : Agent) (f : Fin 32) (w : Fin 4) (v : Word)
  /-- VFM_REARM (R188): VFM_ERR_CTL.REARM. -/
  | vfmRearm (a : Agent)
  /-- VFM_CLR_CNT (R188): VFM_ERR_CTL.CLR_CNT. -/
  | vfmClrCnt (a : Agent)
  /-- WLD_HANDOVER (R491): a write of `v` to WLD_HO asks for the hand-over of a block. -/
  | wldHandover (a : Agent) (v : Word)
  /-- HANDOVER_DRAIN_END (R491): the fenced block's transfers have drained, or (`forced`) the 50 µs have expired, and the block is reset and scrubbed. -/
  | handoverDrainEnd (forced : Bool)
  /-- HANDOVER_COMPLETE (R491): the scrub completes, ownership and event worlds flip and the result is reported. -/
  | handoverComplete
  /-- WLD_APPW_WRITE (R487): a write of `v` to WLD_APPW. -/
  | wldAppwWrite (a : Agent) (v : Word)
  /-- WLD_REARM (R494): WLD_CTL.REARM clears the world-violation capture. -/
  | wldRearm (a : Agent)
  /-- WLD_CLR_CNT (R494): WLD_CTL.CLR_CNT clears WLD_VIOL_CNT. -/
  | wldClrCnt (a : Agent)
  /-- DBG_GRANT_WRITE (R495): a write of `v` to DBG_GRANT. -/
  | dbgGrantWrite (a : Agent) (v : Word)
  /-- DBG_CHALLENGE (R501): DBG_CMD.CHALLENGE draws a nonce. -/
  | dbgChallenge (a : Agent)
  /-- DBG_SUBMIT (R503): DBG_CMD.SUBMIT submits the unlock token in the token buffer. -/
  | dbgSubmit (a : Agent)
  /-- DBG_TOKEN_RESULT (R503): the check of the submitted token ends; `sigOk` says whether both signatures verify. -/
  | dbgTokenResult (sigOk : Bool)
  /-- DBG_LOCK (R496): DBG_CMD.LOCK clears DBG_GRANT and the token grant. -/
  | dbgLock (a : Agent)
  /-- DEBUG_RESET (R500): DBG_CMD.SYSRST asks for a debug reset. -/
  | debugReset (a : Agent)
  /-- DBG_TBUF_WRITE (R503): a write of `v` to DBG_TBUF_DATA. -/
  | dbgTbufWrite (a : Agent) (v : Word)
  /-- DBG_ACC_READ (R499): DBG_ACC_CMD.READ asks for one 32-bit fabric read on I8. -/
  | dbgAccRead (a : Agent)
  /-- DBG_ACC_WRITE (R499): DBG_ACC_CMD.WRITE asks for one 32-bit fabric write on I8. -/
  | dbgAccWrite (a : Agent)
  /-- DBG_ACC_COMPLETE (R499): the response to the outstanding debug access arrives. -/
  | dbgAccComplete
  /-- DBG_TOKEN_MINUTE (R496): a minute of the token grant elapses. -/
  | dbgTokenMinute
  /-- DBG_CHALLENGE_EXPIRY (R501): ten minutes have passed since the challenge was drawn. -/
  | dbgChallengeExpiry
  /-- DM_HALT_REQUEST (R498): the Debug Module asks hart `h` to halt. -/
  | dmHaltRequest (h : Fin 12)
  /-- DM_RESUME (R498): the Debug Module asks halted hart `h` to resume. -/
  | dmResume (h : Fin 12)
  /-- DM_STEP (R498): the Debug Module single-steps a halted hart. -/
  | dmStep (x : HartStep)
  /-- DM_ACCESS_REGISTER (R497): an Access Register abstract command reads register `regno` of hart `h`, or writes `v` to it. -/
  | dmAccessRegister (h : Fin 12) (write : Bool) (regno : Fin 65536) (v : Nat)
  /-- TAP_INSTRUCTION (R504): the TAP loads instruction `ir` and `dr` is shifted into its data register. -/
  | tapInstruction (ir : Fin 32) (dr : Nat)
  /-- UART_REQUEST (R505): the service UART receives the nine bytes of a request. -/
  | uartRequest (req : List Byte)
  /-- COHORT_BEACON_SEND (R511): a second has passed since the cohort agent's last beacon. -/
  | cohortBeaconSend
  /-- COHORT_BEACON_RECEIVE (R513): the agent receives the beacon `m`; `secured` is SECURED of its receive prefix. -/
  | cohortBeaconReceive (m : List Byte) (secured : Bool)
  /-- PEER_ABSENT_TIMEOUT (R513): 3 s have passed without a valid beacon of position `z`. -/
  | peerAbsentTimeout (z : Fin 6)
  /-- ATTEST_REQ (R514): the agent receives the frame `m` of an ATTEST_REQ. -/
  | attestReq (m : List Byte) (secured : Bool)
  /-- ATTEST_RSP (R514): the agent receives the frame `m` of an ATTEST_RSP; `sigOk` says whether the signatures of the statement verify under the keys of the message. -/
  | attestRsp (m : List Byte) (secured sigOk : Bool)
  /-- PEER_REVERIFY_EXPIRY (R513): the time to the next attestation of position `z` has passed: 24 h since its verification, or 60 s since a failed attempt. -/
  | peerReverifyExpiry (z : Fin 6)
  /-- TRANSFER_REASSEMBLY_TIMEOUT (R512): 100 ms have passed since the first fragment of message `id` of position `z`. -/
  | transferReassemblyTimeout (z : Fin 6) (id : Word)
  /-- TRANSFER_RETRY_TIMEOUT (R512): 500 ms have passed without an answer to the request of type `typ` to position `z`. -/
  | transferRetryTimeout (z : Fin 6) (typ : Fin 16)
  /-- OFFER (R522): the agent receives the frame `m` of an OFFER. -/
  | offer (m : List Byte) (secured : Bool)
  /-- ACK (R522): the agent receives the frame `m` of an ACK. -/
  | ack (m : List Byte) (secured : Bool)
  /-- COMMIT (R522): the agent receives the frame `m` of a COMMIT. -/
  | commit (m : List Byte) (secured : Bool)
  /-- ABORT (R523): the agent receives the frame `m` of an ABORT. -/
  | abort (m : List Byte) (secured : Bool)
  /-- DONE (R522): the agent receives the frame `m` of a DONE. -/
  | done (m : List Byte) (secured : Bool)
  /-- QUERY (R523): the agent receives the frame `m` of a QUERY. -/
  | query (m : List Byte) (secured : Bool)
  /-- STATUS (R523): the agent receives the frame `m` of a STATUS. -/
  | status (m : List Byte) (secured : Bool)
  /-- MIGRATION_COMMIT_WAIT_EXPIRY (R523): 500 ms have passed since the frozen copy of migration `mig` from position `z` was restored. -/
  | migrationCommitWaitExpiry (z : Fin 6) (mig : Word)
  /-- MIGRATION_DONE_WAIT_EXPIRY (R523): 3 s have passed since COMMIT of migration `mig` was sent. -/
  | migrationDoneWaitExpiry (mig : Word)
  /-- TIME_TRUST_CHANGE (R520): the agent evaluates its time error estimate; `err` is the error a HOLDOVER has reached (R519). -/
  | timeTrustChange (err : Word)
  /-- CAN_RX_ERROR (R374): channel `c` detects a protocol error as a receiver; `kind` is its TYPE; `eight` where ISO 11898-1 adds 8 to the receive error counter. -/
  | canRxError (c : Fin 12) (kind : Fin 6) (dataPhase eight : Bool)
  /-- CAN_BUS_INTEGRATION (R389): channel `c` has counted 11 recessive bits. -/
  | canBusIntegration (c : Fin 12)
  /-- MD_ISO_RESTORE (R432): the isolated supply of the metering die returns to regulation. -/
  | mdIsoRestore
deriving DecidableEq, Repr

end Sys2Proof
end

