-- ==== Sys2Proof/Config.lean ====
section
/-! DEFINITION. What an implementation fixes and the spec leaves open: constants without a body. Nothing in Lean can evaluate
them, so a statement about the machine holds whatever they are. -/

namespace Sys2Proof.Config

/-- A value the hardware draws or leaves open: the `n`-th one, of as many bits as its user takes from it. -/
opaque free : Nat → Nat

/-- Where a figure that the spec gives by its limits lies between them: the excess over the lower limit, by figure (R253). -/
opaque tolerance : Nat → Nat

/-- SHA-384 of a byte string (published standard; 48 bytes are used). -/
opaque sha384 : List Byte → List Byte

/-- AES-CMAC under a key (published standard; 16 bytes are used). -/
opaque cmac : List Byte → List Byte → List Byte

/-- AES-GCM: key, nonce, additional data, text; the ciphertext (as long as the text) and the tag. -/
opaque gcmEnc : List Byte → List Byte → List Byte → List Byte → List Byte × List Byte

/-- AES-GCM: key, nonce, additional data, ciphertext; the text (as long as the ciphertext) and the tag it should carry. -/
opaque gcmDec : List Byte → List Byte → List Byte → List Byte → List Byte × List Byte

/-- The KDF of IEEE 802.1X-2020 (R463): key, label and context, bytes wanted. -/
opaque kdf : List Byte → List Byte → Nat → List Byte

/-- The public keys that the key manager derives from the root (R453): 0 ECDSA identity, 1 ML-DSA identity, 2 ECDH transport,
3 ML-KEM transport. -/
opaque publicKey : Nat → List Byte → List Byte

/-- "QKEK" ‖ LC_GEN ‖ D (R456), whose last two widths the spec does not state: LC_GEN and the D fuse. -/
opaque kekInput : Nat → Bool → List Byte

/-- The state in force where both state copies are uncorrectable (R460 states none): COUNTER, MIN_SVN, LC_SEEN with D_SEEN, SERIAL. -/
opaque lostState : Nat × Nat × Nat × Nat

/-- The two shared secrets of a WRITE_SLOT message (Table 15.10), one behind the other: root, ephemeral ECDH key, ML-KEM
ciphertext. -/
opaque sharedSecret : List Byte → List Byte → List Byte → List Byte

/-- The zone time that the gateway gives a CAN stamp before its channel has two captures to interpolate between (R366 states none):
the stamp and the time of the capture used. -/
opaque stampTime : Nat → Nat → Nat

/-- The index at which the switch places a new FDB entry, by its key and the indices in use (R354 places entries by their key and
does not say where); where that index is in use, the bucket is full. -/
opaque fdbSlot : Nat → List Nat → Nat

/-- COHORT_ID in the configuration tables whose measurement is MEAS3 (R510); 8 bytes are used. -/
opaque cohortId : List Byte → List Byte

/-- The MODULE_ID that those tables expect at a position (R510); 16 bytes are used. -/
opaque cohortMember : List Byte → Nat → List Byte

/-- COMPAT and COMPAT_MIN of those tables (R510, R517). -/
opaque cohortCompat : List Byte → Nat × Nat

/-- The reference values of MEAS1 and MEAS2 that those tables hold for an SVN_SET (R514); 48 bytes of each are used. -/
opaque cohortRef : List Byte → List Byte → List Byte × List Byte

/-- SVN_SET of the images whose measurements are MEAS0, MEAS1 and MEAS2 (Table 17.1); 12 bytes are used. -/
opaque svnSet : List (List Byte) → List Byte

end Sys2Proof.Config
end

