-- ==== Sys2Proof/Machine/Cells.lean ====
section
/-! DEFINITION. Keyed lists (the one shape of every sparse table of the state), bit fields of numbers, byte order, and the
description of a register field. -/

namespace Sys2Proof.Machine

/-- The value a keyed list gives key `k`; `d` where the key is not listed. -/
def look {α : Type} : List (Nat × α) → Nat → α → α
  | [], _, d => d
  | (k', v) :: t, k, d => if k' = k then v else look t k d

/-- The keyed list with `v` at key `k`; keys stay strictly rising. -/
def ins {α : Type} : List (Nat × α) → Nat → α → List (Nat × α)
  | [], k, v => [(k, v)]
  | (k', v') :: t, k, v =>
    if k' = k then (k, v) :: t
    else if k < k' then (k, v) :: (k', v') :: t
    else (k', v') :: ins t k v

/-- The keyed list without key `k`. -/
def del {α : Type} (m : List (Nat × α)) (k : Nat) : List (Nat × α) :=
  m.filter (fun p => p.1 != k)

/-- The keyed list without the keys from `lo` up to, not including, `hi`. -/
def delRange {α : Type} (m : List (Nat × α)) (lo hi : Nat) : List (Nat × α) :=
  m.filter (fun p => !(decide (lo ≤ p.1) && decide (p.1 < hi)))

/-- Only the keys from `lo` up to, not including, `hi`. -/
def keepRange {α : Type} (m : List (Nat × α)) (lo hi : Nat) : List (Nat × α) :=
  m.filter (fun p => decide (lo ≤ p.1) && decide (p.1 < hi))

/-- Strictly rising keys: the canonical form of a keyed list. -/
def rising {α : Type} : List (Nat × α) → Bool
  | [] => true
  | [_] => true
  | p :: q :: t => decide (p.1 < q.1) && rising (q :: t)

/-- `w` bits of `v` from bit `lo` up. -/
def bits (v lo w : Nat) : Nat := v / 2 ^ lo % 2 ^ w

/-- Bit `i` of `v` as a truth value. -/
def bit (v i : Nat) : Bool := v / 2 ^ i % 2 == 1

/-- 1 for true, 0 for false: what a one-bit field holds. -/
def b2n (b : Bool) : Nat := if b then 1 else 0

/-- `v` with the bits of `m` set. -/
def orBits (v m : Nat) : Nat := v ||| m

/-- `v` with the bits of `m` cleared. -/
def clearBits (v m : Nat) : Nat := v - (v &&& m)

/-- `v` with bit `i` set to `b`. -/
def putBit (v i : Nat) (b : Bool) : Nat := if b then v ||| 2 ^ i else clearBits v (2 ^ i)

/-- One more, staying at the all-ones value of `w` bits (a saturating counter). -/
def satInc (v w : Nat) : Nat := min (v + 1) (2 ^ w - 1)

/-- A number of `w` bits read as a two's complement number. -/
def signed (v w : Nat) : Int := if v < 2 ^ (w - 1) then (v : Int) else (v : Int) - 2 ^ w

/-- The `w` bits that hold an integer in two's complement. -/
def unsigned (i : Int) (w : Nat) : Nat := (i % (2 ^ w : Int)).toNat

/-- The number that bytes spell, the first byte least significant (R13). -/
def leNat : List Byte → Nat
  | [] => 0
  | b :: t => b.toNat + 256 * leNat t

/-- `n` bytes that spell `v`, least significant first (R13). -/
def leBytes : Nat → Nat → List Byte
  | 0, _ => []
  | n + 1, v => BitVec.ofNat 8 v :: leBytes n (v / 256)

/-- `n` bytes that spell `v`, most significant first (network order). -/
def beBytes (n v : Nat) : List Byte := (leBytes n v).reverse

/-- The number that bytes spell in network order, the first byte most significant. -/
def beNat (l : List Byte) : Nat := l.foldl (fun n b => 256 * n + b.toNat) 0

/-- The number that `n` bytes of `l` from offset `o` spell in network order. -/
def beAt (l : List Byte) (o n : Nat) : Nat := beNat ((l.drop o).take n)

/-- The bytes of `l` with those of `p` in place from offset `o` on. -/
def patch (l : List Byte) (o : Nat) (p : List Byte) : List Byte := l.take o ++ p ++ l.drop (o + p.length)

/-- Exactly `n` bytes: cut, or filled with zeros at the end. -/
def fitBytes (n : Nat) (l : List Byte) : List Byte := l.take n ++ List.replicate (n - l.length) 0

/-- The number that `n` bytes of `l` from offset `o` spell, least significant first. -/
def fieldAt (l : List Byte) (o n : Nat) : Nat := leNat ((l.drop o).take n)

/-- All bytes of a list are zero. -/
def allZero (l : List Byte) : Bool := l.all (· == 0)

/-- A register field: the address of its register, its lowest bit, its width, and its value at reset. -/
structure Fld where
  addr : Nat
  lo : Nat
  w : Nat
  reset : Nat
deriving DecidableEq, Repr

/-- The key of a field in the register file: one key for each bit position of each register. -/
def Fld.key (f : Fld) : Nat := f.addr * 32 + f.lo

/-- The access types of Table 0.1; RSV fields have no entry in the map. -/
inductive Access where
  | ro | rw | w1c | w1s | wo | rwo
deriving DecidableEq, Repr

/-- A row of a register map: the field at its first instance, how often and at what distance it repeats, its access type. -/
structure FRow where
  fld : Fld
  dims : List (Nat × Nat)
  acc : Access
deriving DecidableEq, Repr

/-- Whether offset `r` from the first instance is an instance (distances in falling order). -/
def dimsHit : List (Nat × Nat) → Nat → Bool
  | [], r => r == 0
  | (n, st) :: ds, r => dimsHit ds (r - min (r / st) (n - 1) * st)

/-- Whether the row has an instance at `addr`. -/
def FRow.hits (r : FRow) (addr : Nat) : Bool :=
  decide (r.fld.addr ≤ addr) && dimsHit r.dims (addr - r.fld.addr)

end Sys2Proof.Machine
end

