-- ==== Sys2Proof/Machine/Fields.lean ====
section
/-! DEFINITION. One name for every field of every register map of the spec (Tables 1.9, 1.12, 2.8, 2.11 to 2.13, 3.10, 4.10,
5.2, 5.9, 5.10, 6.7, 6.9, 6.11, 7.5, 9.10 to 9.12, 10.7, 10.8, 10.10, 11.7, 11.11, 12.11, 12.12, 13.4, 13.9, 14.10, 15.22 to
15.24, 16.8 and 16.9): its address, its lowest bit, its width and its reset value. Indexed registers take their indices. A
field whose Reset column says OTP, pins, MRAM or session holds 0 until the step that loads it (R12). -/

namespace Sys2Proof.Machine

/-- The value of a reset field by load-channel class: local channels 0 and 1 are class H, 2 to 5 class M, 6 to 11 class L
(R250). -/
def classPick (k h m l : Nat) : Nat := if k < 2 then h else if k < 6 then m else l

/-- The register page of virtual function `f` (R35): Ethernet VF 0 to 15 are functions 0 to 15, CAN VF 0 to 7 are 16 to 23,
crypto VF 0 to 7 are 24 to 31. -/
def vfPage (f : Nat) : Nat :=
  if f < 16 then 0x41000000 + 0x1000 * f
  else if f < 24 then 0x41100000 + 0x1000 * (f - 16)
  else 0x41180000 + 0x1000 * (f - 24)


-- Table 1.9
def SYS_ID_VENDOR : Fld := ⟨0x40000000, 24, 8, 0x51⟩
def SYS_ID_PART : Fld := ⟨0x40000000, 8, 16, 0x7240⟩
def SYS_ID_REV : Fld := ⟨0x40000000, 0, 8, 0xa0⟩
def SYS_DIEID0 : Fld := ⟨0x40000004, 0, 32, 0x6e69775a⟩
def SYS_DIEID1 : Fld := ⟨0x40000008, 0, 32, 0x6f746174⟩
def SYS_ZONE : Fld := ⟨0x40000010, 0, 3, 0⟩

-- Table 1.12
def EVC_PEND (k : Nat) : Fld := ⟨0x40010000 + 4 * k, 0, 32, 0⟩
def EVC_SET (k : Nat) : Fld := ⟨0x40010080 + 4 * k, 0, 32, 0⟩
def EVC_EN (k : Nat) : Fld := ⟨0x40010100 + 4 * k, 0, 32, 0⟩
def EVC_CFG_WORLD (n : Nat) : Fld := ⟨0x40011000 + 4 * n, 24, 1, if n = 3 then 0 else 1⟩
def EVC_CFG_PRIO (n : Nat) : Fld := ⟨0x40011000 + 4 * n, 16, 4, 0⟩
def EVC_CFG_VF (n : Nat) : Fld := ⟨0x40011000 + 4 * n, 8, 5, 0⟩
def EVC_CFG_TGT (n : Nat) : Fld := ⟨0x40011000 + 4 * n, 0, 4, 0⟩
def EVC_TOP_VALID (t : Nat) : Fld := ⟨0x40012000 + 0x10 * t, 31, 1, 0⟩
def EVC_TOP_PRIO (t : Nat) : Fld := ⟨0x40012000 + 0x10 * t, 8, 4, 0⟩
def EVC_TOP_EVENT (t : Nat) : Fld := ⟨0x40012000 + 0x10 * t, 0, 8, 0⟩
def EVC_THR (t : Nat) : Fld := ⟨0x40012004 + 0x10 * t, 0, 4, 0⟩
def EVC_WCE_CE_CNT : Fld := ⟨0x40013000, 0, 32, 0⟩
def EVC_WCE_UE_CNT : Fld := ⟨0x40013004, 0, 32, 0⟩
def EVC_WCE_ADDR_LO : Fld := ⟨0x40013008, 0, 32, 0⟩
def EVC_WCE_ADDR_HI : Fld := ⟨0x4001300c, 0, 8, 0⟩
def EVC_WCE_INFO_VALID : Fld := ⟨0x40013010, 31, 1, 0⟩
def EVC_WCE_INFO_UE : Fld := ⟨0x40013010, 24, 1, 0⟩
def EVC_WCE_INFO_UNIT : Fld := ⟨0x40013010, 16, 8, 0⟩
def EVC_WCE_INFO_SQ : Fld := ⟨0x40013010, 8, 8, 0⟩
def EVC_WCE_INFO_SP : Fld := ⟨0x40013010, 0, 8, 0⟩
def EVC_WCE_CTL_REARM : Fld := ⟨0x40013014, 1, 1, 0⟩
def EVC_WCE_CTL_CLR_CNT : Fld := ⟨0x40013014, 0, 1, 0⟩
def EVC_FAB_ADDR_LO : Fld := ⟨0x40013020, 0, 32, 0⟩
def EVC_FAB_ADDR_HI : Fld := ⟨0x40013024, 0, 8, 0⟩
def EVC_FAB_INFO_VALID : Fld := ⟨0x40013028, 31, 1, 0⟩
def EVC_FAB_INFO_CAUSE : Fld := ⟨0x40013028, 8, 3, 0⟩
def EVC_FAB_INFO_TPORT : Fld := ⟨0x40013028, 4, 4, 0⟩
def EVC_FAB_INFO_IPORT : Fld := ⟨0x40013028, 0, 4, 0⟩
def EVC_FAB_CTL : Fld := ⟨0x4001302c, 0, 1, 0⟩

-- Table 2.8
def SYS_STRAP_MD_EN : Fld := ⟨0x40000040, 6, 1, 0⟩
def SYS_STRAP_BOOT_BANK : Fld := ⟨0x40000040, 4, 2, 0⟩
def SYS_STRAP_SG1_MODE : Fld := ⟨0x40000040, 2, 2, 0⟩
def SYS_STRAP_SG0_MODE : Fld := ⟨0x40000040, 0, 2, 0⟩
def SYS_STRAP_STAT_BANK_USED : Fld := ⟨0x40000044, 4, 1, 0⟩
def SYS_STRAP_STAT_DEFAULTS : Fld := ⟨0x40000044, 3, 1, 0⟩
def SYS_STRAP_STAT_SG0_FORCED : Fld := ⟨0x40000044, 2, 1, 0⟩
def SYS_STRAP_STAT_CORRECTED : Fld := ⟨0x40000044, 1, 1, 0⟩
def SYS_STRAP_STAT_LOADED : Fld := ⟨0x40000044, 0, 1, 0⟩

-- Table 2.11
def PWR_STATE_PREV : Fld := ⟨0x40001000, 4, 4, 0⟩
def PWR_STATE_CUR : Fld := ⟨0x40001000, 0, 4, 1⟩
def PWR_REQ : Fld := ⟨0x40001004, 0, 4, 0⟩
def PWR_RESULT_STAGE_LOST : Fld := ⟨0x40001008, 8, 1, 0⟩
def PWR_RESULT_CODE : Fld := ⟨0x40001008, 4, 4, 0⟩
def PWR_RESULT_TARGET : Fld := ⟨0x40001008, 0, 4, 0⟩
def PWR_CFG_IGN_HOLD : Fld := ⟨0x4000100c, 16, 1, 1⟩
def PWR_CFG_DWELL : Fld := ⟨0x4000100c, 8, 8, 0x48⟩
def PWR_CFG_PARK_TO : Fld := ⟨0x4000100c, 0, 8, 0x64⟩
def PWR_WAKE_ARM : Fld := ⟨0x40001010, 0, 23, 0xff⟩
def PWR_WAKE_CAUSE_POR : Fld := ⟨0x40001014, 24, 1, 1⟩
def PWR_WAKE_CAUSE_TAMPER : Fld := ⟨0x40001014, 23, 1, 0⟩
def PWR_WAKE_CAUSE_SRC : Fld := ⟨0x40001014, 0, 23, 0⟩
def PWR_APP_PARK : Fld := ⟨0x40001018, 0, 4, 0⟩
def PWR_STAT_DRAM_RDY : Fld := ⟨0x4000101c, 6, 1, 0⟩
def PWR_STAT_MD_PWR : Fld := ⟨0x4000101c, 5, 1, 0⟩
def PWR_STAT_STAGE_PWR : Fld := ⟨0x4000101c, 4, 1, 0⟩
def PWR_STAT_PARK_FORCED : Fld := ⟨0x4000101c, 3, 1, 0⟩
def PWR_STAT_VLOW : Fld := ⟨0x4000101c, 2, 1, 0⟩
def PWR_STAT_VHIGH : Fld := ⟨0x4000101c, 1, 1, 0⟩
def PWR_STAT_BUSY : Fld := ⟨0x4000101c, 0, 1, 0⟩
def PWR_VBAT : Fld := ⟨0x40001020, 0, 16, 0⟩
def PWR_TEMP : Fld := ⟨0x40001024, 0, 16, 0⟩
def PWR_SLEEP_LO : Fld := ⟨0x40001028, 0, 32, 0⟩
def PWR_SLEEP_HI : Fld := ⟨0x4000102c, 0, 32, 0⟩

-- Table 2.12
def CLK_STAT_LOCK : Fld := ⟨0x40002000, 1, 7, 0⟩
def CLK_STAT_REF_OK : Fld := ⟨0x40002000, 0, 1, 0⟩
def CLK_ISL_GATE_APP : Fld := ⟨0x40002004, 1, 1, 0⟩
def CLK_ISL_GATE_SG1 : Fld := ⟨0x40002004, 0, 1, 0⟩
def CLK_BLK_GATE : Fld := ⟨0x40002008, 0, 23, 0⟩
def CLK_APP_DIV_THROTTLE : Fld := ⟨0x4000200c, 8, 1, 0⟩
def CLK_APP_DIV_APP_DIV : Fld := ⟨0x4000200c, 0, 2, 0⟩
def CLK_AON_CAL : Fld := ⟨0x40002010, 0, 16, 0x7d00⟩

-- Table 2.13
def RST_CAUSE_DBG : Fld := ⟨0x40003000, 4, 1, 0⟩
def RST_CAUSE_SYS_SW : Fld := ⟨0x40003000, 3, 1, 0⟩
def RST_CAUSE_WDT : Fld := ⟨0x40003000, 2, 1, 0⟩
def RST_CAUSE_WAKE : Fld := ⟨0x40003000, 1, 1, 0⟩
def RST_CAUSE_POR : Fld := ⟨0x40003000, 0, 1, 0⟩
def RST_SYS : Fld := ⟨0x40003004, 0, 32, 0⟩
def RST_BLK0_NMW : Fld := ⟨0x40003008, 22, 1, 0⟩
def RST_BLK0_REC : Fld := ⟨0x40003008, 21, 1, 0⟩
def RST_BLK0_LCC : Fld := ⟨0x40003008, 20, 1, 0⟩
def RST_BLK0_CRY : Fld := ⟨0x40003008, 19, 1, 0⟩
def RST_BLK0_SNS : Fld := ⟨0x40003008, 18, 1, 0⟩
def RST_BLK0_TIME : Fld := ⟨0x40003008, 17, 1, 0⟩
def RST_BLK0_ETH : Fld := ⟨0x40003008, 16, 1, 0⟩
def RST_BLK0_FIFO : Fld := ⟨0x40003008, 15, 1, 0⟩
def RST_BLK0_DMA1 : Fld := ⟨0x40003008, 14, 1, 0⟩
def RST_BLK0_DMA0 : Fld := ⟨0x40003008, 13, 1, 0⟩
def RST_BLK0_CGW : Fld := ⟨0x40003008, 12, 1, 0⟩
def RST_BLK0_CAN : Fld := ⟨0x40003008, 0, 12, 0⟩
def RST_APP : Fld := ⟨0x4000300c, 0, 4, 0xf⟩
def RST_STAGE_MD : Fld := ⟨0x40003010, 4, 1, 0⟩
def RST_STAGE_PS : Fld := ⟨0x40003010, 0, 4, 0⟩
def RST_WDT_CFG_EN : Fld := ⟨0x40003014, 31, 1, 0⟩
def RST_WDT_CFG_PERIOD : Fld := ⟨0x40003014, 0, 16, 0x64⟩
def RST_WDT_KICK : Fld := ⟨0x40003018, 0, 32, 0⟩
def RST_WDT_CNT : Fld := ⟨0x4000301c, 0, 16, 0x64⟩

-- Table 3.10
def VOTE_STAT_CTL_REFUSED (g : Nat) : Fld := ⟨0x40020000 + 0x1000 * g, 17, 1, 0⟩
def VOTE_STAT_MODE (g : Nat) : Fld := ⟨0x40020000 + 0x1000 * g, 16, 1, 0⟩
def VOTE_STAT_GROUP (g : Nat) : Fld := ⟨0x40020000 + 0x1000 * g, 12, 4, 0⟩
def VOTE_STAT_LANE2 (g : Nat) : Fld := ⟨0x40020000 + 0x1000 * g, 8, 4, 0⟩
def VOTE_STAT_LANE1 (g : Nat) : Fld := ⟨0x40020000 + 0x1000 * g, 4, 4, 0⟩
def VOTE_STAT_LANE0 (g : Nat) : Fld := ⟨0x40020000 + 0x1000 * g, 0, 4, 0⟩
def VOTE_CFG_REJOIN_MAXWAIT (g : Nat) : Fld := ⟨0x40020004 + 0x1000 * g, 24, 8, 0xa⟩
def VOTE_CFG_RESTART_LIMIT (g : Nat) : Fld := ⟨0x40020004 + 0x1000 * g, 16, 4, 3⟩
def VOTE_CFG_FAIL_LIMIT (g : Nat) : Fld := ⟨0x40020004 + 0x1000 * g, 8, 4, 4⟩
def VOTE_CFG_REJOIN_POL (g : Nat) : Fld := ⟨0x40020004 + 0x1000 * g, 0, 1, 0⟩
def VOTE_CTL_AGREE_REARM (g : Nat) : Fld := ⟨0x40020008 + 0x1000 * g, 13, 1, 0⟩
def VOTE_CTL_REARM (g : Nat) : Fld := ⟨0x40020008 + 0x1000 * g, 12, 1, 0⟩
def VOTE_CTL_CLR_CNT (g : Nat) : Fld := ⟨0x40020008 + 0x1000 * g, 11, 1, 0⟩
def VOTE_CTL_RELEASE (g : Nat) : Fld := ⟨0x40020008 + 0x1000 * g, 8, 3, 0⟩
def VOTE_CTL_FAIL (g : Nat) : Fld := ⟨0x40020008 + 0x1000 * g, 4, 3, 0⟩
def VOTE_CTL_REJOIN_NOW (g : Nat) : Fld := ⟨0x40020008 + 0x1000 * g, 0, 1, 0⟩
def VOTE_MM_INFO_VALID (g : Nat) : Fld := ⟨0x40020010 + 0x1000 * g, 31, 1, 0⟩
def VOTE_MM_INFO_KIND (g : Nat) : Fld := ⟨0x40020010 + 0x1000 * g, 24, 4, 0⟩
def VOTE_MM_INFO_LANES (g : Nat) : Fld := ⟨0x40020010 + 0x1000 * g, 16, 3, 0⟩
def VOTE_MM_INFO_FIELDS (g : Nat) : Fld := ⟨0x40020010 + 0x1000 * g, 8, 6, 0⟩
def VOTE_MM_ADDR_LO (g : Nat) : Fld := ⟨0x40020014 + 0x1000 * g, 0, 32, 0⟩
def VOTE_MM_ADDR_HI (g : Nat) : Fld := ⟨0x40020018 + 0x1000 * g, 0, 8, 0⟩
def VOTE_MM_CYC_LO (g : Nat) : Fld := ⟨0x4002001c + 0x1000 * g, 0, 32, 0⟩
def VOTE_MM_CYC_HI (g : Nat) : Fld := ⟨0x40020020 + 0x1000 * g, 0, 32, 0⟩
def VOTE_MASK_CNT_LANE2 (g : Nat) : Fld := ⟨0x40020024 + 0x1000 * g, 16, 8, 0⟩
def VOTE_MASK_CNT_LANE1 (g : Nat) : Fld := ⟨0x40020024 + 0x1000 * g, 8, 8, 0⟩
def VOTE_MASK_CNT_LANE0 (g : Nat) : Fld := ⟨0x40020024 + 0x1000 * g, 0, 8, 0⟩
def VOTE_RESTART_CNT_CONSEC (g : Nat) : Fld := ⟨0x40020028 + 0x1000 * g, 24, 4, 0⟩
def VOTE_RESTART_CNT_TOTAL (g : Nat) : Fld := ⟨0x40020028 + 0x1000 * g, 0, 16, 0⟩
def VOTE_AGREE_SKEW (g : Nat) : Fld := ⟨0x4002002c + 0x1000 * g, 0, 32, 0⟩
def VOTE_AGREE_HELD_LANE2 (g : Nat) : Fld := ⟨0x40020030 + 0x1000 * g, 16, 8, 0⟩
def VOTE_AGREE_HELD_LANE1 (g : Nat) : Fld := ⟨0x40020030 + 0x1000 * g, 8, 8, 0⟩
def VOTE_AGREE_HELD_LANE0 (g : Nat) : Fld := ⟨0x40020030 + 0x1000 * g, 0, 8, 0⟩
def VOTE_AGREE_INFO_VALID (g : Nat) : Fld := ⟨0x40020034 + 0x1000 * g, 31, 1, 0⟩
def VOTE_AGREE_INFO_LANE (g : Nat) : Fld := ⟨0x40020034 + 0x1000 * g, 16, 3, 0⟩
def VOTE_AGREE_INFO_SOURCE (g : Nat) : Fld := ⟨0x40020034 + 0x1000 * g, 8, 4, 0⟩
def VOTE_REJOIN_LAST (g : Nat) : Fld := ⟨0x40020038 + 0x1000 * g, 0, 16, 0⟩
def VOTE_REJOIN_CNT (g : Nat) : Fld := ⟨0x4002003c + 0x1000 * g, 0, 16, 0⟩
def VOTE_SPLIT_ENTRY1 (g : Nat) : Fld := ⟨0x40020050 + 0x1000 * g, 2, 30, 0⟩
def VOTE_SPLIT_ENTRY2 (g : Nat) : Fld := ⟨0x40020054 + 0x1000 * g, 2, 30, 0⟩
def VOTE_SPLIT_RUN (g : Nat) : Fld := ⟨0x40020058 + 0x1000 * g, 1, 2, 0⟩
def VOTE_SPLIT_IPI_SET (g : Nat) : Fld := ⟨0x4002005c + 0x1000 * g, 0, 3, 0⟩
def VOTE_SPLIT_IPI (g : Nat) : Fld := ⟨0x40020060 + 0x1000 * g, 0, 3, 0⟩

-- Table 4.10
def IST_CTL_TEST_NOW : Fld := ⟨0x40022000, 8, 1, 0⟩
def IST_CTL_CKB : Fld := ⟨0x40022000, 4, 1, 1⟩
def IST_CTL_FIFO : Fld := ⟨0x40022000, 3, 1, 1⟩
def IST_CTL_DMA : Fld := ⟨0x40022000, 2, 1, 1⟩
def IST_CTL_SG1 : Fld := ⟨0x40022000, 1, 1, 1⟩
def IST_CTL_SG0 : Fld := ⟨0x40022000, 0, 1, 1⟩
def IST_PERIOD_AUX : Fld := ⟨0x40022004, 24, 8, 0xa⟩
def IST_PERIOD_LANE : Fld := ⟨0x40022004, 0, 11, 0xa⟩
def IST_IDLE : Fld := ⟨0x40022008, 0, 8, 0xa⟩
def IST_AREA_BASE : Fld := ⟨0x4002200c, 12, 10, 0x3ff⟩
def IST_AREA_VALID : Fld := ⟨0x4002200c, 0, 1, 0⟩
def IST_ATTR : Fld := ⟨0x40022010, 0, 32, 0xffffffff⟩
def IST_STAT_ITEM : Fld := ⟨0x40022014, 20, 4, 0⟩
def IST_STAT_UNIT : Fld := ⟨0x40022014, 16, 4, 0⟩
def IST_STAT_SG1_NEXT : Fld := ⟨0x40022014, 6, 2, 0⟩
def IST_STAT_SG0_NEXT : Fld := ⟨0x40022014, 4, 2, 0⟩
def IST_STAT_SG1_OVERDUE : Fld := ⟨0x40022014, 1, 1, 0⟩
def IST_STAT_SG0_OVERDUE : Fld := ⟨0x40022014, 0, 1, 0⟩
def IST_RESULT_VALID : Fld := ⟨0x40022018, 31, 1, 0⟩
def IST_RESULT_OUTCOME : Fld := ⟨0x40022018, 24, 3, 0⟩
def IST_RESULT_ITEM : Fld := ⟨0x40022018, 20, 4, 0⟩
def IST_RESULT_UNIT : Fld := ⟨0x40022018, 16, 4, 0⟩
def IST_RESULT_DETAIL : Fld := ⟨0x40022018, 0, 16, 0⟩
def IST_COUNT_INC : Fld := ⟨0x4002201c, 24, 8, 0⟩
def IST_COUNT_FAIL : Fld := ⟨0x4002201c, 16, 8, 0⟩
def IST_COUNT_PASS : Fld := ⟨0x4002201c, 0, 16, 0⟩
def IST_FAILMAP_FIFO : Fld := ⟨0x40022020, 16, 16, 0⟩
def IST_FAILMAP_DMA : Fld := ⟨0x40022020, 0, 16, 0⟩
def IST_FAIL_CKB : Fld := ⟨0x40022024, 0, 4, 0⟩
def IST_CMD_REARM : Fld := ⟨0x40022028, 1, 2, 0⟩
def IST_CMD_CLR_CNT : Fld := ⟨0x40022028, 0, 1, 0⟩
def IST_CKPT_CNT_LO (g : Nat) : Fld := ⟨0x40022100 + 0x40 * g, 0, 32, 0⟩
def IST_CKPT_CNT_HI (g : Nat) : Fld := ⟨0x40022104 + 0x40 * g, 0, 32, 0⟩
def IST_CKPT_STAT_HALF (g : Nat) : Fld := ⟨0x40022108 + 0x40 * g, 24, 1, 0⟩
def IST_CKPT_STAT_RELQ (g : Nat) : Fld := ⟨0x40022108 + 0x40 * g, 16, 7, 0⟩
def IST_CKPT_STAT_UNDO (g : Nat) : Fld := ⟨0x40022108 + 0x40 * g, 0, 12, 0⟩
def IST_CKPT_EARLY_IDLE (g : Nat) : Fld := ⟨0x4002210c + 0x40 * g, 24, 8, 0⟩
def IST_CKPT_EARLY_REQ (g : Nat) : Fld := ⟨0x4002210c + 0x40 * g, 16, 8, 0⟩
def IST_CKPT_EARLY_RELQ (g : Nat) : Fld := ⟨0x4002210c + 0x40 * g, 8, 8, 0⟩
def IST_CKPT_EARLY_UNDO (g : Nat) : Fld := ⟨0x4002210c + 0x40 * g, 0, 8, 0⟩
def IST_RESTART_LAST_ENTRIES (g : Nat) : Fld := ⟨0x40022110 + 0x40 * g, 16, 12, 0⟩
def IST_RESTART_LAST_TIME (g : Nat) : Fld := ⟨0x40022110 + 0x40 * g, 0, 16, 0⟩
def IST_RESTART_MAX (g : Nat) : Fld := ⟨0x40022114 + 0x40 * g, 0, 16, 0⟩
def IST_RELQ_ERR_ADDR_LO (g : Nat) : Fld := ⟨0x40022118 + 0x40 * g, 0, 32, 0⟩
def IST_RELQ_ERR_ADDR_HI (g : Nat) : Fld := ⟨0x4002211c + 0x40 * g, 0, 8, 0⟩
def IST_RELQ_ERR_INFO_VALID (g : Nat) : Fld := ⟨0x40022120 + 0x40 * g, 31, 1, 0⟩
def IST_RELQ_ERR_INFO_COUNT (g : Nat) : Fld := ⟨0x40022120 + 0x40 * g, 0, 16, 0⟩

-- Table 5.9
def VFM_CMD_FN : Fld := ⟨0x400f0000, 16, 5, 0⟩
def VFM_CMD_OP : Fld := ⟨0x400f0000, 0, 4, 0⟩
def VFM_CMD_STAT_BUSY : Fld := ⟨0x400f0004, 31, 1, 0⟩
def VFM_CMD_STAT_RESULT : Fld := ⟨0x400f0004, 16, 8, 0⟩
def VFM_CMD_STAT_FN : Fld := ⟨0x400f0004, 8, 5, 0⟩
def VFM_CMD_STAT_OP : Fld := ⟨0x400f0004, 0, 4, 0⟩
def VFM_BLOB_LO : Fld := ⟨0x400f0008, 6, 26, 0⟩
def VFM_BLOB_HI : Fld := ⟨0x400f000c, 0, 8, 0⟩
def VFM_SEAL : Fld := ⟨0x400f0010, 0, 1, 1⟩
def VFM_APP_EXT : Fld := ⟨0x400f0014, 0, 4, 0⟩
def VFM_STALE_DROP_LO : Fld := ⟨0x400f0020, 0, 32, 0⟩
def VFM_STALE_DROP_HI : Fld := ⟨0x400f0024, 0, 32, 0⟩
def VFM_DB_STALE : Fld := ⟨0x400f0028, 0, 32, 0⟩
def VFM_FORCED : Fld := ⟨0x400f002c, 0, 32, 0⟩
def VFM_ERR_INFO_VALID : Fld := ⟨0x400f0030, 31, 1, 0⟩
def VFM_ERR_INFO_CAUSE : Fld := ⟨0x400f0030, 8, 4, 0⟩
def VFM_ERR_INFO_FN : Fld := ⟨0x400f0030, 0, 5, 0⟩
def VFM_ERR_ADDR_LO : Fld := ⟨0x400f0034, 0, 32, 0⟩
def VFM_ERR_ADDR_HI : Fld := ⟨0x400f0038, 0, 8, 0⟩
def VFM_ERR_CTL_CLR_CNT : Fld := ⟨0x400f003c, 1, 1, 0⟩
def VFM_ERR_CTL_REARM : Fld := ⟨0x400f003c, 0, 1, 0⟩
def VFM_VF_STATE_GEN (f : Nat) : Fld := ⟨0x400f0100 + 0x10 * f, 16, 8, 0⟩
def VFM_VF_STATE_STALE (f : Nat) : Fld := ⟨0x400f0100 + 0x10 * f, 8, 8, 0⟩
def VFM_VF_STATE_RST_HELD (f : Nat) : Fld := ⟨0x400f0100 + 0x10 * f, 4, 1, 0⟩
def VFM_VF_STATE_SHADE (f : Nat) : Fld := ⟨0x400f0100 + 0x10 * f, 3, 1, 0⟩
def VFM_VF_STATE_STATE (f : Nat) : Fld := ⟨0x400f0100 + 0x10 * f, 0, 3, 0⟩
def VFM_VF_ROUTE_GEI (f : Nat) : Fld := ⟨0x400f0104 + 0x10 * f, 8, 6, 0⟩
def VFM_VF_ROUTE_CORE (f : Nat) : Fld := ⟨0x400f0104 + 0x10 * f, 0, 2, 0⟩
def VFM_VF_DROP_STALE_DROP (f : Nat) : Fld := ⟨0x400f0108 + 0x10 * f, 16, 16, 0⟩
def VFM_VF_DROP_DB_STALE (f : Nat) : Fld := ⟨0x400f0108 + 0x10 * f, 0, 16, 0⟩
def VFM_VF_QDROP (f : Nat) : Fld := ⟨0x400f010c + 0x10 * f, 0, 32, 0⟩

-- Table 5.10
def VFM_WIN_GBASE (f w : Nat) : Fld := ⟨0x400f0800 + 0x40 * f + 0x10 * w, 0, 19, 0⟩
def VFM_WIN_HBASE (f w : Nat) : Fld := ⟨0x400f0804 + 0x40 * f + 0x10 * w, 0, 19, 0⟩
def VFM_WIN_CTL_EN (f w : Nat) : Fld := ⟨0x400f0808 + 0x40 * f + 0x10 * w, 31, 1, 0⟩
def VFM_WIN_CTL_SIZE (f w : Nat) : Fld := ⟨0x400f0808 + 0x40 * f + 0x10 * w, 0, 12, 0⟩

-- Table 6.9
def DMA_STAT_TESTING (m : Nat) : Fld := ⟨0x40030000 + 0x1000 * m, 16, 8, 0⟩
def DMA_STAT_STOPPED (m : Nat) : Fld := ⟨0x40030000 + 0x1000 * m, 8, 8, 0⟩
def DMA_STAT_BUSY (m : Nat) : Fld := ⟨0x40030000 + 0x1000 * m, 0, 8, 0⟩
def DMA_DB_IGN (m : Nat) : Fld := ⟨0x40030004 + 0x1000 * m, 0, 32, 0⟩
def DMA_ERR_INFO_VALID (m : Nat) : Fld := ⟨0x40030008 + 0x1000 * m, 31, 1, 0⟩
def DMA_ERR_INFO_CAUSE (m : Nat) : Fld := ⟨0x40030008 + 0x1000 * m, 24, 4, 0⟩
def DMA_ERR_INFO_CH (m : Nat) : Fld := ⟨0x40030008 + 0x1000 * m, 16, 3, 0⟩
def DMA_ERR_INFO_SQ_IDX (m : Nat) : Fld := ⟨0x40030008 + 0x1000 * m, 0, 16, 0⟩
def DMA_ERR_DESC_LO (m : Nat) : Fld := ⟨0x4003000c + 0x1000 * m, 0, 32, 0⟩
def DMA_ERR_DESC_HI (m : Nat) : Fld := ⟨0x40030010 + 0x1000 * m, 0, 8, 0⟩
def DMA_ERR_TGT_LO (m : Nat) : Fld := ⟨0x40030014 + 0x1000 * m, 0, 32, 0⟩
def DMA_ERR_TGT_HI (m : Nat) : Fld := ⟨0x40030018 + 0x1000 * m, 0, 8, 0⟩
def DMA_ERR_CTL_CLR_CNT (m : Nat) : Fld := ⟨0x4003001c + 0x1000 * m, 1, 1, 0⟩
def DMA_ERR_CTL_REARM (m : Nat) : Fld := ⟨0x4003001c + 0x1000 * m, 0, 1, 0⟩
def DMA_BYTES_LO (m : Nat) : Fld := ⟨0x40030020 + 0x1000 * m, 0, 32, 0⟩
def DMA_BYTES_HI (m : Nat) : Fld := ⟨0x40030024 + 0x1000 * m, 0, 32, 0⟩
def DMA_SQ_DB (m n : Nat) : Fld := ⟨0x40030040 + 0x1000 * m + 8 * n, 0, 32, 0⟩
def DMA_CQ_DB (m n : Nat) : Fld := ⟨0x40030044 + 0x1000 * m + 8 * n, 0, 32, 0⟩
def DMA_CH_CFG (m n : Nat) : Fld := ⟨0x40030120 + 0x1000 * m + 0x40 * n, 0, 16, 0x100⟩
def DMA_CH_STAT_TESTING (m n : Nat) : Fld := ⟨0x40030124 + 0x1000 * m + 0x40 * n, 17, 1, 0⟩
def DMA_CH_STAT_BUSY (m n : Nat) : Fld := ⟨0x40030124 + 0x1000 * m + 0x40 * n, 16, 1, 0⟩
def DMA_CH_STAT_DESCS (m n : Nat) : Fld := ⟨0x40030124 + 0x1000 * m + 0x40 * n, 0, 16, 0⟩

-- Table 6.11
def FIFO_POOL : Fld := ⟨0x40038000, 0, 4, 0xe⟩
def FIFO_ERR_INFO_VALID : Fld := ⟨0x40038004, 31, 1, 0⟩
def FIFO_ERR_INFO_CAUSE : Fld := ⟨0x40038004, 16, 4, 0⟩
def FIFO_ERR_INFO_FIFO : Fld := ⟨0x40038004, 0, 4, 0⟩
def FIFO_ERR_CNT : Fld := ⟨0x40038008, 0, 32, 0⟩
def FIFO_ERR_CTL_CLR_CNT : Fld := ⟨0x4003800c, 1, 1, 0⟩
def FIFO_ERR_CTL_REARM : Fld := ⟨0x4003800c, 0, 1, 0⟩
def FIFO_CFG_EN (n : Nat) : Fld := ⟨0x40038100 + 0x20 * n, 31, 1, 0⟩
def FIFO_CFG_PWORLD (n : Nat) : Fld := ⟨0x40038100 + 0x20 * n, 29, 1, 1⟩
def FIFO_CFG_CWORLD (n : Nat) : Fld := ⟨0x40038100 + 0x20 * n, 28, 1, 1⟩
def FIFO_CFG_SIZE_LOG2 (n : Nat) : Fld := ⟨0x40038100 + 0x20 * n, 16, 4, 4⟩
def FIFO_CFG_OFFSET (n : Nat) : Fld := ⟨0x40038100 + 0x20 * n, 0, 14, 0⟩
def FIFO_PUSH_LO (n : Nat) : Fld := ⟨0x40038104 + 0x20 * n, 4, 28, 0⟩
def FIFO_PUSH_HI_COMMIT (n : Nat) : Fld := ⟨0x40038108 + 0x20 * n, 31, 1, 0⟩
def FIFO_PUSH_HI_BAD (n : Nat) : Fld := ⟨0x40038108 + 0x20 * n, 30, 1, 0⟩
def FIFO_PUSH_HI_WORDS (n : Nat) : Fld := ⟨0x40038108 + 0x20 * n, 8, 8, 0⟩
def FIFO_PUSH_HI_SRC (n : Nat) : Fld := ⟨0x40038108 + 0x20 * n, 0, 8, 0⟩
def FIFO_POP (n : Nat) : Fld := ⟨0x4003810c + 0x20 * n, 0, 16, 0⟩
def FIFO_COUNT_CREDIT (n : Nat) : Fld := ⟨0x40038110 + 0x20 * n, 16, 16, 0⟩
def FIFO_COUNT_USED (n : Nat) : Fld := ⟨0x40038110 + 0x20 * n, 0, 16, 0⟩

-- Table 7.5
def BRG_CTL_HB_DBG_STOP : Fld := ⟨0x40040000, 13, 1, 0⟩
def BRG_CTL_HB_EN : Fld := ⟨0x40040000, 8, 5, 0⟩
def BRG_CTL_LINK_EN : Fld := ⟨0x40040000, 0, 5, 0⟩
def BRG_CFG_POLL : Fld := ⟨0x40040004, 16, 7, 0xa⟩
def BRG_CFG_RETRAIN : Fld := ⟨0x40040004, 3, 1, 1⟩
def BRG_CFG_NP_KEY : Fld := ⟨0x40040004, 2, 1, 1⟩
def BRG_CFG_NP_SG1 : Fld := ⟨0x40040004, 1, 1, 1⟩
def BRG_CFG_NP_SG0 : Fld := ⟨0x40040004, 0, 1, 1⟩
def BRG_STAT_HB_RUN : Fld := ⟨0x40040008, 16, 5, 0⟩
def BRG_STAT_LINK : Fld := ⟨0x40040008, 0, 15, 0⟩
def BRG_HB_CNT : Fld := ⟨0x4004000c, 0, 16, 0⟩
def BRG_PERR_STAT_VALID : Fld := ⟨0x40040010, 31, 1, 0⟩
def BRG_PERR_STAT_LEVEL : Fld := ⟨0x40040010, 8, 4, 0⟩
def BRG_PERR_STAT_LOST : Fld := ⟨0x40040010, 0, 8, 0⟩
def BRG_PERR_ADDR_LO : Fld := ⟨0x40040014, 0, 32, 0⟩
def BRG_PERR_ADDR_HI : Fld := ⟨0x40040018, 0, 8, 0⟩
def BRG_PERR_INFO_STATUS : Fld := ⟨0x4004001c, 28, 4, 0⟩
def BRG_PERR_INFO_PART : Fld := ⟨0x4004001c, 24, 4, 0⟩
def BRG_PERR_INFO_ID : Fld := ⟨0x4004001c, 16, 8, 0⟩
def BRG_PERR_INFO_SEQ : Fld := ⟨0x4004001c, 0, 16, 0⟩
def BRG_PERR_DATA : Fld := ⟨0x40040020, 0, 32, 0⟩
def BRG_PERR_CTL_CLR_CNT : Fld := ⟨0x40040024, 1, 1, 0⟩
def BRG_PERR_CTL_POP : Fld := ⟨0x40040024, 0, 1, 0⟩
def BRG_NP_ERR : Fld := ⟨0x40040028, 0, 32, 0⟩
def BRG_LINK_CNT_RETRY (d : Nat) : Fld := ⟨0x40040040 + 0x10 * d, 16, 16, 0⟩
def BRG_LINK_CNT_FAULTS (d : Nat) : Fld := ⟨0x40040040 + 0x10 * d, 8, 8, 0⟩
def BRG_LINK_CNT_BURSTS (d : Nat) : Fld := ⟨0x40040040 + 0x10 * d, 0, 8, 0⟩
def BRG_LINK_WCE_UE (d : Nat) : Fld := ⟨0x40040044 + 0x10 * d, 16, 16, 0⟩
def BRG_LINK_WCE_CE (d : Nat) : Fld := ⟨0x40040044 + 0x10 * d, 0, 16, 0⟩
def BRG_POST_SEQ (d : Nat) : Fld := ⟨0x40040048 + 0x10 * d, 0, 16, 0⟩

-- Table 9.10
def PS_ID_VENDOR (d : Nat) : Fld := ⟨0x50000000 + 0x10000 * d, 24, 8, 0x51⟩
def PS_ID_TYPE (d : Nat) : Fld := ⟨0x50000000 + 0x10000 * d, 16, 8, 1⟩
def PS_ID_DIE (d : Nat) : Fld := ⟨0x50000000 + 0x10000 * d, 8, 4, d⟩
def PS_ID_REV (d : Nat) : Fld := ⟨0x50000000 + 0x10000 * d, 0, 8, 0xa0⟩
def PS_SUP_FB_APPLIED (d : Nat) : Fld := ⟨0x50000004 + 0x10000 * d, 16, 1, 0⟩
def PS_SUP_HOLD_LEFT (d : Nat) : Fld := ⟨0x50000004 + 0x10000 * d, 8, 8, 0⟩
def PS_SUP_STATE (d : Nat) : Fld := ⟨0x50000004 + 0x10000 * d, 0, 2, 0⟩
def PS_CFG (d : Nat) : Fld := ⟨0x50000008 + 0x10000 * d, 0, 8, 0x14⟩
def PS_STAT_TDIE (d : Nat) : Fld := ⟨0x5000000c + 0x10000 * d, 24, 8, 0⟩
def PS_STAT_VSTAGE (d : Nat) : Fld := ⟨0x5000000c + 0x10000 * d, 16, 8, 0⟩
def PS_STAT_SENSOR_FAIL (d : Nat) : Fld := ⟨0x5000000c + 0x10000 * d, 4, 1, 0⟩
def PS_STAT_UV (d : Nat) : Fld := ⟨0x5000000c + 0x10000 * d, 3, 1, 0⟩
def PS_STAT_CEIL (d : Nat) : Fld := ⟨0x5000000c + 0x10000 * d, 2, 1, 0⟩
def PS_STAT_DERATE (d : Nat) : Fld := ⟨0x5000000c + 0x10000 * d, 1, 1, 0⟩
def PS_STAT_RSTSEQ (d : Nat) : Fld := ⟨0x5000000c + 0x10000 * d, 0, 1, 0⟩
def PS_ISUM (d : Nat) : Fld := ⟨0x50000010 + 0x10000 * d, 0, 16, 0⟩
def PS_DIEFLAG_SHED_NONE (d : Nat) : Fld := ⟨0x50000014 + 0x10000 * d, 8, 1, 0⟩
def PS_DIEFLAG_SHED (d : Nat) : Fld := ⟨0x50000014 + 0x10000 * d, 7, 1, 0⟩
def PS_DIEFLAG_CEIL_REFUSE (d : Nat) : Fld := ⟨0x50000014 + 0x10000 * d, 6, 1, 0⟩
def PS_DIEFLAG_RESTART (d : Nat) : Fld := ⟨0x50000014 + 0x10000 * d, 5, 1, 0⟩
def PS_DIEFLAG_UV_OFF (d : Nat) : Fld := ⟨0x50000014 + 0x10000 * d, 4, 1, 0⟩
def PS_DIEFLAG_SENSOR_FAIL (d : Nat) : Fld := ⟨0x50000014 + 0x10000 * d, 3, 1, 0⟩
def PS_DIEFLAG_OVERTEMP (d : Nat) : Fld := ⟨0x50000014 + 0x10000 * d, 2, 1, 0⟩
def PS_DIEFLAG_DERATE_OUT (d : Nat) : Fld := ⟨0x50000014 + 0x10000 * d, 1, 1, 0⟩
def PS_DIEFLAG_DERATE_IN (d : Nat) : Fld := ⟨0x50000014 + 0x10000 * d, 0, 1, 0⟩
def PS_CH_CMD_MASK (d : Nat) : Fld := ⟨0x50000020 + 0x10000 * d, 16, 12, 0⟩
def PS_CH_CMD_REQ (d : Nat) : Fld := ⟨0x50000020 + 0x10000 * d, 0, 12, 0⟩
def PS_CH_REQ (d : Nat) : Fld := ⟨0x50000024 + 0x10000 * d, 0, 12, 0⟩
def PS_CH_CLEAR (d : Nat) : Fld := ⟨0x50000028 + 0x10000 * d, 0, 12, 0⟩
def PS_BR_CMD_MASK (d : Nat) : Fld := ⟨0x5000002c + 0x10000 * d, 8, 2, 0⟩
def PS_BR_CMD_DIR1 (d : Nat) : Fld := ⟨0x5000002c + 0x10000 * d, 2, 2, 0⟩
def PS_BR_CMD_DIR0 (d : Nat) : Fld := ⟨0x5000002c + 0x10000 * d, 0, 2, 0⟩
def PS_BR_DIR_DIR1 (d : Nat) : Fld := ⟨0x50000030 + 0x10000 * d, 2, 2, 0⟩
def PS_BR_DIR_DIR0 (d : Nat) : Fld := ⟨0x50000030 + 0x10000 * d, 0, 2, 0⟩
def PS_CH_LIM (d : Nat) : Fld := ⟨0x50000034 + 0x10000 * d, 0, 24, 0⟩
def PS_INFO_CLR_DIE (d : Nat) : Fld := ⟨0x50000038 + 0x10000 * d, 16, 1, 0⟩
def PS_INFO_CLR_CNT (d : Nat) : Fld := ⟨0x50000038 + 0x10000 * d, 13, 1, 0⟩
def PS_INFO_CLR_CH (d : Nat) : Fld := ⟨0x50000038 + 0x10000 * d, 0, 12, 0⟩
def PS_DIAG_LATCH (d : Nat) : Fld := ⟨0x5000003c + 0x10000 * d, 0, 1, 0⟩
def PS_LATCHED (d : Nat) : Fld := ⟨0x50000040 + 0x10000 * d, 0, 12, 0⟩
def PS_CH_PROT0_OLOFF_EN (d k : Nat) : Fld := ⟨0x50000100 + 0x10000 * d + 0x20 * k, 24, 1, 0⟩
def PS_CH_PROT0_RETRY_OFF (d k : Nat) : Fld := ⟨0x50000100 + 0x10000 * d + 0x20 * k, 16, 8, 0xa⟩
def PS_CH_PROT0_RETRY_MAX (d k : Nat) : Fld := ⟨0x50000100 + 0x10000 * d + 0x20 * k, 8, 3, 3⟩
def PS_CH_PROT0_INRUSH_MS (d k : Nat) : Fld := ⟨0x50000100 + 0x10000 * d + 0x20 * k, 0, 8, 0x14⟩
def PS_CH_PROT1_WIRE_TAU (d k : Nat) : Fld := ⟨0x50000104 + 0x10000 * d + 0x20 * k, 16, 10, classPick k 0x82 0x32 0x14⟩
def PS_CH_PROT1_WIRE_CS (d k : Nat) : Fld := ⟨0x50000104 + 0x10000 * d + 0x20 * k, 0, 4, classPick k 8 5 2⟩
def PS_CH_PROT2_WIRE_MAX (d k : Nat) : Fld := ⟨0x50000108 + 0x10000 * d + 0x20 * k, 8, 8, 0x69⟩
def PS_CH_PROT2_WIRE_AMB (d k : Nat) : Fld := ⟨0x50000108 + 0x10000 * d + 0x20 * k, 0, 8, 0x41⟩
def PS_CH_DTINIT (d k : Nat) : Fld := ⟨0x5000010c + 0x10000 * d + 0x20 * k, 0, 8, 0⟩
def PS_CH_ROUTE_FALLBACK (d k : Nat) : Fld := ⟨0x50000110 + 0x10000 * d + 0x20 * k, 16, 2, 0⟩
def PS_CH_ROUTE_TLOSS (d k : Nat) : Fld := ⟨0x50000110 + 0x10000 * d + 0x20 * k, 12, 1, 0⟩
def PS_CH_ROUTE_DIRECT_REQ (d k : Nat) : Fld := ⟨0x50000110 + 0x10000 * d + 0x20 * k, 9, 1, 0⟩
def PS_CH_ROUTE_INV (d k : Nat) : Fld := ⟨0x50000110 + 0x10000 * d + 0x20 * k, 8, 1, 0⟩
def PS_CH_ROUTE_SRC (d k : Nat) : Fld := ⟨0x50000110 + 0x10000 * d + 0x20 * k, 0, 6, 0x31⟩
def PS_CH_COMMIT_APPLIED (d k : Nat) : Fld := ⟨0x50000114 + 0x10000 * d + 0x20 * k, 8, 8, 0⟩
def PS_CH_COMMIT_DIRTY (d k : Nat) : Fld := ⟨0x50000114 + 0x10000 * d + 0x20 * k, 0, 8, 0⟩
def PS_BR_SET (d p : Nat) : Fld := ⟨0x50000300 + 0x10000 * d + 8 * p, 0, 1, 0⟩
def PS_BR_COMMIT_APPLIED (d p : Nat) : Fld := ⟨0x50000304 + 0x10000 * d + 8 * p, 8, 8, 0⟩
def PS_BR_COMMIT_DIRTY (d p : Nat) : Fld := ⟨0x50000304 + 0x10000 * d + 8 * p, 0, 8, 0⟩
def PS_LATCH_DIAG (d k : Nat) : Fld := ⟨0x50000800 + 0x10000 * d + 8 * k, 0, 32, 0⟩
def PS_LATCH_STAT (d k : Nat) : Fld := ⟨0x50000804 + 0x10000 * d + 8 * k, 0, 32, 0⟩
def PS_LATCH_DIE0 (d : Nat) : Fld := ⟨0x50000860 + 0x10000 * d, 0, 32, 0⟩
def PS_LATCH_DIE1_FB_APPLIED (d : Nat) : Fld := ⟨0x50000864 + 0x10000 * d, 18, 1, 0⟩
def PS_LATCH_DIE1_STATE (d : Nat) : Fld := ⟨0x50000864 + 0x10000 * d, 16, 2, 0⟩
def PS_LATCH_DIE1_ISUM (d : Nat) : Fld := ⟨0x50000864 + 0x10000 * d, 0, 16, 0⟩

-- Table 9.11
def PS_CH_STAT_EV_SHORT (d k : Nat) : Fld := ⟨0x50000400 + 0x10000 * d + 0x10 * k, 31, 1, 0⟩
def PS_CH_STAT_EV_OPEN_OFF (d k : Nat) : Fld := ⟨0x50000400 + 0x10000 * d + 0x10 * k, 30, 1, 0⟩
def PS_CH_STAT_EV_OPEN_ON (d k : Nat) : Fld := ⟨0x50000400 + 0x10000 * d + 0x10 * k, 29, 1, 0⟩
def PS_CH_STAT_EV_STATE (d k : Nat) : Fld := ⟨0x50000400 + 0x10000 * d + 0x10 * k, 28, 1, 0⟩
def PS_CH_STAT_LIMCLS (d k : Nat) : Fld := ⟨0x50000400 + 0x10000 * d + 0x10 * k, 26, 2, 0⟩
def PS_CH_STAT_REQ (d k : Nat) : Fld := ⟨0x50000400 + 0x10000 * d + 0x10 * k, 25, 1, 0⟩
def PS_CH_STAT_LINE (d k : Nat) : Fld := ⟨0x50000400 + 0x10000 * d + 0x10 * k, 24, 1, 0⟩
def PS_CH_STAT_SHORT_BAT (d k : Nat) : Fld := ⟨0x50000400 + 0x10000 * d + 0x10 * k, 23, 1, 0⟩
def PS_CH_STAT_OPEN_OFF (d k : Nat) : Fld := ⟨0x50000400 + 0x10000 * d + 0x10 * k, 22, 1, 0⟩
def PS_CH_STAT_OPEN_ON (d k : Nat) : Fld := ⟨0x50000400 + 0x10000 * d + 0x10 * k, 21, 1, 0⟩
def PS_CH_STAT_LIMITING (d k : Nat) : Fld := ⟨0x50000400 + 0x10000 * d + 0x10 * k, 20, 1, 0⟩
def PS_CH_STAT_RETRIES (d k : Nat) : Fld := ⟨0x50000400 + 0x10000 * d + 0x10 * k, 16, 3, 0⟩
def PS_CH_STAT_CAUSE (d k : Nat) : Fld := ⟨0x50000400 + 0x10000 * d + 0x10 * k, 4, 4, 9⟩
def PS_CH_STAT_STATE (d k : Nat) : Fld := ⟨0x50000400 + 0x10000 * d + 0x10 * k, 0, 4, 0⟩
def PS_CH_DIAG_TW (d k : Nat) : Fld := ⟨0x50000404 + 0x10000 * d + 0x10 * k, 24, 8, 0x73⟩
def PS_CH_DIAG_TJ (d k : Nat) : Fld := ⟨0x50000404 + 0x10000 * d + 0x10 * k, 16, 8, 0⟩
def PS_CH_DIAG_I (d k : Nat) : Fld := ⟨0x50000404 + 0x10000 * d + 0x10 * k, 0, 16, 0⟩
def PS_CH_FCNT0_DEFER (d k : Nat) : Fld := ⟨0x50000408 + 0x10000 * d + 0x10 * k, 24, 8, 0⟩
def PS_CH_FCNT0_UV (d k : Nat) : Fld := ⟨0x50000408 + 0x10000 * d + 0x10 * k, 16, 8, 0⟩
def PS_CH_FCNT0_LIMTIME (d k : Nat) : Fld := ⟨0x50000408 + 0x10000 * d + 0x10 * k, 8, 8, 0⟩
def PS_CH_FCNT0_JTRIP (d k : Nat) : Fld := ⟨0x50000408 + 0x10000 * d + 0x10 * k, 0, 8, 0⟩
def PS_CH_FCNT1_SHORT_BAT (d k : Nat) : Fld := ⟨0x5000040c + 0x10000 * d + 0x10 * k, 24, 8, 0⟩
def PS_CH_FCNT1_OPEN (d k : Nat) : Fld := ⟨0x5000040c + 0x10000 * d + 0x10 * k, 16, 8, 0⟩
def PS_CH_FCNT1_SHED (d k : Nat) : Fld := ⟨0x5000040c + 0x10000 * d + 0x10 * k, 8, 8, 0⟩
def PS_CH_FCNT1_WIRE (d k : Nat) : Fld := ⟨0x5000040c + 0x10000 * d + 0x10 * k, 0, 8, 0⟩

-- Table 9.12
def LCC_CTL_LT_RUN : Fld := ⟨0x40050000, 8, 1, 0⟩
def LCC_CTL_DIES : Fld := ⟨0x40050000, 0, 4, 0xf⟩
def LCC_STAT_LT_VALID : Fld := ⟨0x40050004, 8, 1, 0⟩
def LCC_STAT_DIE_OK : Fld := ⟨0x40050004, 4, 4, 0⟩
def LCC_STAT_BUSY : Fld := ⟨0x40050004, 0, 1, 0⟩
def LCC_DIAG_CFG_EN : Fld := ⟨0x40050008, 31, 1, 0⟩
def LCC_DIAG_CFG_TCU : Fld := ⟨0x40050008, 20, 4, 0⟩
def LCC_DIAG_CFG_TRIG : Fld := ⟨0x40050008, 19, 1, 0⟩
def LCC_DIAG_CFG_LOG2 : Fld := ⟨0x40050008, 8, 4, 4⟩
def LCC_DIAG_CFG_PER : Fld := ⟨0x40050008, 0, 8, 8⟩
def LCC_DIAG_BASE_LO : Fld := ⟨0x4005000c, 9, 23, 0⟩
def LCC_DIAG_BASE_HI : Fld := ⟨0x40050010, 0, 8, 0⟩
def LCC_DIAG_WI : Fld := ⟨0x40050014, 0, 16, 0⟩
def LCC_DIAG_MISS : Fld := ⟨0x40050018, 0, 32, 0⟩
def LCC_LOAD_MAX : Fld := ⟨0x4005001c, 16, 16, 0⟩
def LCC_LOAD_MEAN : Fld := ⟨0x4005001c, 0, 16, 0⟩
def LCC_ERR_INFO_VALID : Fld := ⟨0x40050020, 31, 1, 0⟩
def LCC_ERR_INFO_NUM : Fld := ⟨0x40050020, 16, 8, 0⟩
def LCC_ERR_INFO_CAUSE : Fld := ⟨0x40050020, 8, 4, 0⟩
def LCC_ERR_INFO_DIE : Fld := ⟨0x40050020, 0, 3, 0⟩
def LCC_ERR_ADDR_LO : Fld := ⟨0x40050024, 0, 32, 0⟩
def LCC_ERR_ADDR_HI : Fld := ⟨0x40050028, 0, 8, 0⟩
def LCC_ERR_CTL_REARM : Fld := ⟨0x4005002c, 8, 1, 0⟩
def LCC_ERR_CTL_NUM : Fld := ⟨0x4005002c, 0, 8, 0⟩
def LCC_ERR_CNT : Fld := ⟨0x40050030, 0, 32, 0⟩
def LCC_SQ_DB : Fld := ⟨0x40050040, 0, 32, 0⟩
def LCC_CQ_DB : Fld := ⟨0x40050044, 0, 32, 0⟩
def LCC_LT_CFG_EN (n : Nat) : Fld := ⟨0x40050400 + 0x10 * n, 31, 1, 0⟩
def LCC_LT_CFG_PRESC (n : Nat) : Fld := ⟨0x40050400 + 0x10 * n, 8, 2, 0⟩
def LCC_LT_CFG_RS_EN (n : Nat) : Fld := ⟨0x40050400 + 0x10 * n, 4, 1, 0⟩
def LCC_LT_CFG_TCU (n : Nat) : Fld := ⟨0x40050400 + 0x10 * n, 0, 4, 0⟩
def LCC_LT_TIME_HIGH (n : Nat) : Fld := ⟨0x40050404 + 0x10 * n, 16, 16, 0⟩
def LCC_LT_TIME_PERIOD (n : Nat) : Fld := ⟨0x40050404 + 0x10 * n, 0, 16, 0⟩
def LCC_LT_PHASE (n : Nat) : Fld := ⟨0x40050408 + 0x10 * n, 0, 16, 0⟩

-- Table 10.7
def ETH_CTL_AGE : Fld := ⟨0x40060000, 8, 8, 0x1e⟩
def ETH_CTL_SW_EN : Fld := ⟨0x40060000, 0, 1, 0⟩
def ETH_STAT : Fld := ⟨0x40060004, 0, 8, 0⟩
def ETH_TBL_CMD_INDEX : Fld := ⟨0x40060008, 8, 16, 0⟩
def ETH_TBL_CMD_OP : Fld := ⟨0x40060008, 4, 2, 0⟩
def ETH_TBL_CMD_TABLE : Fld := ⟨0x40060008, 0, 4, 0⟩
def ETH_TBL_STAT_BUSY : Fld := ⟨0x4006000c, 31, 1, 0⟩
def ETH_TBL_STAT_INDEX : Fld := ⟨0x4006000c, 4, 16, 0⟩
def ETH_TBL_STAT_RESULT : Fld := ⟨0x4006000c, 0, 4, 0⟩
def ETH_TBL_DATA (i : Nat) : Fld := ⟨0x40060010 + 4 * i, 0, 32, 0⟩
def ETH_ERR_INFO_VALID : Fld := ⟨0x40060030, 31, 1, 0⟩
def ETH_ERR_INFO_CAUSE : Fld := ⟨0x40060030, 8, 4, 0⟩
def ETH_ERR_INFO_PORT : Fld := ⟨0x40060030, 0, 4, 0⟩
def ETH_ERR_ADDR_LO : Fld := ⟨0x40060034, 0, 32, 0⟩
def ETH_ERR_ADDR_HI : Fld := ⟨0x40060038, 0, 8, 0⟩
def ETH_ERR_CTL : Fld := ⟨0x4006003c, 0, 1, 0⟩
def ETH_SQ_DB (r : Nat) : Fld := ⟨0x40060040 + 8 * r, 0, 32, 0⟩
def ETH_CQ_DB (r : Nat) : Fld := ⟨0x40060044 + 8 * r, 0, 32, 0⟩
def ETH_VF_MAC_LO (v i : Nat) : Fld := ⟨0x40063000 + 0x40 * v + 8 * i, 0, 32, 0⟩
def ETH_VF_MAC_HI_EN (v i : Nat) : Fld := ⟨0x40063004 + 0x40 * v + 8 * i, 31, 1, 0⟩
def ETH_VF_MAC_HI_MAC (v i : Nat) : Fld := ⟨0x40063004 + 0x40 * v + 8 * i, 0, 16, 0⟩
def ETH_VF_CFG_VID (v : Nat) : Fld := ⟨0x40063020 + 0x40 * v, 16, 12, 0⟩
def ETH_VF_CFG_MCAST_ALL (v : Nat) : Fld := ⟨0x40063020 + 0x40 * v, 1, 1, 0⟩
def ETH_VF_CFG_BCAST (v : Nat) : Fld := ⟨0x40063020 + 0x40 * v, 0, 1, 1⟩

-- Table 10.8
def PORT_CFG_DEF_PCP (p : Nat) : Fld := ⟨0x40061000 + 0x100 * p, 29, 3, 0⟩
def PORT_CFG_PVID (p : Nat) : Fld := ⟨0x40061000 + 0x100 * p, 16, 12, 1⟩
def PORT_CFG_ACCEPT (p : Nat) : Fld := ⟨0x40061000 + 0x100 * p, 12, 2, 0⟩
def PORT_CFG_PSFP_EN (p : Nat) : Fld := ⟨0x40061000 + 0x100 * p, 7, 1, 0⟩
def PORT_CFG_FRER_EN (p : Nat) : Fld := ⟨0x40061000 + 0x100 * p, 6, 1, 0⟩
def PORT_CFG_QBV_EN (p : Nat) : Fld := ⟨0x40061000 + 0x100 * p, 5, 1, 0⟩
def PORT_CFG_LEARN (p : Nat) : Fld := ⟨0x40061000 + 0x100 * p, 4, 1, 0⟩
def PORT_CFG_MS (p : Nat) : Fld := ⟨0x40061000 + 0x100 * p, 1, 1, 0⟩
def PORT_CFG_EN (p : Nat) : Fld := ⟨0x40061000 + 0x100 * p, 0, 1, 0⟩
def PORT_STAT_QBV_PEND (p : Nat) : Fld := ⟨0x40061004 + 0x100 * p, 17, 1, 0⟩
def PORT_STAT_QBV_BANK (p : Nat) : Fld := ⟨0x40061004 + 0x100 * p, 16, 1, 0⟩
def PORT_STAT_SQI (p : Nat) : Fld := ⟨0x40061004 + 0x100 * p, 8, 3, 0⟩
def PORT_STAT_PLCA_ACT (p : Nat) : Fld := ⟨0x40061004 + 0x100 * p, 1, 1, 0⟩
def PORT_STAT_LINK (p : Nat) : Fld := ⟨0x40061004 + 0x100 * p, 0, 1, 0⟩
def PORT_PLCA_CFG_TO_TIMER (p : Nat) : Fld := ⟨0x40061008 + 0x100 * p, 24, 8, 0x20⟩
def PORT_PLCA_CFG_NODE_CNT (p : Nat) : Fld := ⟨0x40061008 + 0x100 * p, 16, 4, 8⟩
def PORT_PLCA_CFG_NODE_ID (p : Nat) : Fld := ⟨0x40061008 + 0x100 * p, 8, 4, 0⟩
def PORT_PLCA_CFG_PLCA_EN (p : Nat) : Fld := ⟨0x40061008 + 0x100 * p, 0, 1, 1⟩
def PORT_QBV_CTL_DEF_GATES (p : Nat) : Fld := ⟨0x4006100c + 0x100 * p, 24, 8, 0xff⟩
def PORT_QBV_CTL_LEN (p : Nat) : Fld := ⟨0x4006100c + 0x100 * p, 8, 8, 0⟩
def PORT_QBV_CTL_APPLY (p : Nat) : Fld := ⟨0x4006100c + 0x100 * p, 0, 1, 0⟩
def PORT_QBV_BASE_LO (p : Nat) : Fld := ⟨0x40061010 + 0x100 * p, 0, 32, 0⟩
def PORT_QBV_BASE_HI (p : Nat) : Fld := ⟨0x40061014 + 0x100 * p, 0, 32, 0⟩
def PORT_QBV_CYCLE (p : Nat) : Fld := ⟨0x40061018 + 0x100 * p, 0, 30, 0⟩
def PORT_QBV_EXT (p : Nat) : Fld := ⟨0x4006101c + 0x100 * p, 0, 24, 0⟩
def PORT_SEC_CFG_REPLAY_WIN (p : Nat) : Fld := ⟨0x40061020 + 0x100 * p, 16, 16, 0⟩
def PORT_SEC_CFG_TX_SA (p : Nat) : Fld := ⟨0x40061020 + 0x100 * p, 5, 1, 0⟩
def PORT_SEC_CFG_REPLAY (p : Nat) : Fld := ⟨0x40061020 + 0x100 * p, 4, 1, 1⟩
def PORT_SEC_CFG_CIPHER (p : Nat) : Fld := ⟨0x40061020 + 0x100 * p, 2, 2, 0⟩
def PORT_SEC_CFG_CONF (p : Nat) : Fld := ⟨0x40061020 + 0x100 * p, 1, 1, 1⟩
def PORT_SEC_CFG_EN (p : Nat) : Fld := ⟨0x40061020 + 0x100 * p, 0, 1, 0⟩
def PORT_SEC_STAT_PN_EXH (p : Nat) : Fld := ⟨0x40061024 + 0x100 * p, 11, 1, 0⟩
def PORT_SEC_STAT_PN_THR (p : Nat) : Fld := ⟨0x40061024 + 0x100 * p, 10, 1, 0⟩
def PORT_SEC_STAT_RXKEY (p : Nat) : Fld := ⟨0x40061024 + 0x100 * p, 2, 8, 0⟩
def PORT_SEC_STAT_TXKEY (p : Nat) : Fld := ⟨0x40061024 + 0x100 * p, 0, 2, 0⟩
def PORT_SEC_TXSCI_LO (p : Nat) : Fld := ⟨0x40061028 + 0x100 * p, 0, 32, 0⟩
def PORT_SEC_TXSCI_HI (p : Nat) : Fld := ⟨0x4006102c + 0x100 * p, 0, 32, 0⟩
def PORT_SEC_RXSCI_LO (p c : Nat) : Fld := ⟨0x40061030 + 0x100 * p + 8 * c, 0, 32, 0⟩
def PORT_SEC_RXSCI_HI (p c : Nat) : Fld := ⟨0x40061034 + 0x100 * p + 8 * c, 0, 32, 0⟩
def PORT_SEC_TXPN_LO (p s : Nat) : Fld := ⟨0x40061050 + 0x100 * p + 8 * s, 0, 32, 0⟩
def PORT_SEC_TXPN_HI (p s : Nat) : Fld := ⟨0x40061054 + 0x100 * p + 8 * s, 0, 32, 0⟩
def PORT_SEC_RXPN_LO (p i : Nat) : Fld := ⟨0x40061060 + 0x100 * p + 8 * i, 0, 32, 0⟩
def PORT_SEC_RXPN_HI (p i : Nat) : Fld := ⟨0x40061064 + 0x100 * p + 8 * i, 0, 32, 0⟩
def PORT_RX_FRAMES_LO (p : Nat) : Fld := ⟨0x400610a0 + 0x100 * p, 0, 32, 0⟩
def PORT_RX_FRAMES_HI (p : Nat) : Fld := ⟨0x400610a4 + 0x100 * p, 0, 32, 0⟩
def PORT_TX_FRAMES_LO (p : Nat) : Fld := ⟨0x400610a8 + 0x100 * p, 0, 32, 0⟩
def PORT_TX_FRAMES_HI (p : Nat) : Fld := ⟨0x400610ac + 0x100 * p, 0, 32, 0⟩
def PORT_RX_DROP (p : Nat) : Fld := ⟨0x400610b0 + 0x100 * p, 0, 32, 0⟩
def PORT_TX_DROP (p : Nat) : Fld := ⟨0x400610b4 + 0x100 * p, 0, 32, 0⟩
def PORT_SEC_BAD (p : Nat) : Fld := ⟨0x400610b8 + 0x100 * p, 0, 32, 0⟩
def PORT_TX_ABORT (p : Nat) : Fld := ⟨0x400610bc + 0x100 * p, 0, 32, 0⟩
def PORT_QBV_WAIT (p : Nat) : Fld := ⟨0x400610c0 + 0x100 * p, 0, 32, 0⟩
def PORT_CNT_CTL (p : Nat) : Fld := ⟨0x400610c4 + 0x100 * p, 0, 1, 0⟩

-- Table 10.10
def TIME_NOW_LO : Fld := ⟨0x40070000, 0, 32, 0⟩
def TIME_NOW_HI : Fld := ⟨0x40070004, 0, 32, 0⟩
def TIME_NOW_EP : Fld := ⟨0x40070008, 0, 16, 0⟩
def TIME_CTL_SYNC_TO : Fld := ⟨0x40070010, 8, 8, 0xf⟩
def TIME_CTL_SLAVE_PORT : Fld := ⟨0x40070010, 4, 4, 0xf⟩
def TIME_CTL_STEP_EN : Fld := ⟨0x40070010, 2, 1, 1⟩
def TIME_CTL_SERVO_EN : Fld := ⟨0x40070010, 1, 1, 0⟩
def TIME_CTL_GM : Fld := ⟨0x40070010, 0, 1, 0⟩
def TIME_SET_LO : Fld := ⟨0x40070014, 0, 32, 0⟩
def TIME_SET_HI : Fld := ⟨0x40070018, 0, 32, 0⟩
def TIME_CMD_CLR_CNT : Fld := ⟨0x4007001c, 3, 1, 0⟩
def TIME_CMD_CLR_INT : Fld := ⟨0x4007001c, 2, 1, 0⟩
def TIME_CMD_ADJ : Fld := ⟨0x4007001c, 1, 1, 0⟩
def TIME_CMD_SET : Fld := ⟨0x4007001c, 0, 1, 0⟩
def TIME_ADJ : Fld := ⟨0x40070020, 0, 32, 0⟩
def TIME_FREQ : Fld := ⟨0x40070024, 0, 30, 0⟩
def TIME_GAIN_KI : Fld := ⟨0x40070028, 16, 16, 0xfa⟩
def TIME_GAIN_KP : Fld := ⟨0x40070028, 0, 16, 0xfa0⟩
def TIME_STEP_THR : Fld := ⟨0x4007002c, 0, 32, 0x2710⟩
def TIME_LINKDELAY : Fld := ⟨0x40070030, 0, 32, 0⟩
def TIME_OFFSET : Fld := ⟨0x40070034, 0, 32, 0⟩
def TIME_STAT_EPOCH : Fld := ⟨0x40070038, 16, 16, 0⟩
def TIME_STAT_CLAMP : Fld := ⟨0x40070038, 3, 1, 0⟩
def TIME_STAT_STATE : Fld := ⟨0x40070038, 0, 3, 0⟩
def TIME_LOCK_LOCK_N : Fld := ⟨0x4007003c, 8, 8, 0x10⟩
def TIME_LOCK_LOCK_THR : Fld := ⟨0x4007003c, 0, 8, 0x32⟩
def TIME_SYNC_CNT_REJECT : Fld := ⟨0x40070040, 16, 16, 0⟩
def TIME_SYNC_CNT_USED : Fld := ⟨0x40070040, 0, 16, 0⟩
def TIME_EPOCH_INIT : Fld := ⟨0x40070044, 0, 16, 0⟩
def TIME_STEP_OLD_LO : Fld := ⟨0x40070048, 0, 32, 0⟩
def TIME_STEP_OLD_HI : Fld := ⟨0x4007004c, 0, 32, 0⟩
def TIME_STEP_NEW_LO : Fld := ⟨0x40070050, 0, 32, 0⟩
def TIME_STEP_NEW_HI : Fld := ⟨0x40070054, 0, 32, 0⟩
def TIME_TCU_CMP_LO (u : Nat) : Fld := ⟨0x40070100 + 0x20 * u, 0, 32, 0⟩
def TIME_TCU_CMP_HI (u : Nat) : Fld := ⟨0x40070104 + 0x20 * u, 0, 32, 0⟩
def TIME_TCU_PER (u : Nat) : Fld := ⟨0x40070108 + 0x20 * u, 0, 30, 0⟩
def TIME_TCU_CFG_LATE (u : Nat) : Fld := ⟨0x4007010c + 0x20 * u, 3, 1, 0⟩
def TIME_TCU_CFG_EVT_EN (u : Nat) : Fld := ⟨0x4007010c + 0x20 * u, 2, 1, 0⟩
def TIME_TCU_CFG_STEP_POL (u : Nat) : Fld := ⟨0x4007010c + 0x20 * u, 1, 1, 0⟩
def TIME_TCU_CFG_EN (u : Nat) : Fld := ⟨0x4007010c + 0x20 * u, 0, 1, 0⟩
def TIME_TCU_MISS (u : Nat) : Fld := ⟨0x40070110 + 0x20 * u, 0, 16, 0⟩

-- Table 11.7
def CAN_CTL_RECOVER (c : Nat) : Fld := ⟨0x40080000 + 0x1000 * c, 16, 1, 0⟩
def CAN_CTL_TDC_EN (c : Nat) : Fld := ⟨0x40080000 + 0x1000 * c, 9, 1, 0⟩
def CAN_CTL_TRIPLE (c : Nat) : Fld := ⟨0x40080000 + 0x1000 * c, 8, 1, 0⟩
def CAN_CTL_MODE (c : Nat) : Fld := ⟨0x40080000 + 0x1000 * c, 4, 2, 0⟩
def CAN_CTL_FD_EN (c : Nat) : Fld := ⟨0x40080000 + 0x1000 * c, 1, 1, 1⟩
def CAN_CTL_EN (c : Nat) : Fld := ⟨0x40080000 + 0x1000 * c, 0, 1, 0⟩
def CAN_NBT_SJW (c : Nat) : Fld := ⟨0x40080004 + 0x1000 * c, 25, 7, 0x1f⟩
def CAN_NBT_TSEG1 (c : Nat) : Fld := ⟨0x40080004 + 0x1000 * c, 17, 8, 0x7e⟩
def CAN_NBT_TSEG2 (c : Nat) : Fld := ⟨0x40080004 + 0x1000 * c, 10, 7, 0x1f⟩
def CAN_NBT_BRP (c : Nat) : Fld := ⟨0x40080004 + 0x1000 * c, 0, 8, 0⟩
def CAN_DBT_SJW (c : Nat) : Fld := ⟨0x40080008 + 0x1000 * c, 28, 4, 9⟩
def CAN_DBT_TSEG1 (c : Nat) : Fld := ⟨0x40080008 + 0x1000 * c, 23, 5, 0x1c⟩
def CAN_DBT_TSEG2 (c : Nat) : Fld := ⟨0x40080008 + 0x1000 * c, 19, 4, 9⟩
def CAN_DBT_BRP (c : Nat) : Fld := ⟨0x40080008 + 0x1000 * c, 0, 5, 0⟩
def CAN_TDC_TDCV (c : Nat) : Fld := ⟨0x4008000c + 0x1000 * c, 24, 7, 0⟩
def CAN_TDC_TDCO (c : Nat) : Fld := ⟨0x4008000c + 0x1000 * c, 0, 7, 0x1e⟩
def CAN_STAT_TEC (c : Nat) : Fld := ⟨0x40080010 + 0x1000 * c, 24, 8, 0⟩
def CAN_STAT_RP (c : Nat) : Fld := ⟨0x40080010 + 0x1000 * c, 23, 1, 0⟩
def CAN_STAT_REC (c : Nat) : Fld := ⟨0x40080010 + 0x1000 * c, 16, 7, 0⟩
def CAN_STAT_CFG_ERR (c : Nat) : Fld := ⟨0x40080010 + 0x1000 * c, 12, 1, 0⟩
def CAN_STAT_TDC_FAIL (c : Nat) : Fld := ⟨0x40080010 + 0x1000 * c, 11, 1, 0⟩
def CAN_STAT_RECOVERING (c : Nat) : Fld := ⟨0x40080010 + 0x1000 * c, 10, 1, 0⟩
def CAN_STAT_STATE (c : Nat) : Fld := ⟨0x40080010 + 0x1000 * c, 8, 2, 3⟩
def CAN_ERR_CAP_VALID (c : Nat) : Fld := ⟨0x40080014 + 0x1000 * c, 31, 1, 0⟩
def CAN_ERR_CAP_TYPE (c : Nat) : Fld := ⟨0x40080014 + 0x1000 * c, 8, 3, 0⟩
def CAN_ERR_CAP_PHASE (c : Nat) : Fld := ⟨0x40080014 + 0x1000 * c, 7, 1, 0⟩
def CAN_ERR_CAP_TX (c : Nat) : Fld := ⟨0x40080014 + 0x1000 * c, 6, 1, 0⟩
def CAN_CMD_CLR_CNT (c : Nat) : Fld := ⟨0x40080018 + 0x1000 * c, 1, 1, 0⟩
def CAN_CMD_REARM (c : Nat) : Fld := ⟨0x40080018 + 0x1000 * c, 0, 1, 0⟩
def CAN_TX_CNT (c : Nat) : Fld := ⟨0x40080020 + 0x1000 * c, 0, 32, 0⟩
def CAN_RX_CNT (c : Nat) : Fld := ⟨0x40080024 + 0x1000 * c, 0, 32, 0⟩
def CAN_ERR_CNT (c : Nat) : Fld := ⟨0x40080028 + 0x1000 * c, 0, 32, 0⟩
def CAN_ARB_CNT (c : Nat) : Fld := ⟨0x4008002c + 0x1000 * c, 0, 32, 0⟩
def CAN_LOST_CNT (c : Nat) : Fld := ⟨0x40080030 + 0x1000 * c, 0, 32, 0⟩
def CAN_TS (c : Nat) : Fld := ⟨0x40080040 + 0x1000 * c, 0, 32, 0⟩
def CAN_TSY_CNT (c k : Nat) : Fld := ⟨0x40080050 + 0x1000 * c + 0x10 * k, 0, 32, 0⟩
def CAN_TSY_TLO (c k : Nat) : Fld := ⟨0x40080054 + 0x1000 * c + 0x10 * k, 0, 32, 0⟩
def CAN_TSY_THI (c k : Nat) : Fld := ⟨0x40080058 + 0x1000 * c + 0x10 * k, 0, 32, 0⟩
def CAN_TSY_INFO_EPOCH (c k : Nat) : Fld := ⟨0x4008005c + 0x1000 * c + 0x10 * k, 16, 16, 0⟩
def CAN_TSY_INFO_STEP (c k : Nat) : Fld := ⟨0x4008005c + 0x1000 * c + 0x10 * k, 15, 1, 0⟩
def CAN_TSY_INFO_SEQ (c k : Nat) : Fld := ⟨0x4008005c + 0x1000 * c + 0x10 * k, 0, 8, 0⟩
def CAN_SLOT_LO (c : Nat) : Fld := ⟨0x40080080 + 0x1000 * c, 0, 32, 0⟩
def CAN_SLOT_HI (c : Nat) : Fld := ⟨0x40080084 + 0x1000 * c, 0, 32, 0⟩

-- Table 11.11
def CGW_CTL_P9_EN : Fld := ⟨0x40090000, 2, 1, 0⟩
def CGW_CTL_ROUTE_EN : Fld := ⟨0x40090000, 1, 1, 0⟩
def CGW_CTL_EN : Fld := ⟨0x40090000, 0, 1, 0⟩
def CGW_DEFAULT : Fld := ⟨0x40090004, 0, 24, 0⟩
def CGW_STAT_KEYS : Fld := ⟨0x40090008, 16, 16, 0⟩
def CGW_STAT_ISO : Fld := ⟨0x40090008, 0, 12, 0⟩
def CGW_MAC_HI : Fld := ⟨0x4009000c, 0, 16, 0⟩
def CGW_MAC_LO : Fld := ⟨0x40090010, 0, 32, 0⟩
def CGW_TBL_CMD_INDEX : Fld := ⟨0x40090014, 8, 16, 0⟩
def CGW_TBL_CMD_OP : Fld := ⟨0x40090014, 4, 2, 0⟩
def CGW_TBL_CMD_TABLE : Fld := ⟨0x40090014, 0, 4, 0⟩
def CGW_TBL_STAT_BUSY : Fld := ⟨0x40090018, 31, 1, 0⟩
def CGW_TBL_STAT_RESULT : Fld := ⟨0x40090018, 0, 4, 0⟩
def CGW_TBL_DATA (i : Nat) : Fld := ⟨0x40090020 + 4 * i, 0, 32, 0⟩
def CGW_ERR_INFO_VALID : Fld := ⟨0x40090040, 31, 1, 0⟩
def CGW_ERR_INFO_CAUSE : Fld := ⟨0x40090040, 8, 4, 0⟩
def CGW_ERR_INFO_RING : Fld := ⟨0x40090040, 0, 4, 0⟩
def CGW_ERR_ADDR_LO : Fld := ⟨0x40090044, 0, 32, 0⟩
def CGW_ERR_ADDR_HI : Fld := ⟨0x40090048, 0, 8, 0⟩
def CGW_ERR_CTL_CLR_CNT : Fld := ⟨0x4009004c, 1, 1, 0⟩
def CGW_ERR_CTL_REARM : Fld := ⟨0x4009004c, 0, 1, 0⟩
def CGW_ROUTE_DROP : Fld := ⟨0x40090050, 0, 32, 0⟩
def CGW_ISO_DROP : Fld := ⟨0x40090054, 0, 32, 0⟩
def CGW_AUTH_FAIL : Fld := ⟨0x40090058, 0, 32, 0⟩
def CGW_ETH_SKIP : Fld := ⟨0x4009005c, 0, 32, 0⟩
def CGW_RX_LOST : Fld := ⟨0x40090060, 0, 32, 0⟩
def CGW_FIFO_BAD : Fld := ⟨0x40090064, 0, 32, 0⟩
def CGW_FIFOSRC_EN (j : Nat) : Fld := ⟨0x40090070 + 4 * j, 31, 1, 0⟩
def CGW_FIFOSRC_FIFO (j : Nat) : Fld := ⟨0x40090070 + 4 * j, 0, 4, 0⟩
def CGW_SQ_DB (r : Nat) : Fld := ⟨0x40090080 + 8 * r, 0, 32, 0⟩
def CGW_CQ_DB (r : Nat) : Fld := ⟨0x40090084 + 8 * r, 0, 32, 0⟩

-- Table 12.11
def NMW_CTL_LATE_WIN : Fld := ⟨0x400a0000, 16, 16, 0x3e8⟩
def NMW_CTL_EN : Fld := ⟨0x400a0000, 0, 1, 0⟩
def NMW_STAT_ALL_ASLEEP : Fld := ⟨0x400a0004, 31, 1, 0⟩
def NMW_STAT_ASLEEP : Fld := ⟨0x400a0004, 0, 20, 0⟩
def NMW_CLOSING : Fld := ⟨0x400a0008, 0, 20, 0⟩
def NMW_WAKE_REQ : Fld := ⟨0x400a000c, 0, 20, 0⟩
def NMW_OWN_LANT_INT : Fld := ⟨0x400a0010, 16, 10, 0xc8⟩
def NMW_OWN_OWN_REASON : Fld := ⟨0x400a0010, 8, 4, 0⟩
def NMW_OWN_OWN_SRC : Fld := ⟨0x400a0010, 0, 5, 0⟩
def NMW_LANT_ETYPE : Fld := ⟨0x400a0014, 0, 16, 0x88b5⟩
def NMW_LANT_DMAC_LO : Fld := ⟨0x400a0018, 0, 32, 0x72400001⟩
def NMW_LANT_DMAC_HI : Fld := ⟨0x400a001c, 0, 16, 0x351⟩
def NMW_LATE_LAST_SEG : Fld := ⟨0x400a0020, 24, 5, 0⟩
def NMW_LATE_LAST_MS : Fld := ⟨0x400a0020, 0, 16, 0⟩
def NMW_LATE_CNT : Fld := ⟨0x400a0024, 0, 32, 0⟩
def NMW_CURFEW_CNT : Fld := ⟨0x400a0028, 0, 32, 0⟩
def NMW_IGN_CNT : Fld := ⟨0x400a002c, 0, 32, 0⟩
def NMW_ERR_INFO_VALID : Fld := ⟨0x400a0030, 31, 1, 0⟩
def NMW_ERR_INFO_CAUSE : Fld := ⟨0x400a0030, 8, 4, 0⟩
def NMW_ERR_INFO_SEG : Fld := ⟨0x400a0030, 0, 5, 0⟩
def NMW_ERR_CTL_CLR_CNT : Fld := ⟨0x400a0034, 1, 1, 0⟩
def NMW_ERR_CTL_REARM : Fld := ⟨0x400a0034, 0, 1, 0⟩

-- Table 12.12
def SEG_CTL_MANAGED (s : Nat) : Fld := ⟨0x400a0100 + 0x40 * s, 31, 1, 0⟩
def SEG_CTL_HOLD (s : Nat) : Fld := ⟨0x400a0100 + 0x40 * s, 30, 1, 0⟩
def SEG_CTL_ROUTE_WAKE (s : Nat) : Fld := ⟨0x400a0100 + 0x40 * s, 29, 1, 0⟩
def SEG_CTL_LANT_AUTH (s : Nat) : Fld := ⟨0x400a0100 + 0x40 * s, 28, 1, 0⟩
def SEG_CTL_AIDX (s : Nat) : Fld := ⟨0x400a0100 + 0x40 * s, 20, 8, 0⟩
def SEG_CTL_WAKE_FAN (s : Nat) : Fld := ⟨0x400a0100 + 0x40 * s, 0, 20, 0⟩
def SEG_TIME_CLOSE_T (s : Nat) : Fld := ⟨0x400a0104 + 0x40 * s, 16, 16, 0x7d0⟩
def SEG_TIME_CLOSE_WAIT (s : Nat) : Fld := ⟨0x400a0104 + 0x40 * s, 0, 16, 0x1f4⟩
def SEG_CURFEW_CURFEW_EXT (s : Nat) : Fld := ⟨0x400a0108 + 0x40 * s, 16, 11, 0xf0⟩
def SEG_CURFEW_CURFEW (s : Nat) : Fld := ⟨0x400a0108 + 0x40 * s, 0, 11, 0x1e⟩
def SEG_REASON (s : Nat) : Fld := ⟨0x400a010c + 0x40 * s, 0, 16, 0⟩
def SEG_EXEMPT (s : Nat) : Fld := ⟨0x400a0110 + 0x40 * s, 0, 32, 0⟩
def SEG_LANT_ID_IDE (s : Nat) : Fld := ⟨0x400a0114 + 0x40 * s, 31, 1, 0⟩
def SEG_LANT_ID_ID (s : Nat) : Fld := ⟨0x400a0114 + 0x40 * s, 0, 29, 0⟩
def SEG_LANT_MASK (s : Nat) : Fld := ⟨0x400a0118 + 0x40 * s, 0, 29, 0x1fffffff⟩
def SEG_STAT_LATE (s : Nat) : Fld := ⟨0x400a011c + 0x40 * s, 8, 8, 0⟩
def SEG_STAT_ISO (s : Nat) : Fld := ⟨0x400a011c + 0x40 * s, 3, 1, 0⟩
def SEG_STAT_STATE (s : Nat) : Fld := ⟨0x400a011c + 0x40 * s, 0, 3, 0⟩
def SEG_NEED (s : Nat) : Fld := ⟨0x400a0120 + 0x40 * s, 0, 32, 0⟩
def SEG_CURFEWED (s : Nat) : Fld := ⟨0x400a0124 + 0x40 * s, 0, 32, 0⟩
def SEG_CURFEW_SET (s : Nat) : Fld := ⟨0x400a0128 + 0x40 * s, 0, 32, 0⟩
def SEG_LAST_RELEASE (s : Nat) : Fld := ⟨0x400a012c + 0x40 * s, 13, 1, 0⟩
def SEG_LAST_AUTHZ (s : Nat) : Fld := ⟨0x400a012c + 0x40 * s, 12, 1, 0⟩
def SEG_LAST_REASON (s : Nat) : Fld := ⟨0x400a012c + 0x40 * s, 8, 4, 0⟩
def SEG_LAST_SRC (s : Nat) : Fld := ⟨0x400a012c + 0x40 * s, 0, 5, 0⟩

-- Table 13.9
def SNS_CTL_MD_TCU : Fld := ⟨0x400b0000, 16, 4, 0xf⟩
def SNS_CTL_MD_EN : Fld := ⟨0x400b0000, 12, 1, 0⟩
def SNS_CTL_SCAN_EVT : Fld := ⟨0x400b0000, 8, 1, 0⟩
def SNS_CTL_SCAN_TCU : Fld := ⟨0x400b0000, 4, 4, 0⟩
def SNS_CTL_SCAN_TRIG : Fld := ⟨0x400b0000, 1, 1, 0⟩
def SNS_CTL_EN : Fld := ⟨0x400b0000, 0, 1, 0⟩
def SNS_SCAN_MASK : Fld := ⟨0x400b0004, 0, 32, 0⟩
def SNS_CMD_CLR_CNT : Fld := ⟨0x400b0008, 2, 1, 0⟩
def SNS_CMD_REARM : Fld := ⟨0x400b0008, 1, 1, 0⟩
def SNS_CMD_GO : Fld := ⟨0x400b0008, 0, 1, 0⟩
def SNS_STAT_BUSY : Fld := ⟨0x400b000c, 16, 1, 0⟩
def SNS_STAT_SEQ : Fld := ⟨0x400b000c, 0, 16, 0⟩
def SNS_DIN : Fld := ⟨0x400b0010, 0, 32, 0⟩
def SNS_EDGE_EN : Fld := ⟨0x400b0014, 0, 32, 0⟩
def SNS_EDGE : Fld := ⟨0x400b0018, 0, 32, 0⟩
def SNS_BUF_LO (b : Nat) : Fld := ⟨0x400b0020 + 0x10 * b, 0, 32, 0⟩
def SNS_BUF_HI_EN (b : Nat) : Fld := ⟨0x400b0024 + 0x10 * b, 31, 1, 0⟩
def SNS_BUF_HI_LOG2 (b : Nat) : Fld := ⟨0x400b0024 + 0x10 * b, 8, 4, 4⟩
def SNS_BUF_HI_ADDR (b : Nat) : Fld := ⟨0x400b0024 + 0x10 * b, 0, 8, 0⟩
def SNS_BUF_WI (b : Nat) : Fld := ⟨0x400b0028 + 0x10 * b, 0, 32, 0⟩
def SNS_ERR_INFO_VALID : Fld := ⟨0x400b0040, 31, 1, 0⟩
def SNS_ERR_INFO_CAUSE : Fld := ⟨0x400b0040, 0, 4, 0⟩
def SNS_SKIP : Fld := ⟨0x400b0048, 0, 32, 0⟩
def SNS_DC_DC_FILT : Fld := ⟨0x400b0080, 24, 8, 0xa⟩
def SNS_DC_DCPOL : Fld := ⟨0x400b0080, 8, 8, 0⟩
def SNS_DC_DC_EN : Fld := ⟨0x400b0080, 0, 8, 0⟩
def SNS_WAKE : Fld := ⟨0x400b0084, 0, 8, 0⟩
def SNS_CFG_DEB (n : Nat) : Fld := ⟨0x400b0100 + 4 * n, 16, 8, 0xa⟩
def SNS_CFG_WET (n : Nat) : Fld := ⟨0x400b0100 + 4 * n, 8, 3, 0⟩
def SNS_CFG_MODE (n : Nat) : Fld := ⟨0x400b0100 + 4 * n, 0, 2, 0⟩
def SNS_RES_SEQ (n : Nat) : Fld := ⟨0x400b0180 + 4 * n, 16, 16, 0⟩
def SNS_RES_CODE (n : Nat) : Fld := ⟨0x400b0180 + 4 * n, 0, 12, 0⟩

-- Table 13.4
def MD_ID_VENDOR : Fld := ⟨0x50080000, 24, 8, 0x51⟩
def MD_ID_TYPE : Fld := ⟨0x50080000, 16, 8, 2⟩
def MD_ID_REV : Fld := ⟨0x50080000, 0, 8, 0xa0⟩
def MD_STAT_ISO_OK : Fld := ⟨0x50080004, 7, 1, 0⟩
def MD_STAT_INTEG : Fld := ⟨0x50080004, 6, 1, 1⟩
def MD_STAT_RANGE_V : Fld := ⟨0x50080004, 5, 1, 0⟩
def MD_STAT_RANGE_I1 : Fld := ⟨0x50080004, 4, 1, 0⟩
def MD_STAT_RANGE_I0 : Fld := ⟨0x50080004, 3, 1, 0⟩
def MD_STAT_CHECK : Fld := ⟨0x50080004, 2, 1, 0⟩
def MD_STAT_ALIGNED : Fld := ⟨0x50080004, 0, 1, 0⟩
def MD_FLAG : Fld := ⟨0x50080008, 0, 8, 0⟩
def MD_LATCH : Fld := ⟨0x5008000c, 0, 1, 0⟩
def MD_SESSION : Fld := ⟨0x50080010, 0, 32, 0⟩
def MD_TIMING_EARLY : Fld := ⟨0x50080014, 16, 16, 0⟩
def MD_TIMING_FREE : Fld := ⟨0x50080014, 0, 16, 0⟩
def MD_SMP_SEQ : Fld := ⟨0x50080040, 0, 32, 0⟩
def MD_SMP_I0 : Fld := ⟨0x50080044, 0, 32, 0⟩
def MD_SMP_I1 : Fld := ⟨0x50080048, 0, 32, 0⟩
def MD_SMP_V : Fld := ⟨0x5008004c, 0, 32, 0⟩
def MD_L_SEQ : Fld := ⟨0x50080100, 0, 32, 0⟩
def MD_L_I0 : Fld := ⟨0x50080104, 0, 32, 0⟩
def MD_L_I1 : Fld := ⟨0x50080108, 0, 32, 0⟩
def MD_L_V : Fld := ⟨0x5008010c, 0, 32, 0⟩
def MD_L_EDIS_LO : Fld := ⟨0x50080110, 0, 32, 0⟩
def MD_L_EDIS_HI : Fld := ⟨0x50080114, 0, 32, 0⟩
def MD_L_ECHG_LO : Fld := ⟨0x50080118, 0, 32, 0⟩
def MD_L_ECHG_HI : Fld := ⟨0x5008011c, 0, 32, 0⟩
def MD_L_CALCNT : Fld := ⟨0x50080120, 0, 16, 0⟩
def MD_SHUNT : Fld := ⟨0x50080200, 0, 16, 0x3e8⟩
def MD_CAL_GAIN (c : Nat) : Fld := ⟨0x50080204 + 4 * c, 16, 16, 0⟩
def MD_CAL_OFFSET (c : Nat) : Fld := ⟨0x50080204 + 4 * c, 0, 16, 0⟩
def MD_CFG_FLOW_THR : Fld := ⟨0x50080210, 16, 8, 1⟩
def MD_CFG_CHK_THR : Fld := ⟨0x50080210, 8, 8, 5⟩
def MD_CFG_INTEG_EN : Fld := ⟨0x50080210, 0, 1, 1⟩
def MD_COMMIT_APPLIED : Fld := ⟨0x50080214, 8, 8, 0⟩
def MD_COMMIT_DIRTY : Fld := ⟨0x50080214, 0, 8, 0⟩

-- Table 14.10
def REC_CTL_STMT_PER : Fld := ⟨0x400c0000, 8, 8, 0x3c⟩
def REC_CTL_NPUT : Fld := ⟨0x400c0000, 1, 1, 0⟩
def REC_CTL_UNTRUSTED : Fld := ⟨0x400c0000, 0, 1, 0⟩
def REC_STAT_READY : Fld := ⟨0x400c0004, 31, 1, 0⟩
def REC_STAT_STMT_BUSY : Fld := ⟨0x400c0004, 2, 1, 0⟩
def REC_STAT_CLR_BUSY : Fld := ⟨0x400c0004, 1, 1, 0⟩
def REC_STAT_CLOSED : Fld := ⟨0x400c0004, 0, 1, 0⟩
def REC_CMD_CLR_CNT : Fld := ⟨0x400c0008, 4, 1, 0⟩
def REC_CMD_REARM : Fld := ⟨0x400c0008, 3, 1, 0⟩
def REC_CMD_CLEAR : Fld := ⟨0x400c0008, 2, 1, 0⟩
def REC_CMD_STMT : Fld := ⟨0x400c0008, 1, 1, 0⟩
def REC_CMD_SNAP : Fld := ⟨0x400c0008, 0, 1, 0⟩
def REC_CLR_RESULT : Fld := ⟨0x400c000c, 0, 8, 0⟩
def REC_CLR_ADDR_LO : Fld := ⟨0x400c0010, 4, 28, 0⟩
def REC_CLR_ADDR_HI : Fld := ⟨0x400c0014, 0, 8, 0⟩
def REC_LB_P (i : Nat) : Fld := ⟨0x400c0020 + 4 * i, 0, 32, 0⟩
def REC_LB_PUT_CODE : Fld := ⟨0x400c002c, 16, 16, 0⟩
def REC_LB_PUT_FLAGS : Fld := ⟨0x400c002c, 12, 4, 0⟩
def REC_SNAP_LB_OLD : Fld := ⟨0x400c0040, 0, 32, 0⟩
def REC_SNAP_LB_NEW : Fld := ⟨0x400c0044, 0, 32, 0⟩
def REC_SNAP_LG_OLD : Fld := ⟨0x400c0048, 0, 32, 0⟩
def REC_SNAP_LG_NEW : Fld := ⟨0x400c004c, 0, 32, 0⟩
def REC_SNAP_LG_ADDR : Fld := ⟨0x400c0050, 4, 17, 0⟩
def REC_SNAP_INFO_NUM : Fld := ⟨0x400c0054, 16, 16, 0⟩
def REC_SNAP_INFO_LG_CLR : Fld := ⟨0x400c0054, 8, 8, 0⟩
def REC_SNAP_INFO_LB_CLR : Fld := ⟨0x400c0054, 0, 8, 0⟩
def REC_SNAP_LB_CLR : Fld := ⟨0x400c0058, 0, 32, 0⟩
def REC_SNAP_LG_CLR : Fld := ⟨0x400c005c, 0, 32, 0⟩
def REC_TORN_LG : Fld := ⟨0x400c0060, 16, 16, 0⟩
def REC_TORN_LB : Fld := ⟨0x400c0060, 0, 16, 0⟩
def REC_LOST : Fld := ⟨0x400c0064, 0, 32, 0⟩
def REC_ERR_INFO_VALID : Fld := ⟨0x400c0068, 31, 1, 0⟩
def REC_ERR_INFO_CAUSE : Fld := ⟨0x400c0068, 0, 4, 0⟩
def REC_STMT_LAST : Fld := ⟨0x400c006c, 0, 32, 0⟩

-- Table 15.22
def SYS_LC_LC_GEN : Fld := ⟨0x40000080, 8, 8, 0⟩
def SYS_LC_STATE : Fld := ⟨0x40000080, 0, 3, 0⟩
def SYS_KEYCNT_HWM : Fld := ⟨0x40000084, 16, 10, 0⟩
def SYS_KEYCNT_COUNT : Fld := ⟨0x40000084, 0, 14, 0⟩
def SYS_MIN_SVN : Fld := ⟨0x40000088, 0, 32, 0⟩
def SYS_IDSTAT_TAMPER_BOOT : Fld := ⟨0x4000008c, 2, 1, 0⟩
def SYS_IDSTAT_AUTH : Fld := ⟨0x4000008c, 1, 1, 0⟩
def SYS_IDSTAT_ROOT : Fld := ⟨0x4000008c, 0, 1, 0⟩

-- Table 15.23
def KEY_CMD_TARGET (c : Nat) : Fld := ⟨0x400d0000 + 0x80 * c, 24, 8, 0⟩
def KEY_CMD_DEST (c : Nat) : Fld := ⟨0x400d0000 + 0x80 * c, 16, 3, 0⟩
def KEY_CMD_IDX (c : Nat) : Fld := ⟨0x400d0000 + 0x80 * c, 8, 6, 0⟩
def KEY_CMD_OP (c : Nat) : Fld := ⟨0x400d0000 + 0x80 * c, 0, 4, 0⟩
def KEY_ARG_LO (c : Nat) : Fld := ⟨0x400d0004 + 0x80 * c, 0, 32, 0⟩
def KEY_ARG_HI (c : Nat) : Fld := ⟨0x400d0008 + 0x80 * c, 0, 8, 0⟩
def KEY_ARG2_LO (c : Nat) : Fld := ⟨0x400d000c + 0x80 * c, 0, 32, 0⟩
def KEY_ARG2_HI (c : Nat) : Fld := ⟨0x400d0010 + 0x80 * c, 0, 8, 0⟩
def KEY_AUX (c : Nat) : Fld := ⟨0x400d0014 + 0x80 * c, 0, 16, 0⟩
def KEY_RESULT_BUSY (c : Nat) : Fld := ⟨0x400d0018 + 0x80 * c, 31, 1, 0⟩
def KEY_RESULT_RESULT (c : Nat) : Fld := ⟨0x400d0018 + 0x80 * c, 16, 8, 0⟩
def KEY_RESULT_OP (c : Nat) : Fld := ⟨0x400d0018 + 0x80 * c, 0, 4, 0⟩
def KEY_STAT_HMAC : Fld := ⟨0x400d0100, 2, 1, 0⟩
def KEY_STAT_SEALER : Fld := ⟨0x400d0100, 1, 1, 0⟩
def KEY_STAT_REG : Fld := ⟨0x400d0100, 0, 1, 0⟩
def KEY_SLOTS_LO : Fld := ⟨0x400d0104, 0, 32, 0⟩
def KEY_SLOTS_HI : Fld := ⟨0x400d0108, 0, 32, 0⟩
def KEY_TAMPER_SLEEP : Fld := ⟨0x400d010c, 16, 5, 0⟩
def KEY_TAMPER_RUN : Fld := ⟨0x400d010c, 8, 5, 0⟩
def KEY_TAMPER_BOOT : Fld := ⟨0x400d010c, 0, 5, 0⟩
def KEY_TAMPER_CNT : Fld := ⟨0x400d0110, 0, 32, 0⟩
def KEY_CTL : Fld := ⟨0x400d0114, 0, 1, 0⟩
def KEY_MODID (w : Nat) : Fld := ⟨0x400d0120 + 4 * w, 0, 32, 0⟩
def KEY_MEAS (i w : Nat) : Fld := ⟨0x400d0400 + 0x40 * i + 4 * w, 0, 32, 0⟩

-- Table 15.24
def CRY_CTL : Fld := ⟨0x400d1000, 0, 1, 0⟩
def CRY_KEYS : Fld := ⟨0x400d1004, 0, 16, 0⟩
def CRY_ERR_INFO_VALID : Fld := ⟨0x400d1008, 31, 1, 0⟩
def CRY_ERR_INFO_CAUSE : Fld := ⟨0x400d1008, 8, 4, 0⟩
def CRY_ERR_INFO_FN : Fld := ⟨0x400d1008, 0, 5, 0⟩
def CRY_ERR_ADDR_LO : Fld := ⟨0x400d100c, 0, 32, 0⟩
def CRY_ERR_ADDR_HI : Fld := ⟨0x400d1010, 0, 8, 0⟩
def CRY_ERR_CTL_CLR_CNT : Fld := ⟨0x400d1014, 1, 1, 0⟩
def CRY_ERR_CTL_REARM : Fld := ⟨0x400d1014, 0, 1, 0⟩
def CRY_AUTHFAIL : Fld := ⟨0x400d1018, 0, 32, 0⟩
def CRY_SQ_DB (r : Nat) : Fld := ⟨0x400d1040 + 8 * r, 0, 32, 0⟩
def CRY_CQ_DB (r : Nat) : Fld := ⟨0x400d1044 + 8 * r, 0, 32, 0⟩
def CRY_KEYMAP (k : Nat) : Fld := ⟨0x400d1200 + 4 * k, 0, 5, 0⟩

-- Table 16.8
def WLD_OWN : Fld := ⟨0x400e0000, 0, 24, 0xffffff⟩
def WLD_HO_WORLD : Fld := ⟨0x400e0004, 8, 1, 0⟩
def WLD_HO_BLOCK : Fld := ⟨0x400e0004, 0, 5, 0⟩
def WLD_HO_STAT_BUSY : Fld := ⟨0x400e0008, 31, 1, 0⟩
def WLD_HO_STAT_BLOCK : Fld := ⟨0x400e0008, 8, 5, 0⟩
def WLD_HO_STAT_RESULT : Fld := ⟨0x400e0008, 0, 4, 0⟩
def WLD_APPW : Fld := ⟨0x400e000c, 0, 4, 0⟩
def WLD_LOCK : Fld := ⟨0x400e0010, 0, 1, 0⟩
def WLD_VIOL_INFO_VALID : Fld := ⟨0x400e0020, 31, 1, 0⟩
def WLD_VIOL_INFO_ID : Fld := ⟨0x400e0020, 16, 8, 0⟩
def WLD_VIOL_INFO_CAUSE : Fld := ⟨0x400e0020, 12, 4, 0⟩
def WLD_VIOL_INFO_TPORT : Fld := ⟨0x400e0020, 8, 4, 0⟩
def WLD_VIOL_INFO_WRITE : Fld := ⟨0x400e0020, 0, 1, 0⟩
def WLD_VIOL_ADDR_LO : Fld := ⟨0x400e0024, 0, 32, 0⟩
def WLD_VIOL_ADDR_HI : Fld := ⟨0x400e0028, 0, 8, 0⟩
def WLD_VIOL_CNT : Fld := ⟨0x400e002c, 0, 32, 0⟩
def WLD_CTL_CLR_CNT : Fld := ⟨0x400e0030, 1, 1, 0⟩
def WLD_CTL_REARM : Fld := ⟨0x400e0030, 0, 1, 0⟩
def WLD_RGN_BASE_EN (n : Nat) : Fld := ⟨0x400e0100 + 8 * n, 31, 1, 0⟩
def WLD_RGN_BASE_BASE (n : Nat) : Fld := ⟨0x400e0100 + 8 * n, 0, 28, 0⟩
def WLD_RGN_LIM (n : Nat) : Fld := ⟨0x400e0104 + 8 * n, 0, 28, 0⟩

-- Table 16.9
def DBG_ID : Fld := ⟨0x40100000, 0, 32, 0xa72400a3⟩
def DBG_STAT_ACTIVE : Fld := ⟨0x40100004, 28, 4, 0⟩
def DBG_STAT_TOKEN : Fld := ⟨0x40100004, 24, 4, 0⟩
def DBG_STAT_FW : Fld := ⟨0x40100004, 20, 4, 0⟩
def DBG_STAT_HALTED : Fld := ⟨0x40100004, 16, 1, 0⟩
def DBG_STAT_LEFT : Fld := ⟨0x40100004, 0, 16, 0⟩
def DBG_GRANT : Fld := ⟨0x40100008, 0, 4, 0⟩
def DBG_CMD_SYSRST : Fld := ⟨0x4010000c, 3, 1, 0⟩
def DBG_CMD_LOCK : Fld := ⟨0x4010000c, 2, 1, 0⟩
def DBG_CMD_SUBMIT : Fld := ⟨0x4010000c, 1, 1, 0⟩
def DBG_CMD_CHALLENGE : Fld := ⟨0x4010000c, 0, 1, 0⟩
def DBG_CHAL : Fld := ⟨0x40100010, 0, 32, 0⟩
def DBG_NONCE (w : Nat) : Fld := ⟨0x40100014 + 4 * w, 0, 32, 0⟩
def DBG_TOK_RESULT : Fld := ⟨0x40100024, 0, 8, 0⟩
def DBG_TBUF_IDX : Fld := ⟨0x40100028, 2, 10, 0⟩
def DBG_TBUF_DATA : Fld := ⟨0x4010002c, 0, 32, 0⟩
def DBG_ACC_ADDR_LO : Fld := ⟨0x40100040, 2, 30, 0⟩
def DBG_ACC_ADDR_HI_WORLD : Fld := ⟨0x40100044, 8, 1, 0⟩
def DBG_ACC_ADDR_HI_ADDR : Fld := ⟨0x40100044, 0, 8, 0⟩
def DBG_ACC_DATA : Fld := ⟨0x40100048, 0, 32, 0⟩
def DBG_ACC_CMD_WRITE : Fld := ⟨0x4010004c, 1, 1, 0⟩
def DBG_ACC_CMD_READ : Fld := ⟨0x4010004c, 0, 1, 0⟩
def DBG_ACC_STAT_BUSY : Fld := ⟨0x40100050, 31, 1, 0⟩
def DBG_ACC_STAT_RESULT : Fld := ⟨0x40100050, 0, 2, 0⟩

-- Table 5.2, the registers of a VF page other than its ring sets
def VFP_SQ_DB (f r : Nat) : Fld := ⟨vfPage f + 0 + 8 * r, 0, 32, 0⟩
def VFP_CQ_DB (f r : Nat) : Fld := ⟨vfPage f + 4 + 8 * r, 0, 32, 0⟩
def VFP_VF_GEN_STATE (f : Nat) : Fld := ⟨vfPage f + 0x40, 8, 3, 0⟩
def VFP_VF_GEN_GEN (f : Nat) : Fld := ⟨vfPage f + 0x40, 0, 8, 0⟩
def VFP_VF_CTL (f : Nat) : Fld := ⟨vfPage f + 0x44, 0, 1, 0⟩
def VFP_VF_EVT_PEND (f : Nat) : Fld := ⟨vfPage f + 0x48, 0, 8, 0⟩
def VFP_VF_EVT_EN (f : Nat) : Fld := ⟨vfPage f + 0x4c, 0, 8, 0⟩
def VFP_VF_FWD_TOP_VALID (f : Nat) : Fld := ⟨vfPage f + 0x50, 31, 1, 0⟩
def VFP_VF_FWD_TOP_PRIO (f : Nat) : Fld := ⟨vfPage f + 0x50, 8, 4, 0⟩
def VFP_VF_FWD_TOP_EVENT (f : Nat) : Fld := ⟨vfPage f + 0x50, 0, 8, 0⟩
def VFP_VF_FWD_ACK (f : Nat) : Fld := ⟨vfPage f + 0x54, 0, 8, 0⟩

-- Table 6.7, at the ring-set base `b`
def RING_SQ_BASE_LO (b : Nat) : Fld := ⟨b + 0, 6, 26, 0⟩
def RING_SQ_BASE_HI (b : Nat) : Fld := ⟨b + 4, 0, 8, 0⟩
def RING_CQ_BASE_LO (b : Nat) : Fld := ⟨b + 8, 6, 26, 0⟩
def RING_CQ_BASE_HI (b : Nat) : Fld := ⟨b + 0xc, 0, 8, 0⟩
def RING_CIWB_LO (b : Nat) : Fld := ⟨b + 0x10, 4, 28, 0⟩
def RING_CIWB_HI (b : Nat) : Fld := ⟨b + 0x14, 0, 8, 0⟩
def RING_CFG_EN (b : Nat) : Fld := ⟨b + 0x18, 31, 1, 0⟩
def RING_CFG_GEN (b : Nat) : Fld := ⟨b + 0x18, 16, 8, 0⟩
def RING_CFG_CQ_LOG2 (b : Nat) : Fld := ⟨b + 0x18, 8, 4, 4⟩
def RING_CFG_SQ_LOG2 (b : Nat) : Fld := ⟨b + 0x18, 0, 4, 4⟩
def RING_STAT_STOPPED (b : Nat) : Fld := ⟨b + 0x1c, 31, 1, 0⟩
def RING_STAT_CAUSE (b : Nat) : Fld := ⟨b + 0x1c, 24, 4, 0⟩
def RING_STAT_SQ_CI (b : Nat) : Fld := ⟨b + 0x1c, 0, 16, 0⟩

end Sys2Proof.Machine
end

