-- ==== Sys2Proof/Machine/RegMap.lean ====
section
/-! DEFINITION. The register map: for every block, its fields with their access types, in the order of the spec's tables (R5,
R35 to R37). A row stands for all instances of an indexed register: `dims` lists how often and at which distance it is
repeated. Reserved fields have no row: they read zero and ignore writes (R5, R7). -/

namespace Sys2Proof.Machine

def rowsSys0 : List FRow := [
  ⟨SYS_ID_VENDOR, [], .ro⟩,
  ⟨SYS_ID_PART, [], .ro⟩,
  ⟨SYS_ID_REV, [], .ro⟩,
  ⟨SYS_DIEID0, [], .ro⟩,
  ⟨SYS_DIEID1, [], .ro⟩,
  ⟨SYS_ZONE, [], .ro⟩,
  ⟨SYS_STRAP_MD_EN, [], .ro⟩,
  ⟨SYS_STRAP_BOOT_BANK, [], .ro⟩,
  ⟨SYS_STRAP_SG1_MODE, [], .ro⟩,
  ⟨SYS_STRAP_SG0_MODE, [], .ro⟩,
  ⟨SYS_STRAP_STAT_BANK_USED, [], .ro⟩,
  ⟨SYS_STRAP_STAT_DEFAULTS, [], .ro⟩,
  ⟨SYS_STRAP_STAT_SG0_FORCED, [], .ro⟩,
  ⟨SYS_STRAP_STAT_CORRECTED, [], .ro⟩,
  ⟨SYS_STRAP_STAT_LOADED, [], .ro⟩,
  ⟨SYS_LC_LC_GEN, [], .ro⟩,
  ⟨SYS_LC_STATE, [], .ro⟩,
  ⟨SYS_KEYCNT_HWM, [], .ro⟩,
  ⟨SYS_KEYCNT_COUNT, [], .ro⟩,
  ⟨SYS_MIN_SVN, [], .ro⟩,
  ⟨SYS_IDSTAT_TAMPER_BOOT, [], .ro⟩,
  ⟨SYS_IDSTAT_AUTH, [], .ro⟩,
  ⟨SYS_IDSTAT_ROOT, [], .ro⟩]

def rowsSys : List FRow := rowsSys0

def rowsEvc0 : List FRow := [
  ⟨EVC_PEND 0, [(8, 4)], .w1c⟩,
  ⟨EVC_SET 0, [(8, 4)], .wo⟩,
  ⟨EVC_EN 0, [(8, 4)], .rw⟩,
  ⟨EVC_CFG_WORLD 0, [(256, 4)], .ro⟩,
  ⟨EVC_CFG_PRIO 0, [(256, 4)], .rw⟩,
  ⟨EVC_CFG_VF 0, [(256, 4)], .rw⟩,
  ⟨EVC_CFG_TGT 0, [(256, 4)], .rw⟩,
  ⟨EVC_TOP_VALID 0, [(6, 0x10)], .ro⟩,
  ⟨EVC_TOP_PRIO 0, [(6, 0x10)], .ro⟩,
  ⟨EVC_TOP_EVENT 0, [(6, 0x10)], .ro⟩,
  ⟨EVC_THR 0, [(6, 0x10)], .rw⟩,
  ⟨EVC_WCE_CE_CNT, [], .ro⟩,
  ⟨EVC_WCE_UE_CNT, [], .ro⟩,
  ⟨EVC_WCE_ADDR_LO, [], .ro⟩,
  ⟨EVC_WCE_ADDR_HI, [], .ro⟩,
  ⟨EVC_WCE_INFO_VALID, [], .ro⟩,
  ⟨EVC_WCE_INFO_UE, [], .ro⟩,
  ⟨EVC_WCE_INFO_UNIT, [], .ro⟩,
  ⟨EVC_WCE_INFO_SQ, [], .ro⟩,
  ⟨EVC_WCE_INFO_SP, [], .ro⟩,
  ⟨EVC_WCE_CTL_REARM, [], .wo⟩,
  ⟨EVC_WCE_CTL_CLR_CNT, [], .wo⟩,
  ⟨EVC_FAB_ADDR_LO, [], .ro⟩,
  ⟨EVC_FAB_ADDR_HI, [], .ro⟩,
  ⟨EVC_FAB_INFO_VALID, [], .ro⟩,
  ⟨EVC_FAB_INFO_CAUSE, [], .ro⟩,
  ⟨EVC_FAB_INFO_TPORT, [], .ro⟩,
  ⟨EVC_FAB_INFO_IPORT, [], .ro⟩,
  ⟨EVC_FAB_CTL, [], .wo⟩]

def rowsEvc : List FRow := rowsEvc0

def rowsPwr0 : List FRow := [
  ⟨PWR_STATE_PREV, [], .ro⟩,
  ⟨PWR_STATE_CUR, [], .ro⟩,
  ⟨PWR_REQ, [], .wo⟩,
  ⟨PWR_RESULT_STAGE_LOST, [], .ro⟩,
  ⟨PWR_RESULT_CODE, [], .ro⟩,
  ⟨PWR_RESULT_TARGET, [], .ro⟩,
  ⟨PWR_CFG_IGN_HOLD, [], .rw⟩,
  ⟨PWR_CFG_DWELL, [], .rw⟩,
  ⟨PWR_CFG_PARK_TO, [], .rw⟩,
  ⟨PWR_WAKE_ARM, [], .rw⟩,
  ⟨PWR_WAKE_CAUSE_POR, [], .w1c⟩,
  ⟨PWR_WAKE_CAUSE_TAMPER, [], .w1c⟩,
  ⟨PWR_WAKE_CAUSE_SRC, [], .w1c⟩,
  ⟨PWR_APP_PARK, [], .w1s⟩,
  ⟨PWR_STAT_DRAM_RDY, [], .ro⟩,
  ⟨PWR_STAT_MD_PWR, [], .ro⟩,
  ⟨PWR_STAT_STAGE_PWR, [], .ro⟩,
  ⟨PWR_STAT_PARK_FORCED, [], .w1c⟩,
  ⟨PWR_STAT_VLOW, [], .ro⟩,
  ⟨PWR_STAT_VHIGH, [], .ro⟩,
  ⟨PWR_STAT_BUSY, [], .ro⟩,
  ⟨PWR_VBAT, [], .ro⟩,
  ⟨PWR_TEMP, [], .ro⟩,
  ⟨PWR_SLEEP_LO, [], .ro⟩,
  ⟨PWR_SLEEP_HI, [], .ro⟩]

def rowsPwr : List FRow := rowsPwr0

def rowsClk0 : List FRow := [
  ⟨CLK_STAT_LOCK, [], .ro⟩,
  ⟨CLK_STAT_REF_OK, [], .ro⟩,
  ⟨CLK_ISL_GATE_APP, [], .rw⟩,
  ⟨CLK_ISL_GATE_SG1, [], .rw⟩,
  ⟨CLK_BLK_GATE, [], .rw⟩,
  ⟨CLK_APP_DIV_THROTTLE, [], .ro⟩,
  ⟨CLK_APP_DIV_APP_DIV, [], .rw⟩,
  ⟨CLK_AON_CAL, [], .ro⟩]

def rowsClk : List FRow := rowsClk0

def rowsRst0 : List FRow := [
  ⟨RST_CAUSE_DBG, [], .w1c⟩,
  ⟨RST_CAUSE_SYS_SW, [], .w1c⟩,
  ⟨RST_CAUSE_WDT, [], .w1c⟩,
  ⟨RST_CAUSE_WAKE, [], .w1c⟩,
  ⟨RST_CAUSE_POR, [], .w1c⟩,
  ⟨RST_SYS, [], .wo⟩,
  ⟨RST_BLK0_NMW, [], .wo⟩,
  ⟨RST_BLK0_REC, [], .wo⟩,
  ⟨RST_BLK0_LCC, [], .wo⟩,
  ⟨RST_BLK0_CRY, [], .wo⟩,
  ⟨RST_BLK0_SNS, [], .wo⟩,
  ⟨RST_BLK0_TIME, [], .wo⟩,
  ⟨RST_BLK0_ETH, [], .wo⟩,
  ⟨RST_BLK0_FIFO, [], .wo⟩,
  ⟨RST_BLK0_DMA1, [], .wo⟩,
  ⟨RST_BLK0_DMA0, [], .wo⟩,
  ⟨RST_BLK0_CGW, [], .wo⟩,
  ⟨RST_BLK0_CAN, [], .wo⟩,
  ⟨RST_APP, [], .rw⟩,
  ⟨RST_STAGE_MD, [], .wo⟩,
  ⟨RST_STAGE_PS, [], .wo⟩,
  ⟨RST_WDT_CFG_EN, [], .rwo⟩,
  ⟨RST_WDT_CFG_PERIOD, [], .rwo⟩,
  ⟨RST_WDT_KICK, [], .wo⟩,
  ⟨RST_WDT_CNT, [], .ro⟩]

def rowsRst : List FRow := rowsRst0

def rowsVote0 : List FRow := [
  ⟨VOTE_STAT_CTL_REFUSED 0, [(2, 0x1000)], .w1c⟩,
  ⟨VOTE_STAT_MODE 0, [(2, 0x1000)], .ro⟩,
  ⟨VOTE_STAT_GROUP 0, [(2, 0x1000)], .ro⟩,
  ⟨VOTE_STAT_LANE2 0, [(2, 0x1000)], .ro⟩,
  ⟨VOTE_STAT_LANE1 0, [(2, 0x1000)], .ro⟩,
  ⟨VOTE_STAT_LANE0 0, [(2, 0x1000)], .ro⟩,
  ⟨VOTE_CFG_REJOIN_MAXWAIT 0, [(2, 0x1000)], .rw⟩,
  ⟨VOTE_CFG_RESTART_LIMIT 0, [(2, 0x1000)], .rw⟩,
  ⟨VOTE_CFG_FAIL_LIMIT 0, [(2, 0x1000)], .rw⟩,
  ⟨VOTE_CFG_REJOIN_POL 0, [(2, 0x1000)], .rw⟩,
  ⟨VOTE_CTL_AGREE_REARM 0, [(2, 0x1000)], .wo⟩,
  ⟨VOTE_CTL_REARM 0, [(2, 0x1000)], .wo⟩,
  ⟨VOTE_CTL_CLR_CNT 0, [(2, 0x1000)], .wo⟩,
  ⟨VOTE_CTL_RELEASE 0, [(2, 0x1000)], .wo⟩,
  ⟨VOTE_CTL_FAIL 0, [(2, 0x1000)], .wo⟩,
  ⟨VOTE_CTL_REJOIN_NOW 0, [(2, 0x1000)], .wo⟩,
  ⟨VOTE_MM_INFO_VALID 0, [(2, 0x1000)], .ro⟩,
  ⟨VOTE_MM_INFO_KIND 0, [(2, 0x1000)], .ro⟩,
  ⟨VOTE_MM_INFO_LANES 0, [(2, 0x1000)], .ro⟩,
  ⟨VOTE_MM_INFO_FIELDS 0, [(2, 0x1000)], .ro⟩,
  ⟨VOTE_MM_ADDR_LO 0, [(2, 0x1000)], .ro⟩,
  ⟨VOTE_MM_ADDR_HI 0, [(2, 0x1000)], .ro⟩,
  ⟨VOTE_MM_CYC_LO 0, [(2, 0x1000)], .ro⟩,
  ⟨VOTE_MM_CYC_HI 0, [(2, 0x1000)], .ro⟩,
  ⟨VOTE_MASK_CNT_LANE2 0, [(2, 0x1000)], .ro⟩,
  ⟨VOTE_MASK_CNT_LANE1 0, [(2, 0x1000)], .ro⟩,
  ⟨VOTE_MASK_CNT_LANE0 0, [(2, 0x1000)], .ro⟩,
  ⟨VOTE_RESTART_CNT_CONSEC 0, [(2, 0x1000)], .ro⟩,
  ⟨VOTE_RESTART_CNT_TOTAL 0, [(2, 0x1000)], .ro⟩,
  ⟨VOTE_AGREE_SKEW 0, [(2, 0x1000)], .ro⟩,
  ⟨VOTE_AGREE_HELD_LANE2 0, [(2, 0x1000)], .ro⟩,
  ⟨VOTE_AGREE_HELD_LANE1 0, [(2, 0x1000)], .ro⟩,
  ⟨VOTE_AGREE_HELD_LANE0 0, [(2, 0x1000)], .ro⟩,
  ⟨VOTE_AGREE_INFO_VALID 0, [(2, 0x1000)], .ro⟩,
  ⟨VOTE_AGREE_INFO_LANE 0, [(2, 0x1000)], .ro⟩,
  ⟨VOTE_AGREE_INFO_SOURCE 0, [(2, 0x1000)], .ro⟩,
  ⟨VOTE_REJOIN_LAST 0, [(2, 0x1000)], .ro⟩,
  ⟨VOTE_REJOIN_CNT 0, [(2, 0x1000)], .ro⟩,
  ⟨VOTE_SPLIT_ENTRY1 0, [(2, 0x1000)], .rw⟩,
  ⟨VOTE_SPLIT_ENTRY2 0, [(2, 0x1000)], .rw⟩]

def rowsVote1 : List FRow := [
  ⟨VOTE_SPLIT_RUN 0, [(2, 0x1000)], .w1s⟩,
  ⟨VOTE_SPLIT_IPI_SET 0, [(2, 0x1000)], .wo⟩,
  ⟨VOTE_SPLIT_IPI 0, [(2, 0x1000)], .w1c⟩]

def rowsVote : List FRow := rowsVote0 ++ rowsVote1

def rowsIst0 : List FRow := [
  ⟨IST_CTL_TEST_NOW, [], .wo⟩,
  ⟨IST_CTL_CKB, [], .rw⟩,
  ⟨IST_CTL_FIFO, [], .rw⟩,
  ⟨IST_CTL_DMA, [], .rw⟩,
  ⟨IST_CTL_SG1, [], .rw⟩,
  ⟨IST_CTL_SG0, [], .rw⟩,
  ⟨IST_PERIOD_AUX, [], .rw⟩,
  ⟨IST_PERIOD_LANE, [], .rw⟩,
  ⟨IST_IDLE, [], .rw⟩,
  ⟨IST_AREA_BASE, [], .rw⟩,
  ⟨IST_AREA_VALID, [], .rw⟩,
  ⟨IST_ATTR, [], .rw⟩,
  ⟨IST_STAT_ITEM, [], .ro⟩,
  ⟨IST_STAT_UNIT, [], .ro⟩,
  ⟨IST_STAT_SG1_NEXT, [], .ro⟩,
  ⟨IST_STAT_SG0_NEXT, [], .ro⟩,
  ⟨IST_STAT_SG1_OVERDUE, [], .ro⟩,
  ⟨IST_STAT_SG0_OVERDUE, [], .ro⟩,
  ⟨IST_RESULT_VALID, [], .ro⟩,
  ⟨IST_RESULT_OUTCOME, [], .ro⟩,
  ⟨IST_RESULT_ITEM, [], .ro⟩,
  ⟨IST_RESULT_UNIT, [], .ro⟩,
  ⟨IST_RESULT_DETAIL, [], .ro⟩,
  ⟨IST_COUNT_INC, [], .ro⟩,
  ⟨IST_COUNT_FAIL, [], .ro⟩,
  ⟨IST_COUNT_PASS, [], .ro⟩,
  ⟨IST_FAILMAP_FIFO, [], .ro⟩,
  ⟨IST_FAILMAP_DMA, [], .ro⟩,
  ⟨IST_FAIL_CKB, [], .ro⟩,
  ⟨IST_CMD_REARM, [], .wo⟩,
  ⟨IST_CMD_CLR_CNT, [], .wo⟩,
  ⟨IST_CKPT_CNT_LO 0, [(2, 0x40)], .ro⟩,
  ⟨IST_CKPT_CNT_HI 0, [(2, 0x40)], .ro⟩,
  ⟨IST_CKPT_STAT_HALF 0, [(2, 0x40)], .ro⟩,
  ⟨IST_CKPT_STAT_RELQ 0, [(2, 0x40)], .ro⟩,
  ⟨IST_CKPT_STAT_UNDO 0, [(2, 0x40)], .ro⟩,
  ⟨IST_CKPT_EARLY_IDLE 0, [(2, 0x40)], .ro⟩,
  ⟨IST_CKPT_EARLY_REQ 0, [(2, 0x40)], .ro⟩,
  ⟨IST_CKPT_EARLY_RELQ 0, [(2, 0x40)], .ro⟩,
  ⟨IST_CKPT_EARLY_UNDO 0, [(2, 0x40)], .ro⟩]

def rowsIst1 : List FRow := [
  ⟨IST_RESTART_LAST_ENTRIES 0, [(2, 0x40)], .ro⟩,
  ⟨IST_RESTART_LAST_TIME 0, [(2, 0x40)], .ro⟩,
  ⟨IST_RESTART_MAX 0, [(2, 0x40)], .ro⟩,
  ⟨IST_RELQ_ERR_ADDR_LO 0, [(2, 0x40)], .ro⟩,
  ⟨IST_RELQ_ERR_ADDR_HI 0, [(2, 0x40)], .ro⟩,
  ⟨IST_RELQ_ERR_INFO_VALID 0, [(2, 0x40)], .ro⟩,
  ⟨IST_RELQ_ERR_INFO_COUNT 0, [(2, 0x40)], .ro⟩]

def rowsIst : List FRow := rowsIst0 ++ rowsIst1

def rowsVfm0 : List FRow := [
  ⟨VFM_CMD_FN, [], .wo⟩,
  ⟨VFM_CMD_OP, [], .wo⟩,
  ⟨VFM_CMD_STAT_BUSY, [], .ro⟩,
  ⟨VFM_CMD_STAT_RESULT, [], .ro⟩,
  ⟨VFM_CMD_STAT_FN, [], .ro⟩,
  ⟨VFM_CMD_STAT_OP, [], .ro⟩,
  ⟨VFM_BLOB_LO, [], .rw⟩,
  ⟨VFM_BLOB_HI, [], .rw⟩,
  ⟨VFM_SEAL, [], .rw⟩,
  ⟨VFM_APP_EXT, [], .rw⟩,
  ⟨VFM_STALE_DROP_LO, [], .ro⟩,
  ⟨VFM_STALE_DROP_HI, [], .ro⟩,
  ⟨VFM_DB_STALE, [], .ro⟩,
  ⟨VFM_FORCED, [], .ro⟩,
  ⟨VFM_ERR_INFO_VALID, [], .ro⟩,
  ⟨VFM_ERR_INFO_CAUSE, [], .ro⟩,
  ⟨VFM_ERR_INFO_FN, [], .ro⟩,
  ⟨VFM_ERR_ADDR_LO, [], .ro⟩,
  ⟨VFM_ERR_ADDR_HI, [], .ro⟩,
  ⟨VFM_ERR_CTL_CLR_CNT, [], .wo⟩,
  ⟨VFM_ERR_CTL_REARM, [], .wo⟩,
  ⟨VFM_VF_STATE_GEN 0, [(32, 0x10)], .ro⟩,
  ⟨VFM_VF_STATE_STALE 0, [(32, 0x10)], .ro⟩,
  ⟨VFM_VF_STATE_RST_HELD 0, [(32, 0x10)], .ro⟩,
  ⟨VFM_VF_STATE_SHADE 0, [(32, 0x10)], .w1c⟩,
  ⟨VFM_VF_STATE_STATE 0, [(32, 0x10)], .ro⟩,
  ⟨VFM_VF_ROUTE_GEI 0, [(32, 0x10)], .rw⟩,
  ⟨VFM_VF_ROUTE_CORE 0, [(32, 0x10)], .rw⟩,
  ⟨VFM_VF_DROP_STALE_DROP 0, [(32, 0x10)], .ro⟩,
  ⟨VFM_VF_DROP_DB_STALE 0, [(32, 0x10)], .ro⟩,
  ⟨VFM_VF_QDROP 0, [(32, 0x10)], .ro⟩,
  ⟨VFM_WIN_GBASE 0 0, [(32, 0x40), (4, 0x10)], .rw⟩,
  ⟨VFM_WIN_HBASE 0 0, [(32, 0x40), (4, 0x10)], .rw⟩,
  ⟨VFM_WIN_CTL_EN 0 0, [(32, 0x40), (4, 0x10)], .rw⟩,
  ⟨VFM_WIN_CTL_SIZE 0 0, [(32, 0x40), (4, 0x10)], .rw⟩]

def rowsVfm : List FRow := rowsVfm0

def rowsDma0 : List FRow := [
  ⟨DMA_STAT_TESTING 0, [(2, 0x1000)], .ro⟩,
  ⟨DMA_STAT_STOPPED 0, [(2, 0x1000)], .ro⟩,
  ⟨DMA_STAT_BUSY 0, [(2, 0x1000)], .ro⟩,
  ⟨DMA_DB_IGN 0, [(2, 0x1000)], .ro⟩,
  ⟨DMA_ERR_INFO_VALID 0, [(2, 0x1000)], .ro⟩,
  ⟨DMA_ERR_INFO_CAUSE 0, [(2, 0x1000)], .ro⟩,
  ⟨DMA_ERR_INFO_CH 0, [(2, 0x1000)], .ro⟩,
  ⟨DMA_ERR_INFO_SQ_IDX 0, [(2, 0x1000)], .ro⟩,
  ⟨DMA_ERR_DESC_LO 0, [(2, 0x1000)], .ro⟩,
  ⟨DMA_ERR_DESC_HI 0, [(2, 0x1000)], .ro⟩,
  ⟨DMA_ERR_TGT_LO 0, [(2, 0x1000)], .ro⟩,
  ⟨DMA_ERR_TGT_HI 0, [(2, 0x1000)], .ro⟩,
  ⟨DMA_ERR_CTL_CLR_CNT 0, [(2, 0x1000)], .wo⟩,
  ⟨DMA_ERR_CTL_REARM 0, [(2, 0x1000)], .wo⟩,
  ⟨DMA_BYTES_LO 0, [(2, 0x1000)], .ro⟩,
  ⟨DMA_BYTES_HI 0, [(2, 0x1000)], .ro⟩,
  ⟨DMA_SQ_DB 0 0, [(2, 0x1000), (8, 8)], .wo⟩,
  ⟨DMA_CQ_DB 0 0, [(2, 0x1000), (8, 8)], .wo⟩,
  ⟨DMA_CH_CFG 0 0, [(2, 0x1000), (8, 0x40)], .rw⟩,
  ⟨DMA_CH_STAT_TESTING 0 0, [(2, 0x1000), (8, 0x40)], .ro⟩,
  ⟨DMA_CH_STAT_BUSY 0 0, [(2, 0x1000), (8, 0x40)], .ro⟩,
  ⟨DMA_CH_STAT_DESCS 0 0, [(2, 0x1000), (8, 0x40)], .ro⟩,
  ⟨RING_SQ_BASE_LO 0x40030100, [(2, 0x1000), (8, 0x40)], .rw⟩,
  ⟨RING_SQ_BASE_HI 0x40030100, [(2, 0x1000), (8, 0x40)], .rw⟩,
  ⟨RING_CQ_BASE_LO 0x40030100, [(2, 0x1000), (8, 0x40)], .rw⟩,
  ⟨RING_CQ_BASE_HI 0x40030100, [(2, 0x1000), (8, 0x40)], .rw⟩,
  ⟨RING_CIWB_LO 0x40030100, [(2, 0x1000), (8, 0x40)], .rw⟩,
  ⟨RING_CIWB_HI 0x40030100, [(2, 0x1000), (8, 0x40)], .rw⟩,
  ⟨RING_CFG_EN 0x40030100, [(2, 0x1000), (8, 0x40)], .rw⟩,
  ⟨RING_CFG_GEN 0x40030100, [(2, 0x1000), (8, 0x40)], .rw⟩,
  ⟨RING_CFG_CQ_LOG2 0x40030100, [(2, 0x1000), (8, 0x40)], .rw⟩,
  ⟨RING_CFG_SQ_LOG2 0x40030100, [(2, 0x1000), (8, 0x40)], .rw⟩,
  ⟨RING_STAT_STOPPED 0x40030100, [(2, 0x1000), (8, 0x40)], .ro⟩,
  ⟨RING_STAT_CAUSE 0x40030100, [(2, 0x1000), (8, 0x40)], .ro⟩,
  ⟨RING_STAT_SQ_CI 0x40030100, [(2, 0x1000), (8, 0x40)], .ro⟩]

def rowsDma : List FRow := rowsDma0

def rowsFifo0 : List FRow := [
  ⟨FIFO_POOL, [], .rw⟩,
  ⟨FIFO_ERR_INFO_VALID, [], .ro⟩,
  ⟨FIFO_ERR_INFO_CAUSE, [], .ro⟩,
  ⟨FIFO_ERR_INFO_FIFO, [], .ro⟩,
  ⟨FIFO_ERR_CNT, [], .ro⟩,
  ⟨FIFO_ERR_CTL_CLR_CNT, [], .wo⟩,
  ⟨FIFO_ERR_CTL_REARM, [], .wo⟩,
  ⟨FIFO_CFG_EN 0, [(16, 0x20)], .rw⟩,
  ⟨FIFO_CFG_PWORLD 0, [(16, 0x20)], .rw⟩,
  ⟨FIFO_CFG_CWORLD 0, [(16, 0x20)], .rw⟩,
  ⟨FIFO_CFG_SIZE_LOG2 0, [(16, 0x20)], .rw⟩,
  ⟨FIFO_CFG_OFFSET 0, [(16, 0x20)], .rw⟩,
  ⟨FIFO_PUSH_LO 0, [(16, 0x20)], .wo⟩,
  ⟨FIFO_PUSH_HI_COMMIT 0, [(16, 0x20)], .wo⟩,
  ⟨FIFO_PUSH_HI_BAD 0, [(16, 0x20)], .wo⟩,
  ⟨FIFO_PUSH_HI_WORDS 0, [(16, 0x20)], .wo⟩,
  ⟨FIFO_PUSH_HI_SRC 0, [(16, 0x20)], .wo⟩,
  ⟨FIFO_POP 0, [(16, 0x20)], .wo⟩,
  ⟨FIFO_COUNT_CREDIT 0, [(16, 0x20)], .ro⟩,
  ⟨FIFO_COUNT_USED 0, [(16, 0x20)], .ro⟩]

def rowsFifo : List FRow := rowsFifo0

def rowsBrg0 : List FRow := [
  ⟨BRG_CTL_HB_DBG_STOP, [], .rw⟩,
  ⟨BRG_CTL_HB_EN, [], .rw⟩,
  ⟨BRG_CTL_LINK_EN, [], .rw⟩,
  ⟨BRG_CFG_POLL, [], .rw⟩,
  ⟨BRG_CFG_RETRAIN, [], .rw⟩,
  ⟨BRG_CFG_NP_KEY, [], .rw⟩,
  ⟨BRG_CFG_NP_SG1, [], .rw⟩,
  ⟨BRG_CFG_NP_SG0, [], .rw⟩,
  ⟨BRG_STAT_HB_RUN, [], .ro⟩,
  ⟨BRG_STAT_LINK, [], .ro⟩,
  ⟨BRG_HB_CNT, [], .ro⟩,
  ⟨BRG_PERR_STAT_VALID, [], .ro⟩,
  ⟨BRG_PERR_STAT_LEVEL, [], .ro⟩,
  ⟨BRG_PERR_STAT_LOST, [], .ro⟩,
  ⟨BRG_PERR_ADDR_LO, [], .ro⟩,
  ⟨BRG_PERR_ADDR_HI, [], .ro⟩,
  ⟨BRG_PERR_INFO_STATUS, [], .ro⟩,
  ⟨BRG_PERR_INFO_PART, [], .ro⟩,
  ⟨BRG_PERR_INFO_ID, [], .ro⟩,
  ⟨BRG_PERR_INFO_SEQ, [], .ro⟩,
  ⟨BRG_PERR_DATA, [], .ro⟩,
  ⟨BRG_PERR_CTL_CLR_CNT, [], .wo⟩,
  ⟨BRG_PERR_CTL_POP, [], .wo⟩,
  ⟨BRG_NP_ERR, [], .ro⟩,
  ⟨BRG_LINK_CNT_RETRY 0, [(5, 0x10)], .ro⟩,
  ⟨BRG_LINK_CNT_FAULTS 0, [(5, 0x10)], .ro⟩,
  ⟨BRG_LINK_CNT_BURSTS 0, [(5, 0x10)], .ro⟩,
  ⟨BRG_LINK_WCE_UE 0, [(5, 0x10)], .ro⟩,
  ⟨BRG_LINK_WCE_CE 0, [(5, 0x10)], .ro⟩,
  ⟨BRG_POST_SEQ 0, [(5, 0x10)], .ro⟩]

def rowsBrg : List FRow := rowsBrg0

def rowsPs0 : List FRow := [
  ⟨PS_ID_VENDOR 0, [(4, 0x10000)], .ro⟩,
  ⟨PS_ID_TYPE 0, [(4, 0x10000)], .ro⟩,
  ⟨PS_ID_DIE 0, [(4, 0x10000)], .ro⟩,
  ⟨PS_ID_REV 0, [(4, 0x10000)], .ro⟩,
  ⟨PS_SUP_FB_APPLIED 0, [(4, 0x10000)], .w1c⟩,
  ⟨PS_SUP_HOLD_LEFT 0, [(4, 0x10000)], .ro⟩,
  ⟨PS_SUP_STATE 0, [(4, 0x10000)], .ro⟩,
  ⟨PS_CFG 0, [(4, 0x10000)], .rw⟩,
  ⟨PS_STAT_TDIE 0, [(4, 0x10000)], .ro⟩,
  ⟨PS_STAT_VSTAGE 0, [(4, 0x10000)], .ro⟩,
  ⟨PS_STAT_SENSOR_FAIL 0, [(4, 0x10000)], .ro⟩,
  ⟨PS_STAT_UV 0, [(4, 0x10000)], .ro⟩,
  ⟨PS_STAT_CEIL 0, [(4, 0x10000)], .ro⟩,
  ⟨PS_STAT_DERATE 0, [(4, 0x10000)], .ro⟩,
  ⟨PS_STAT_RSTSEQ 0, [(4, 0x10000)], .ro⟩,
  ⟨PS_ISUM 0, [(4, 0x10000)], .ro⟩,
  ⟨PS_DIEFLAG_SHED_NONE 0, [(4, 0x10000)], .w1c⟩,
  ⟨PS_DIEFLAG_SHED 0, [(4, 0x10000)], .w1c⟩,
  ⟨PS_DIEFLAG_CEIL_REFUSE 0, [(4, 0x10000)], .w1c⟩,
  ⟨PS_DIEFLAG_RESTART 0, [(4, 0x10000)], .w1c⟩,
  ⟨PS_DIEFLAG_UV_OFF 0, [(4, 0x10000)], .w1c⟩,
  ⟨PS_DIEFLAG_SENSOR_FAIL 0, [(4, 0x10000)], .w1c⟩,
  ⟨PS_DIEFLAG_OVERTEMP 0, [(4, 0x10000)], .w1c⟩,
  ⟨PS_DIEFLAG_DERATE_OUT 0, [(4, 0x10000)], .w1c⟩,
  ⟨PS_DIEFLAG_DERATE_IN 0, [(4, 0x10000)], .w1c⟩,
  ⟨PS_CH_CMD_MASK 0, [(4, 0x10000)], .wo⟩,
  ⟨PS_CH_CMD_REQ 0, [(4, 0x10000)], .wo⟩,
  ⟨PS_CH_REQ 0, [(4, 0x10000)], .ro⟩,
  ⟨PS_CH_CLEAR 0, [(4, 0x10000)], .wo⟩,
  ⟨PS_BR_CMD_MASK 0, [(4, 0x10000)], .wo⟩,
  ⟨PS_BR_CMD_DIR1 0, [(4, 0x10000)], .wo⟩,
  ⟨PS_BR_CMD_DIR0 0, [(4, 0x10000)], .wo⟩,
  ⟨PS_BR_DIR_DIR1 0, [(4, 0x10000)], .ro⟩,
  ⟨PS_BR_DIR_DIR0 0, [(4, 0x10000)], .ro⟩,
  ⟨PS_CH_LIM 0, [(4, 0x10000)], .rw⟩,
  ⟨PS_INFO_CLR_DIE 0, [(4, 0x10000)], .wo⟩,
  ⟨PS_INFO_CLR_CNT 0, [(4, 0x10000)], .wo⟩,
  ⟨PS_INFO_CLR_CH 0, [(4, 0x10000)], .wo⟩,
  ⟨PS_DIAG_LATCH 0, [(4, 0x10000)], .wo⟩,
  ⟨PS_LATCHED 0, [(4, 0x10000)], .ro⟩]

def rowsPs1 : List FRow := [
  ⟨PS_CH_PROT0_OLOFF_EN 0 0, [(4, 0x10000), (12, 0x20)], .rw⟩,
  ⟨PS_CH_PROT0_RETRY_OFF 0 0, [(4, 0x10000), (12, 0x20)], .rw⟩,
  ⟨PS_CH_PROT0_RETRY_MAX 0 0, [(4, 0x10000), (12, 0x20)], .rw⟩,
  ⟨PS_CH_PROT0_INRUSH_MS 0 0, [(4, 0x10000), (12, 0x20)], .rw⟩,
  ⟨PS_CH_PROT1_WIRE_TAU 0 0, [(4, 0x10000), (12, 0x20)], .rw⟩,
  ⟨PS_CH_PROT1_WIRE_CS 0 0, [(4, 0x10000), (12, 0x20)], .rw⟩,
  ⟨PS_CH_PROT2_WIRE_MAX 0 0, [(4, 0x10000), (12, 0x20)], .rw⟩,
  ⟨PS_CH_PROT2_WIRE_AMB 0 0, [(4, 0x10000), (12, 0x20)], .rw⟩,
  ⟨PS_CH_DTINIT 0 0, [(4, 0x10000), (12, 0x20)], .rw⟩,
  ⟨PS_CH_ROUTE_FALLBACK 0 0, [(4, 0x10000), (12, 0x20)], .rw⟩,
  ⟨PS_CH_ROUTE_TLOSS 0 0, [(4, 0x10000), (12, 0x20)], .rw⟩,
  ⟨PS_CH_ROUTE_DIRECT_REQ 0 0, [(4, 0x10000), (12, 0x20)], .rw⟩,
  ⟨PS_CH_ROUTE_INV 0 0, [(4, 0x10000), (12, 0x20)], .rw⟩,
  ⟨PS_CH_ROUTE_SRC 0 0, [(4, 0x10000), (12, 0x20)], .rw⟩,
  ⟨PS_CH_COMMIT_APPLIED 0 0, [(4, 0x10000), (12, 0x20)], .ro⟩,
  ⟨PS_CH_COMMIT_DIRTY 0 0, [(4, 0x10000), (12, 0x20)], .ro⟩,
  ⟨PS_BR_SET 0 0, [(4, 0x10000), (2, 8)], .rw⟩,
  ⟨PS_BR_COMMIT_APPLIED 0 0, [(4, 0x10000), (2, 8)], .ro⟩,
  ⟨PS_BR_COMMIT_DIRTY 0 0, [(4, 0x10000), (2, 8)], .ro⟩,
  ⟨PS_LATCH_DIAG 0 0, [(4, 0x10000), (12, 8)], .ro⟩,
  ⟨PS_LATCH_STAT 0 0, [(4, 0x10000), (12, 8)], .ro⟩,
  ⟨PS_LATCH_DIE0 0, [(4, 0x10000)], .ro⟩,
  ⟨PS_LATCH_DIE1_FB_APPLIED 0, [(4, 0x10000)], .ro⟩,
  ⟨PS_LATCH_DIE1_STATE 0, [(4, 0x10000)], .ro⟩,
  ⟨PS_LATCH_DIE1_ISUM 0, [(4, 0x10000)], .ro⟩,
  ⟨PS_CH_STAT_EV_SHORT 0 0, [(4, 0x10000), (12, 0x10)], .w1c⟩,
  ⟨PS_CH_STAT_EV_OPEN_OFF 0 0, [(4, 0x10000), (12, 0x10)], .w1c⟩,
  ⟨PS_CH_STAT_EV_OPEN_ON 0 0, [(4, 0x10000), (12, 0x10)], .w1c⟩,
  ⟨PS_CH_STAT_EV_STATE 0 0, [(4, 0x10000), (12, 0x10)], .w1c⟩,
  ⟨PS_CH_STAT_LIMCLS 0 0, [(4, 0x10000), (12, 0x10)], .ro⟩,
  ⟨PS_CH_STAT_REQ 0 0, [(4, 0x10000), (12, 0x10)], .ro⟩,
  ⟨PS_CH_STAT_LINE 0 0, [(4, 0x10000), (12, 0x10)], .ro⟩,
  ⟨PS_CH_STAT_SHORT_BAT 0 0, [(4, 0x10000), (12, 0x10)], .ro⟩,
  ⟨PS_CH_STAT_OPEN_OFF 0 0, [(4, 0x10000), (12, 0x10)], .ro⟩,
  ⟨PS_CH_STAT_OPEN_ON 0 0, [(4, 0x10000), (12, 0x10)], .ro⟩,
  ⟨PS_CH_STAT_LIMITING 0 0, [(4, 0x10000), (12, 0x10)], .ro⟩,
  ⟨PS_CH_STAT_RETRIES 0 0, [(4, 0x10000), (12, 0x10)], .ro⟩,
  ⟨PS_CH_STAT_CAUSE 0 0, [(4, 0x10000), (12, 0x10)], .ro⟩,
  ⟨PS_CH_STAT_STATE 0 0, [(4, 0x10000), (12, 0x10)], .ro⟩,
  ⟨PS_CH_DIAG_TW 0 0, [(4, 0x10000), (12, 0x10)], .ro⟩]

def rowsPs2 : List FRow := [
  ⟨PS_CH_DIAG_TJ 0 0, [(4, 0x10000), (12, 0x10)], .ro⟩,
  ⟨PS_CH_DIAG_I 0 0, [(4, 0x10000), (12, 0x10)], .ro⟩,
  ⟨PS_CH_FCNT0_DEFER 0 0, [(4, 0x10000), (12, 0x10)], .ro⟩,
  ⟨PS_CH_FCNT0_UV 0 0, [(4, 0x10000), (12, 0x10)], .ro⟩,
  ⟨PS_CH_FCNT0_LIMTIME 0 0, [(4, 0x10000), (12, 0x10)], .ro⟩,
  ⟨PS_CH_FCNT0_JTRIP 0 0, [(4, 0x10000), (12, 0x10)], .ro⟩,
  ⟨PS_CH_FCNT1_SHORT_BAT 0 0, [(4, 0x10000), (12, 0x10)], .ro⟩,
  ⟨PS_CH_FCNT1_OPEN 0 0, [(4, 0x10000), (12, 0x10)], .ro⟩,
  ⟨PS_CH_FCNT1_SHED 0 0, [(4, 0x10000), (12, 0x10)], .ro⟩,
  ⟨PS_CH_FCNT1_WIRE 0 0, [(4, 0x10000), (12, 0x10)], .ro⟩]

def rowsPs : List FRow := rowsPs0 ++ rowsPs1 ++ rowsPs2

def rowsLcc0 : List FRow := [
  ⟨LCC_CTL_LT_RUN, [], .rw⟩,
  ⟨LCC_CTL_DIES, [], .rw⟩,
  ⟨LCC_STAT_LT_VALID, [], .ro⟩,
  ⟨LCC_STAT_DIE_OK, [], .ro⟩,
  ⟨LCC_STAT_BUSY, [], .ro⟩,
  ⟨LCC_DIAG_CFG_EN, [], .rw⟩,
  ⟨LCC_DIAG_CFG_TCU, [], .rw⟩,
  ⟨LCC_DIAG_CFG_TRIG, [], .rw⟩,
  ⟨LCC_DIAG_CFG_LOG2, [], .rw⟩,
  ⟨LCC_DIAG_CFG_PER, [], .rw⟩,
  ⟨LCC_DIAG_BASE_LO, [], .rw⟩,
  ⟨LCC_DIAG_BASE_HI, [], .rw⟩,
  ⟨LCC_DIAG_WI, [], .ro⟩,
  ⟨LCC_DIAG_MISS, [], .ro⟩,
  ⟨LCC_LOAD_MAX, [], .ro⟩,
  ⟨LCC_LOAD_MEAN, [], .ro⟩,
  ⟨LCC_ERR_INFO_VALID, [], .ro⟩,
  ⟨LCC_ERR_INFO_NUM, [], .ro⟩,
  ⟨LCC_ERR_INFO_CAUSE, [], .ro⟩,
  ⟨LCC_ERR_INFO_DIE, [], .ro⟩,
  ⟨LCC_ERR_ADDR_LO, [], .ro⟩,
  ⟨LCC_ERR_ADDR_HI, [], .ro⟩,
  ⟨LCC_ERR_CTL_REARM, [], .wo⟩,
  ⟨LCC_ERR_CTL_NUM, [], .wo⟩,
  ⟨LCC_ERR_CNT, [], .ro⟩,
  ⟨LCC_SQ_DB, [], .wo⟩,
  ⟨LCC_CQ_DB, [], .wo⟩,
  ⟨LCC_LT_CFG_EN 0, [(24, 0x10)], .rw⟩,
  ⟨LCC_LT_CFG_PRESC 0, [(24, 0x10)], .rw⟩,
  ⟨LCC_LT_CFG_RS_EN 0, [(24, 0x10)], .rw⟩,
  ⟨LCC_LT_CFG_TCU 0, [(24, 0x10)], .rw⟩,
  ⟨LCC_LT_TIME_HIGH 0, [(24, 0x10)], .rw⟩,
  ⟨LCC_LT_TIME_PERIOD 0, [(24, 0x10)], .rw⟩,
  ⟨LCC_LT_PHASE 0, [(24, 0x10)], .rw⟩,
  ⟨RING_SQ_BASE_LO 0x40050100, [], .rw⟩,
  ⟨RING_SQ_BASE_HI 0x40050100, [], .rw⟩,
  ⟨RING_CQ_BASE_LO 0x40050100, [], .rw⟩,
  ⟨RING_CQ_BASE_HI 0x40050100, [], .rw⟩,
  ⟨RING_CIWB_LO 0x40050100, [], .rw⟩,
  ⟨RING_CIWB_HI 0x40050100, [], .rw⟩]

def rowsLcc1 : List FRow := [
  ⟨RING_CFG_EN 0x40050100, [], .rw⟩,
  ⟨RING_CFG_GEN 0x40050100, [], .rw⟩,
  ⟨RING_CFG_CQ_LOG2 0x40050100, [], .rw⟩,
  ⟨RING_CFG_SQ_LOG2 0x40050100, [], .rw⟩,
  ⟨RING_STAT_STOPPED 0x40050100, [], .ro⟩,
  ⟨RING_STAT_CAUSE 0x40050100, [], .ro⟩,
  ⟨RING_STAT_SQ_CI 0x40050100, [], .ro⟩]

def rowsLcc : List FRow := rowsLcc0 ++ rowsLcc1

def rowsEth0 : List FRow := [
  ⟨ETH_CTL_AGE, [], .rw⟩,
  ⟨ETH_CTL_SW_EN, [], .rw⟩,
  ⟨ETH_STAT, [], .ro⟩,
  ⟨ETH_TBL_CMD_INDEX, [], .wo⟩,
  ⟨ETH_TBL_CMD_OP, [], .wo⟩,
  ⟨ETH_TBL_CMD_TABLE, [], .wo⟩,
  ⟨ETH_TBL_STAT_BUSY, [], .ro⟩,
  ⟨ETH_TBL_STAT_INDEX, [], .ro⟩,
  ⟨ETH_TBL_STAT_RESULT, [], .ro⟩,
  ⟨ETH_TBL_DATA 0, [(8, 4)], .rw⟩,
  ⟨ETH_ERR_INFO_VALID, [], .ro⟩,
  ⟨ETH_ERR_INFO_CAUSE, [], .ro⟩,
  ⟨ETH_ERR_INFO_PORT, [], .ro⟩,
  ⟨ETH_ERR_ADDR_LO, [], .ro⟩,
  ⟨ETH_ERR_ADDR_HI, [], .ro⟩,
  ⟨ETH_ERR_CTL, [], .wo⟩,
  ⟨ETH_SQ_DB 0, [(12, 8)], .wo⟩,
  ⟨ETH_CQ_DB 0, [(12, 8)], .wo⟩,
  ⟨ETH_VF_MAC_LO 0 0, [(16, 0x40), (4, 8)], .rw⟩,
  ⟨ETH_VF_MAC_HI_EN 0 0, [(16, 0x40), (4, 8)], .rw⟩,
  ⟨ETH_VF_MAC_HI_MAC 0 0, [(16, 0x40), (4, 8)], .rw⟩,
  ⟨ETH_VF_CFG_VID 0, [(16, 0x40)], .rw⟩,
  ⟨ETH_VF_CFG_MCAST_ALL 0, [(16, 0x40)], .rw⟩,
  ⟨ETH_VF_CFG_BCAST 0, [(16, 0x40)], .rw⟩,
  ⟨RING_SQ_BASE_LO 0x40060100, [(12, 0x20)], .rw⟩,
  ⟨RING_SQ_BASE_HI 0x40060100, [(12, 0x20)], .rw⟩,
  ⟨RING_CQ_BASE_LO 0x40060100, [(12, 0x20)], .rw⟩,
  ⟨RING_CQ_BASE_HI 0x40060100, [(12, 0x20)], .rw⟩,
  ⟨RING_CIWB_LO 0x40060100, [(12, 0x20)], .rw⟩,
  ⟨RING_CIWB_HI 0x40060100, [(12, 0x20)], .rw⟩,
  ⟨RING_CFG_EN 0x40060100, [(12, 0x20)], .rw⟩,
  ⟨RING_CFG_GEN 0x40060100, [(12, 0x20)], .rw⟩,
  ⟨RING_CFG_CQ_LOG2 0x40060100, [(12, 0x20)], .rw⟩,
  ⟨RING_CFG_SQ_LOG2 0x40060100, [(12, 0x20)], .rw⟩,
  ⟨RING_STAT_STOPPED 0x40060100, [(12, 0x20)], .ro⟩,
  ⟨RING_STAT_CAUSE 0x40060100, [(12, 0x20)], .ro⟩,
  ⟨RING_STAT_SQ_CI 0x40060100, [(12, 0x20)], .ro⟩]

def rowsEth : List FRow := rowsEth0

def rowsPort0 : List FRow := [
  ⟨PORT_CFG_DEF_PCP 0, [(10, 0x100)], .rw⟩,
  ⟨PORT_CFG_PVID 0, [(10, 0x100)], .rw⟩,
  ⟨PORT_CFG_ACCEPT 0, [(10, 0x100)], .rw⟩,
  ⟨PORT_CFG_PSFP_EN 0, [(10, 0x100)], .rw⟩,
  ⟨PORT_CFG_FRER_EN 0, [(2, 0x100)], .rw⟩,
  ⟨PORT_CFG_QBV_EN 0, [(8, 0x100)], .rw⟩,
  ⟨PORT_CFG_LEARN 0, [(8, 0x100)], .rw⟩,
  ⟨PORT_CFG_MS 0, [(6, 0x100)], .rw⟩,
  ⟨PORT_CFG_EN 0, [(10, 0x100)], .rw⟩,
  ⟨PORT_STAT_QBV_PEND 0, [(8, 0x100)], .ro⟩,
  ⟨PORT_STAT_QBV_BANK 0, [(8, 0x100)], .ro⟩,
  ⟨PORT_STAT_SQI 0, [(6, 0x100)], .ro⟩,
  ⟨PORT_STAT_PLCA_ACT 6, [(2, 0x100)], .ro⟩,
  ⟨PORT_STAT_LINK 0, [(10, 0x100)], .ro⟩,
  ⟨PORT_PLCA_CFG_TO_TIMER 6, [(2, 0x100)], .rw⟩,
  ⟨PORT_PLCA_CFG_NODE_CNT 6, [(2, 0x100)], .rw⟩,
  ⟨PORT_PLCA_CFG_NODE_ID 6, [(2, 0x100)], .rw⟩,
  ⟨PORT_PLCA_CFG_PLCA_EN 6, [(2, 0x100)], .rw⟩,
  ⟨PORT_QBV_CTL_DEF_GATES 0, [(8, 0x100)], .rw⟩,
  ⟨PORT_QBV_CTL_LEN 0, [(8, 0x100)], .rw⟩,
  ⟨PORT_QBV_CTL_APPLY 0, [(8, 0x100)], .wo⟩,
  ⟨PORT_QBV_BASE_LO 0, [(8, 0x100)], .rw⟩,
  ⟨PORT_QBV_BASE_HI 0, [(8, 0x100)], .rw⟩,
  ⟨PORT_QBV_CYCLE 0, [(8, 0x100)], .rw⟩,
  ⟨PORT_QBV_EXT 0, [(8, 0x100)], .rw⟩,
  ⟨PORT_SEC_CFG_REPLAY_WIN 0, [(6, 0x100)], .rw⟩,
  ⟨PORT_SEC_CFG_TX_SA 0, [(6, 0x100)], .rw⟩,
  ⟨PORT_SEC_CFG_REPLAY 0, [(6, 0x100)], .rw⟩,
  ⟨PORT_SEC_CFG_CIPHER 0, [(6, 0x100)], .rw⟩,
  ⟨PORT_SEC_CFG_CONF 0, [(6, 0x100)], .rw⟩,
  ⟨PORT_SEC_CFG_EN 0, [(6, 0x100)], .rw⟩,
  ⟨PORT_SEC_STAT_PN_EXH 0, [(6, 0x100)], .w1c⟩,
  ⟨PORT_SEC_STAT_PN_THR 0, [(6, 0x100)], .w1c⟩,
  ⟨PORT_SEC_STAT_RXKEY 0, [(6, 0x100)], .ro⟩,
  ⟨PORT_SEC_STAT_TXKEY 0, [(6, 0x100)], .ro⟩,
  ⟨PORT_SEC_TXSCI_LO 0, [(6, 0x100)], .rw⟩,
  ⟨PORT_SEC_TXSCI_HI 0, [(6, 0x100)], .rw⟩,
  ⟨PORT_SEC_RXSCI_LO 0 0, [(6, 0x100), (4, 8)], .rw⟩,
  ⟨PORT_SEC_RXSCI_HI 0 0, [(6, 0x100), (4, 8)], .rw⟩,
  ⟨PORT_SEC_TXPN_LO 0 0, [(6, 0x100), (2, 8)], .ro⟩]

def rowsPort1 : List FRow := [
  ⟨PORT_SEC_TXPN_HI 0 0, [(6, 0x100), (2, 8)], .ro⟩,
  ⟨PORT_SEC_RXPN_LO 0 0, [(6, 0x100), (8, 8)], .ro⟩,
  ⟨PORT_SEC_RXPN_HI 0 0, [(6, 0x100), (8, 8)], .ro⟩,
  ⟨PORT_RX_FRAMES_LO 0, [(10, 0x100)], .ro⟩,
  ⟨PORT_RX_FRAMES_HI 0, [(10, 0x100)], .ro⟩,
  ⟨PORT_TX_FRAMES_LO 0, [(10, 0x100)], .ro⟩,
  ⟨PORT_TX_FRAMES_HI 0, [(10, 0x100)], .ro⟩,
  ⟨PORT_RX_DROP 0, [(10, 0x100)], .ro⟩,
  ⟨PORT_TX_DROP 0, [(10, 0x100)], .ro⟩,
  ⟨PORT_SEC_BAD 0, [(6, 0x100)], .ro⟩,
  ⟨PORT_TX_ABORT 0, [(10, 0x100)], .ro⟩,
  ⟨PORT_QBV_WAIT 0, [(8, 0x100)], .ro⟩,
  ⟨PORT_CNT_CTL 0, [(10, 0x100)], .wo⟩]

def rowsPort : List FRow := rowsPort0 ++ rowsPort1

def rowsTime0 : List FRow := [
  ⟨TIME_NOW_LO, [], .ro⟩,
  ⟨TIME_NOW_HI, [], .ro⟩,
  ⟨TIME_NOW_EP, [], .ro⟩,
  ⟨TIME_CTL_SYNC_TO, [], .rw⟩,
  ⟨TIME_CTL_SLAVE_PORT, [], .rw⟩,
  ⟨TIME_CTL_STEP_EN, [], .rw⟩,
  ⟨TIME_CTL_SERVO_EN, [], .rw⟩,
  ⟨TIME_CTL_GM, [], .rw⟩,
  ⟨TIME_SET_LO, [], .rw⟩,
  ⟨TIME_SET_HI, [], .rw⟩,
  ⟨TIME_CMD_CLR_CNT, [], .wo⟩,
  ⟨TIME_CMD_CLR_INT, [], .wo⟩,
  ⟨TIME_CMD_ADJ, [], .wo⟩,
  ⟨TIME_CMD_SET, [], .wo⟩,
  ⟨TIME_ADJ, [], .rw⟩,
  ⟨TIME_FREQ, [], .rw⟩,
  ⟨TIME_GAIN_KI, [], .rw⟩,
  ⟨TIME_GAIN_KP, [], .rw⟩,
  ⟨TIME_STEP_THR, [], .rw⟩,
  ⟨TIME_LINKDELAY, [], .rw⟩,
  ⟨TIME_OFFSET, [], .ro⟩,
  ⟨TIME_STAT_EPOCH, [], .ro⟩,
  ⟨TIME_STAT_CLAMP, [], .ro⟩,
  ⟨TIME_STAT_STATE, [], .ro⟩,
  ⟨TIME_LOCK_LOCK_N, [], .rw⟩,
  ⟨TIME_LOCK_LOCK_THR, [], .rw⟩,
  ⟨TIME_SYNC_CNT_REJECT, [], .ro⟩,
  ⟨TIME_SYNC_CNT_USED, [], .ro⟩,
  ⟨TIME_EPOCH_INIT, [], .rwo⟩,
  ⟨TIME_STEP_OLD_LO, [], .ro⟩,
  ⟨TIME_STEP_OLD_HI, [], .ro⟩,
  ⟨TIME_STEP_NEW_LO, [], .ro⟩,
  ⟨TIME_STEP_NEW_HI, [], .ro⟩,
  ⟨TIME_TCU_CMP_LO 0, [(16, 0x20)], .rw⟩,
  ⟨TIME_TCU_CMP_HI 0, [(16, 0x20)], .rw⟩,
  ⟨TIME_TCU_PER 0, [(16, 0x20)], .rw⟩,
  ⟨TIME_TCU_CFG_LATE 0, [(16, 0x20)], .w1c⟩,
  ⟨TIME_TCU_CFG_EVT_EN 0, [(16, 0x20)], .rw⟩,
  ⟨TIME_TCU_CFG_STEP_POL 0, [(16, 0x20)], .rw⟩,
  ⟨TIME_TCU_CFG_EN 0, [(16, 0x20)], .rw⟩]

def rowsTime1 : List FRow := [
  ⟨TIME_TCU_MISS 0, [(16, 0x20)], .ro⟩]

def rowsTime : List FRow := rowsTime0 ++ rowsTime1

def rowsCan0 : List FRow := [
  ⟨CAN_CTL_RECOVER 0, [(12, 0x1000)], .wo⟩,
  ⟨CAN_CTL_TDC_EN 0, [(12, 0x1000)], .rw⟩,
  ⟨CAN_CTL_TRIPLE 0, [(12, 0x1000)], .rw⟩,
  ⟨CAN_CTL_MODE 0, [(12, 0x1000)], .rw⟩,
  ⟨CAN_CTL_FD_EN 0, [(12, 0x1000)], .rw⟩,
  ⟨CAN_CTL_EN 0, [(12, 0x1000)], .rw⟩,
  ⟨CAN_NBT_SJW 0, [(12, 0x1000)], .rw⟩,
  ⟨CAN_NBT_TSEG1 0, [(12, 0x1000)], .rw⟩,
  ⟨CAN_NBT_TSEG2 0, [(12, 0x1000)], .rw⟩,
  ⟨CAN_NBT_BRP 0, [(12, 0x1000)], .rw⟩,
  ⟨CAN_DBT_SJW 0, [(12, 0x1000)], .rw⟩,
  ⟨CAN_DBT_TSEG1 0, [(12, 0x1000)], .rw⟩,
  ⟨CAN_DBT_TSEG2 0, [(12, 0x1000)], .rw⟩,
  ⟨CAN_DBT_BRP 0, [(12, 0x1000)], .rw⟩,
  ⟨CAN_TDC_TDCV 0, [(12, 0x1000)], .ro⟩,
  ⟨CAN_TDC_TDCO 0, [(12, 0x1000)], .rw⟩,
  ⟨CAN_STAT_TEC 0, [(12, 0x1000)], .ro⟩,
  ⟨CAN_STAT_RP 0, [(12, 0x1000)], .ro⟩,
  ⟨CAN_STAT_REC 0, [(12, 0x1000)], .ro⟩,
  ⟨CAN_STAT_CFG_ERR 0, [(12, 0x1000)], .w1c⟩,
  ⟨CAN_STAT_TDC_FAIL 0, [(12, 0x1000)], .w1c⟩,
  ⟨CAN_STAT_RECOVERING 0, [(12, 0x1000)], .ro⟩,
  ⟨CAN_STAT_STATE 0, [(12, 0x1000)], .ro⟩,
  ⟨CAN_ERR_CAP_VALID 0, [(12, 0x1000)], .ro⟩,
  ⟨CAN_ERR_CAP_TYPE 0, [(12, 0x1000)], .ro⟩,
  ⟨CAN_ERR_CAP_PHASE 0, [(12, 0x1000)], .ro⟩,
  ⟨CAN_ERR_CAP_TX 0, [(12, 0x1000)], .ro⟩,
  ⟨CAN_CMD_CLR_CNT 0, [(12, 0x1000)], .wo⟩,
  ⟨CAN_CMD_REARM 0, [(12, 0x1000)], .wo⟩,
  ⟨CAN_TX_CNT 0, [(12, 0x1000)], .ro⟩,
  ⟨CAN_RX_CNT 0, [(12, 0x1000)], .ro⟩,
  ⟨CAN_ERR_CNT 0, [(12, 0x1000)], .ro⟩,
  ⟨CAN_ARB_CNT 0, [(12, 0x1000)], .ro⟩,
  ⟨CAN_LOST_CNT 0, [(12, 0x1000)], .ro⟩,
  ⟨CAN_TS 0, [(12, 0x1000)], .ro⟩,
  ⟨CAN_TSY_CNT 0 0, [(12, 0x1000), (2, 0x10)], .ro⟩,
  ⟨CAN_TSY_TLO 0 0, [(12, 0x1000), (2, 0x10)], .ro⟩,
  ⟨CAN_TSY_THI 0 0, [(12, 0x1000), (2, 0x10)], .ro⟩,
  ⟨CAN_TSY_INFO_EPOCH 0 0, [(12, 0x1000), (2, 0x10)], .ro⟩,
  ⟨CAN_TSY_INFO_STEP 0 0, [(12, 0x1000), (2, 0x10)], .ro⟩]

def rowsCan1 : List FRow := [
  ⟨CAN_TSY_INFO_SEQ 0 0, [(12, 0x1000), (2, 0x10)], .ro⟩,
  ⟨CAN_SLOT_LO 0, [(12, 0x1000)], .ro⟩,
  ⟨CAN_SLOT_HI 0, [(12, 0x1000)], .ro⟩]

def rowsCan : List FRow := rowsCan0 ++ rowsCan1

def rowsCgw0 : List FRow := [
  ⟨CGW_CTL_P9_EN, [], .rw⟩,
  ⟨CGW_CTL_ROUTE_EN, [], .rw⟩,
  ⟨CGW_CTL_EN, [], .rw⟩,
  ⟨CGW_DEFAULT, [], .rw⟩,
  ⟨CGW_STAT_KEYS, [], .ro⟩,
  ⟨CGW_STAT_ISO, [], .ro⟩,
  ⟨CGW_MAC_HI, [], .rw⟩,
  ⟨CGW_MAC_LO, [], .rw⟩,
  ⟨CGW_TBL_CMD_INDEX, [], .wo⟩,
  ⟨CGW_TBL_CMD_OP, [], .wo⟩,
  ⟨CGW_TBL_CMD_TABLE, [], .wo⟩,
  ⟨CGW_TBL_STAT_BUSY, [], .ro⟩,
  ⟨CGW_TBL_STAT_RESULT, [], .ro⟩,
  ⟨CGW_TBL_DATA 0, [(8, 4)], .rw⟩,
  ⟨CGW_ERR_INFO_VALID, [], .ro⟩,
  ⟨CGW_ERR_INFO_CAUSE, [], .ro⟩,
  ⟨CGW_ERR_INFO_RING, [], .ro⟩,
  ⟨CGW_ERR_ADDR_LO, [], .ro⟩,
  ⟨CGW_ERR_ADDR_HI, [], .ro⟩,
  ⟨CGW_ERR_CTL_CLR_CNT, [], .wo⟩,
  ⟨CGW_ERR_CTL_REARM, [], .wo⟩,
  ⟨CGW_ROUTE_DROP, [], .ro⟩,
  ⟨CGW_ISO_DROP, [], .ro⟩,
  ⟨CGW_AUTH_FAIL, [], .ro⟩,
  ⟨CGW_ETH_SKIP, [], .ro⟩,
  ⟨CGW_RX_LOST, [], .ro⟩,
  ⟨CGW_FIFO_BAD, [], .ro⟩,
  ⟨CGW_FIFOSRC_EN 0, [(2, 4)], .rw⟩,
  ⟨CGW_FIFOSRC_FIFO 0, [(2, 4)], .rw⟩,
  ⟨CGW_SQ_DB 0, [(8, 8)], .wo⟩,
  ⟨CGW_CQ_DB 0, [(8, 8)], .wo⟩,
  ⟨RING_SQ_BASE_LO 0x40090100, [(8, 0x20)], .rw⟩,
  ⟨RING_SQ_BASE_HI 0x40090100, [(8, 0x20)], .rw⟩,
  ⟨RING_CQ_BASE_LO 0x40090100, [(8, 0x20)], .rw⟩,
  ⟨RING_CQ_BASE_HI 0x40090100, [(8, 0x20)], .rw⟩,
  ⟨RING_CIWB_LO 0x40090100, [(8, 0x20)], .rw⟩,
  ⟨RING_CIWB_HI 0x40090100, [(8, 0x20)], .rw⟩,
  ⟨RING_CFG_EN 0x40090100, [(8, 0x20)], .rw⟩,
  ⟨RING_CFG_GEN 0x40090100, [(8, 0x20)], .rw⟩,
  ⟨RING_CFG_CQ_LOG2 0x40090100, [(8, 0x20)], .rw⟩]

def rowsCgw1 : List FRow := [
  ⟨RING_CFG_SQ_LOG2 0x40090100, [(8, 0x20)], .rw⟩,
  ⟨RING_STAT_STOPPED 0x40090100, [(8, 0x20)], .ro⟩,
  ⟨RING_STAT_CAUSE 0x40090100, [(8, 0x20)], .ro⟩,
  ⟨RING_STAT_SQ_CI 0x40090100, [(8, 0x20)], .ro⟩]

def rowsCgw : List FRow := rowsCgw0 ++ rowsCgw1

def rowsNmw0 : List FRow := [
  ⟨NMW_CTL_LATE_WIN, [], .rw⟩,
  ⟨NMW_CTL_EN, [], .rw⟩,
  ⟨NMW_STAT_ALL_ASLEEP, [], .ro⟩,
  ⟨NMW_STAT_ASLEEP, [], .ro⟩,
  ⟨NMW_CLOSING, [], .ro⟩,
  ⟨NMW_WAKE_REQ, [], .wo⟩,
  ⟨NMW_OWN_LANT_INT, [], .rw⟩,
  ⟨NMW_OWN_OWN_REASON, [], .rw⟩,
  ⟨NMW_OWN_OWN_SRC, [], .rw⟩,
  ⟨NMW_LANT_ETYPE, [], .rw⟩,
  ⟨NMW_LANT_DMAC_LO, [], .rw⟩,
  ⟨NMW_LANT_DMAC_HI, [], .rw⟩,
  ⟨NMW_LATE_LAST_SEG, [], .ro⟩,
  ⟨NMW_LATE_LAST_MS, [], .ro⟩,
  ⟨NMW_LATE_CNT, [], .ro⟩,
  ⟨NMW_CURFEW_CNT, [], .ro⟩,
  ⟨NMW_IGN_CNT, [], .ro⟩,
  ⟨NMW_ERR_INFO_VALID, [], .ro⟩,
  ⟨NMW_ERR_INFO_CAUSE, [], .ro⟩,
  ⟨NMW_ERR_INFO_SEG, [], .ro⟩,
  ⟨NMW_ERR_CTL_CLR_CNT, [], .wo⟩,
  ⟨NMW_ERR_CTL_REARM, [], .wo⟩]

def rowsNmw : List FRow := rowsNmw0

def rowsSeg0 : List FRow := [
  ⟨SEG_CTL_MANAGED 0, [(20, 0x40)], .rw⟩,
  ⟨SEG_CTL_HOLD 0, [(20, 0x40)], .rw⟩,
  ⟨SEG_CTL_ROUTE_WAKE 0, [(20, 0x40)], .rw⟩,
  ⟨SEG_CTL_LANT_AUTH 0, [(20, 0x40)], .rw⟩,
  ⟨SEG_CTL_AIDX 0, [(20, 0x40)], .rw⟩,
  ⟨SEG_CTL_WAKE_FAN 0, [(20, 0x40)], .rw⟩,
  ⟨SEG_TIME_CLOSE_T 0, [(20, 0x40)], .rw⟩,
  ⟨SEG_TIME_CLOSE_WAIT 0, [(20, 0x40)], .rw⟩,
  ⟨SEG_CURFEW_CURFEW_EXT 0, [(20, 0x40)], .rw⟩,
  ⟨SEG_CURFEW_CURFEW 0, [(20, 0x40)], .rw⟩,
  ⟨SEG_REASON 0, [(20, 0x40)], .rw⟩,
  ⟨SEG_EXEMPT 0, [(20, 0x40)], .rw⟩,
  ⟨SEG_LANT_ID_IDE 0, [(12, 0x40)], .rw⟩,
  ⟨SEG_LANT_ID_ID 0, [(12, 0x40)], .rw⟩,
  ⟨SEG_LANT_MASK 0, [(12, 0x40)], .rw⟩,
  ⟨SEG_STAT_LATE 0, [(20, 0x40)], .ro⟩,
  ⟨SEG_STAT_ISO 0, [(20, 0x40)], .ro⟩,
  ⟨SEG_STAT_STATE 0, [(20, 0x40)], .ro⟩,
  ⟨SEG_NEED 0, [(20, 0x40)], .ro⟩,
  ⟨SEG_CURFEWED 0, [(20, 0x40)], .w1c⟩,
  ⟨SEG_CURFEW_SET 0, [(20, 0x40)], .wo⟩,
  ⟨SEG_LAST_RELEASE 0, [(20, 0x40)], .ro⟩,
  ⟨SEG_LAST_AUTHZ 0, [(20, 0x40)], .ro⟩,
  ⟨SEG_LAST_REASON 0, [(20, 0x40)], .ro⟩,
  ⟨SEG_LAST_SRC 0, [(20, 0x40)], .ro⟩]

def rowsSeg : List FRow := rowsSeg0

def rowsSns0 : List FRow := [
  ⟨SNS_CTL_MD_TCU, [], .rw⟩,
  ⟨SNS_CTL_MD_EN, [], .rw⟩,
  ⟨SNS_CTL_SCAN_EVT, [], .rw⟩,
  ⟨SNS_CTL_SCAN_TCU, [], .rw⟩,
  ⟨SNS_CTL_SCAN_TRIG, [], .rw⟩,
  ⟨SNS_CTL_EN, [], .rw⟩,
  ⟨SNS_SCAN_MASK, [], .rw⟩,
  ⟨SNS_CMD_CLR_CNT, [], .wo⟩,
  ⟨SNS_CMD_REARM, [], .wo⟩,
  ⟨SNS_CMD_GO, [], .wo⟩,
  ⟨SNS_STAT_BUSY, [], .ro⟩,
  ⟨SNS_STAT_SEQ, [], .ro⟩,
  ⟨SNS_DIN, [], .ro⟩,
  ⟨SNS_EDGE_EN, [], .rw⟩,
  ⟨SNS_EDGE, [], .w1c⟩,
  ⟨SNS_BUF_LO 0, [(2, 0x10)], .rw⟩,
  ⟨SNS_BUF_HI_EN 0, [(2, 0x10)], .rw⟩,
  ⟨SNS_BUF_HI_LOG2 0, [(2, 0x10)], .rw⟩,
  ⟨SNS_BUF_HI_ADDR 0, [(2, 0x10)], .rw⟩,
  ⟨SNS_BUF_WI 0, [(2, 0x10)], .ro⟩,
  ⟨SNS_ERR_INFO_VALID, [], .ro⟩,
  ⟨SNS_ERR_INFO_CAUSE, [], .ro⟩,
  ⟨SNS_SKIP, [], .ro⟩,
  ⟨SNS_DC_DC_FILT, [], .rw⟩,
  ⟨SNS_DC_DCPOL, [], .rw⟩,
  ⟨SNS_DC_DC_EN, [], .rw⟩,
  ⟨SNS_WAKE, [], .rw⟩,
  ⟨SNS_CFG_DEB 0, [(32, 4)], .rw⟩,
  ⟨SNS_CFG_WET 0, [(32, 4)], .rw⟩,
  ⟨SNS_CFG_MODE 0, [(32, 4)], .rw⟩,
  ⟨SNS_RES_SEQ 0, [(32, 4)], .ro⟩,
  ⟨SNS_RES_CODE 0, [(32, 4)], .ro⟩]

def rowsSns : List FRow := rowsSns0

def rowsMd0 : List FRow := [
  ⟨MD_ID_VENDOR, [], .ro⟩,
  ⟨MD_ID_TYPE, [], .ro⟩,
  ⟨MD_ID_REV, [], .ro⟩,
  ⟨MD_STAT_ISO_OK, [], .ro⟩,
  ⟨MD_STAT_INTEG, [], .ro⟩,
  ⟨MD_STAT_RANGE_V, [], .ro⟩,
  ⟨MD_STAT_RANGE_I1, [], .ro⟩,
  ⟨MD_STAT_RANGE_I0, [], .ro⟩,
  ⟨MD_STAT_CHECK, [], .ro⟩,
  ⟨MD_STAT_ALIGNED, [], .ro⟩,
  ⟨MD_FLAG, [], .w1c⟩,
  ⟨MD_LATCH, [], .wo⟩,
  ⟨MD_SESSION, [], .ro⟩,
  ⟨MD_TIMING_EARLY, [], .ro⟩,
  ⟨MD_TIMING_FREE, [], .ro⟩,
  ⟨MD_SMP_SEQ, [], .ro⟩,
  ⟨MD_SMP_I0, [], .ro⟩,
  ⟨MD_SMP_I1, [], .ro⟩,
  ⟨MD_SMP_V, [], .ro⟩,
  ⟨MD_L_SEQ, [], .ro⟩,
  ⟨MD_L_I0, [], .ro⟩,
  ⟨MD_L_I1, [], .ro⟩,
  ⟨MD_L_V, [], .ro⟩,
  ⟨MD_L_EDIS_LO, [], .ro⟩,
  ⟨MD_L_EDIS_HI, [], .ro⟩,
  ⟨MD_L_ECHG_LO, [], .ro⟩,
  ⟨MD_L_ECHG_HI, [], .ro⟩,
  ⟨MD_L_CALCNT, [], .ro⟩,
  ⟨MD_SHUNT, [], .rw⟩,
  ⟨MD_CAL_GAIN 0, [(3, 4)], .rw⟩,
  ⟨MD_CAL_OFFSET 0, [(3, 4)], .rw⟩,
  ⟨MD_CFG_FLOW_THR, [], .rw⟩,
  ⟨MD_CFG_CHK_THR, [], .rw⟩,
  ⟨MD_CFG_INTEG_EN, [], .rw⟩,
  ⟨MD_COMMIT_APPLIED, [], .ro⟩,
  ⟨MD_COMMIT_DIRTY, [], .ro⟩]

def rowsMd : List FRow := rowsMd0

def rowsRec0 : List FRow := [
  ⟨REC_CTL_STMT_PER, [], .rw⟩,
  ⟨REC_CTL_NPUT, [], .rw⟩,
  ⟨REC_CTL_UNTRUSTED, [], .rw⟩,
  ⟨REC_STAT_READY, [], .ro⟩,
  ⟨REC_STAT_STMT_BUSY, [], .ro⟩,
  ⟨REC_STAT_CLR_BUSY, [], .ro⟩,
  ⟨REC_STAT_CLOSED, [], .ro⟩,
  ⟨REC_CMD_CLR_CNT, [], .wo⟩,
  ⟨REC_CMD_REARM, [], .wo⟩,
  ⟨REC_CMD_CLEAR, [], .wo⟩,
  ⟨REC_CMD_STMT, [], .wo⟩,
  ⟨REC_CMD_SNAP, [], .wo⟩,
  ⟨REC_CLR_RESULT, [], .ro⟩,
  ⟨REC_CLR_ADDR_LO, [], .rw⟩,
  ⟨REC_CLR_ADDR_HI, [], .rw⟩,
  ⟨REC_LB_P 0, [(3, 4)], .rw⟩,
  ⟨REC_LB_PUT_CODE, [], .wo⟩,
  ⟨REC_LB_PUT_FLAGS, [], .wo⟩,
  ⟨REC_SNAP_LB_OLD, [], .ro⟩,
  ⟨REC_SNAP_LB_NEW, [], .ro⟩,
  ⟨REC_SNAP_LG_OLD, [], .ro⟩,
  ⟨REC_SNAP_LG_NEW, [], .ro⟩,
  ⟨REC_SNAP_LG_ADDR, [], .ro⟩,
  ⟨REC_SNAP_INFO_NUM, [], .ro⟩,
  ⟨REC_SNAP_INFO_LG_CLR, [], .ro⟩,
  ⟨REC_SNAP_INFO_LB_CLR, [], .ro⟩,
  ⟨REC_SNAP_LB_CLR, [], .ro⟩,
  ⟨REC_SNAP_LG_CLR, [], .ro⟩,
  ⟨REC_TORN_LG, [], .ro⟩,
  ⟨REC_TORN_LB, [], .ro⟩,
  ⟨REC_LOST, [], .ro⟩,
  ⟨REC_ERR_INFO_VALID, [], .ro⟩,
  ⟨REC_ERR_INFO_CAUSE, [], .ro⟩,
  ⟨REC_STMT_LAST, [], .ro⟩]

def rowsRec : List FRow := rowsRec0

def rowsKey0 : List FRow := [
  ⟨KEY_CMD_TARGET 0, [(2, 0x80)], .wo⟩,
  ⟨KEY_CMD_DEST 0, [(2, 0x80)], .wo⟩,
  ⟨KEY_CMD_IDX 0, [(2, 0x80)], .wo⟩,
  ⟨KEY_CMD_OP 0, [(2, 0x80)], .wo⟩,
  ⟨KEY_ARG_LO 0, [(2, 0x80)], .rw⟩,
  ⟨KEY_ARG_HI 0, [(2, 0x80)], .rw⟩,
  ⟨KEY_ARG2_LO 0, [(2, 0x80)], .rw⟩,
  ⟨KEY_ARG2_HI 0, [(2, 0x80)], .rw⟩,
  ⟨KEY_AUX 0, [(2, 0x80)], .rw⟩,
  ⟨KEY_RESULT_BUSY 0, [(2, 0x80)], .ro⟩,
  ⟨KEY_RESULT_RESULT 0, [(2, 0x80)], .ro⟩,
  ⟨KEY_RESULT_OP 0, [(2, 0x80)], .ro⟩,
  ⟨KEY_STAT_HMAC, [], .ro⟩,
  ⟨KEY_STAT_SEALER, [], .ro⟩,
  ⟨KEY_STAT_REG, [], .ro⟩,
  ⟨KEY_SLOTS_LO, [], .ro⟩,
  ⟨KEY_SLOTS_HI, [], .ro⟩,
  ⟨KEY_TAMPER_SLEEP, [], .w1c⟩,
  ⟨KEY_TAMPER_RUN, [], .w1c⟩,
  ⟨KEY_TAMPER_BOOT, [], .ro⟩,
  ⟨KEY_TAMPER_CNT, [], .ro⟩,
  ⟨KEY_CTL, [], .wo⟩,
  ⟨KEY_MODID 0, [(4, 4)], .ro⟩,
  ⟨KEY_MEAS 0 0, [(16, 0x40), (12, 4)], .ro⟩]

def rowsKey : List FRow := rowsKey0

def rowsCry0 : List FRow := [
  ⟨CRY_CTL, [], .rw⟩,
  ⟨CRY_KEYS, [], .ro⟩,
  ⟨CRY_ERR_INFO_VALID, [], .ro⟩,
  ⟨CRY_ERR_INFO_CAUSE, [], .ro⟩,
  ⟨CRY_ERR_INFO_FN, [], .ro⟩,
  ⟨CRY_ERR_ADDR_LO, [], .ro⟩,
  ⟨CRY_ERR_ADDR_HI, [], .ro⟩,
  ⟨CRY_ERR_CTL_CLR_CNT, [], .wo⟩,
  ⟨CRY_ERR_CTL_REARM, [], .wo⟩,
  ⟨CRY_AUTHFAIL, [], .ro⟩,
  ⟨CRY_SQ_DB 0, [(6, 8)], .wo⟩,
  ⟨CRY_CQ_DB 0, [(6, 8)], .wo⟩,
  ⟨CRY_KEYMAP 0, [(16, 4)], .rw⟩,
  ⟨RING_SQ_BASE_LO 0x400d1100, [(6, 0x20)], .rw⟩,
  ⟨RING_SQ_BASE_HI 0x400d1100, [(6, 0x20)], .rw⟩,
  ⟨RING_CQ_BASE_LO 0x400d1100, [(6, 0x20)], .rw⟩,
  ⟨RING_CQ_BASE_HI 0x400d1100, [(6, 0x20)], .rw⟩,
  ⟨RING_CIWB_LO 0x400d1100, [(6, 0x20)], .rw⟩,
  ⟨RING_CIWB_HI 0x400d1100, [(6, 0x20)], .rw⟩,
  ⟨RING_CFG_EN 0x400d1100, [(6, 0x20)], .rw⟩,
  ⟨RING_CFG_GEN 0x400d1100, [(6, 0x20)], .rw⟩,
  ⟨RING_CFG_CQ_LOG2 0x400d1100, [(6, 0x20)], .rw⟩,
  ⟨RING_CFG_SQ_LOG2 0x400d1100, [(6, 0x20)], .rw⟩,
  ⟨RING_STAT_STOPPED 0x400d1100, [(6, 0x20)], .ro⟩,
  ⟨RING_STAT_CAUSE 0x400d1100, [(6, 0x20)], .ro⟩,
  ⟨RING_STAT_SQ_CI 0x400d1100, [(6, 0x20)], .ro⟩]

def rowsCry : List FRow := rowsCry0

def rowsWld0 : List FRow := [
  ⟨WLD_OWN, [], .ro⟩,
  ⟨WLD_HO_WORLD, [], .wo⟩,
  ⟨WLD_HO_BLOCK, [], .wo⟩,
  ⟨WLD_HO_STAT_BUSY, [], .ro⟩,
  ⟨WLD_HO_STAT_BLOCK, [], .ro⟩,
  ⟨WLD_HO_STAT_RESULT, [], .ro⟩,
  ⟨WLD_APPW, [], .rw⟩,
  ⟨WLD_LOCK, [], .rwo⟩,
  ⟨WLD_VIOL_INFO_VALID, [], .ro⟩,
  ⟨WLD_VIOL_INFO_ID, [], .ro⟩,
  ⟨WLD_VIOL_INFO_CAUSE, [], .ro⟩,
  ⟨WLD_VIOL_INFO_TPORT, [], .ro⟩,
  ⟨WLD_VIOL_INFO_WRITE, [], .ro⟩,
  ⟨WLD_VIOL_ADDR_LO, [], .ro⟩,
  ⟨WLD_VIOL_ADDR_HI, [], .ro⟩,
  ⟨WLD_VIOL_CNT, [], .ro⟩,
  ⟨WLD_CTL_CLR_CNT, [], .wo⟩,
  ⟨WLD_CTL_REARM, [], .wo⟩,
  ⟨WLD_RGN_BASE_EN 0, [(16, 8)], .rw⟩,
  ⟨WLD_RGN_BASE_BASE 0, [(16, 8)], .rw⟩,
  ⟨WLD_RGN_LIM 0, [(16, 8)], .rw⟩]

def rowsWld : List FRow := rowsWld0

def rowsDbg0 : List FRow := [
  ⟨DBG_ID, [], .ro⟩,
  ⟨DBG_STAT_ACTIVE, [], .ro⟩,
  ⟨DBG_STAT_TOKEN, [], .ro⟩,
  ⟨DBG_STAT_FW, [], .ro⟩,
  ⟨DBG_STAT_HALTED, [], .ro⟩,
  ⟨DBG_STAT_LEFT, [], .ro⟩,
  ⟨DBG_GRANT, [], .rw⟩,
  ⟨DBG_CMD_SYSRST, [], .wo⟩,
  ⟨DBG_CMD_LOCK, [], .wo⟩,
  ⟨DBG_CMD_SUBMIT, [], .wo⟩,
  ⟨DBG_CMD_CHALLENGE, [], .wo⟩,
  ⟨DBG_CHAL, [], .ro⟩,
  ⟨DBG_NONCE 0, [(4, 4)], .ro⟩,
  ⟨DBG_TOK_RESULT, [], .ro⟩,
  ⟨DBG_TBUF_IDX, [], .rw⟩,
  ⟨DBG_TBUF_DATA, [], .wo⟩,
  ⟨DBG_ACC_ADDR_LO, [], .rw⟩,
  ⟨DBG_ACC_ADDR_HI_WORLD, [], .rw⟩,
  ⟨DBG_ACC_ADDR_HI_ADDR, [], .rw⟩,
  ⟨DBG_ACC_DATA, [], .rw⟩,
  ⟨DBG_ACC_CMD_WRITE, [], .wo⟩,
  ⟨DBG_ACC_CMD_READ, [], .wo⟩,
  ⟨DBG_ACC_STAT_BUSY, [], .ro⟩,
  ⟨DBG_ACC_STAT_RESULT, [], .ro⟩]

def rowsDbg : List FRow := rowsDbg0

def rowsVfp0 : List FRow := [
  ⟨VFP_SQ_DB 0 0, [(16, 0x1000), (4, 8)], .wo⟩,
  ⟨VFP_CQ_DB 0 0, [(16, 0x1000), (4, 8)], .wo⟩,
  ⟨VFP_VF_GEN_STATE 0, [(16, 0x1000)], .ro⟩,
  ⟨VFP_VF_GEN_GEN 0, [(16, 0x1000)], .ro⟩,
  ⟨VFP_VF_CTL 0, [(16, 0x1000)], .wo⟩,
  ⟨VFP_VF_EVT_PEND 0, [(16, 0x1000)], .w1c⟩,
  ⟨VFP_VF_EVT_EN 0, [(16, 0x1000)], .rw⟩,
  ⟨VFP_VF_FWD_TOP_VALID 0, [(16, 0x1000)], .ro⟩,
  ⟨VFP_VF_FWD_TOP_PRIO 0, [(16, 0x1000)], .ro⟩,
  ⟨VFP_VF_FWD_TOP_EVENT 0, [(16, 0x1000)], .ro⟩,
  ⟨VFP_VF_FWD_ACK 0, [(16, 0x1000)], .wo⟩,
  ⟨RING_SQ_BASE_LO 0x41000100, [(16, 0x1000), (4, 0x20)], .rw⟩,
  ⟨RING_SQ_BASE_HI 0x41000100, [(16, 0x1000), (4, 0x20)], .rw⟩,
  ⟨RING_CQ_BASE_LO 0x41000100, [(16, 0x1000), (4, 0x20)], .rw⟩,
  ⟨RING_CQ_BASE_HI 0x41000100, [(16, 0x1000), (4, 0x20)], .rw⟩,
  ⟨RING_CIWB_LO 0x41000100, [(16, 0x1000), (4, 0x20)], .rw⟩,
  ⟨RING_CIWB_HI 0x41000100, [(16, 0x1000), (4, 0x20)], .rw⟩,
  ⟨RING_CFG_EN 0x41000100, [(16, 0x1000), (4, 0x20)], .rw⟩,
  ⟨RING_CFG_GEN 0x41000100, [(16, 0x1000), (4, 0x20)], .rw⟩,
  ⟨RING_CFG_CQ_LOG2 0x41000100, [(16, 0x1000), (4, 0x20)], .rw⟩,
  ⟨RING_CFG_SQ_LOG2 0x41000100, [(16, 0x1000), (4, 0x20)], .rw⟩,
  ⟨RING_STAT_STOPPED 0x41000100, [(16, 0x1000), (4, 0x20)], .ro⟩,
  ⟨RING_STAT_CAUSE 0x41000100, [(16, 0x1000), (4, 0x20)], .ro⟩,
  ⟨RING_STAT_SQ_CI 0x41000100, [(16, 0x1000), (4, 0x20)], .ro⟩,
  ⟨VFP_SQ_DB 16 0, [(8, 0x1000), (2, 8)], .wo⟩,
  ⟨VFP_CQ_DB 16 0, [(8, 0x1000), (2, 8)], .wo⟩,
  ⟨VFP_VF_GEN_STATE 16, [(8, 0x1000)], .ro⟩,
  ⟨VFP_VF_GEN_GEN 16, [(8, 0x1000)], .ro⟩,
  ⟨VFP_VF_CTL 16, [(8, 0x1000)], .wo⟩,
  ⟨VFP_VF_EVT_PEND 16, [(8, 0x1000)], .w1c⟩,
  ⟨VFP_VF_EVT_EN 16, [(8, 0x1000)], .rw⟩,
  ⟨VFP_VF_FWD_TOP_VALID 16, [(8, 0x1000)], .ro⟩,
  ⟨VFP_VF_FWD_TOP_PRIO 16, [(8, 0x1000)], .ro⟩,
  ⟨VFP_VF_FWD_TOP_EVENT 16, [(8, 0x1000)], .ro⟩,
  ⟨VFP_VF_FWD_ACK 16, [(8, 0x1000)], .wo⟩,
  ⟨RING_SQ_BASE_LO 0x41100100, [(8, 0x1000), (2, 0x20)], .rw⟩,
  ⟨RING_SQ_BASE_HI 0x41100100, [(8, 0x1000), (2, 0x20)], .rw⟩,
  ⟨RING_CQ_BASE_LO 0x41100100, [(8, 0x1000), (2, 0x20)], .rw⟩,
  ⟨RING_CQ_BASE_HI 0x41100100, [(8, 0x1000), (2, 0x20)], .rw⟩,
  ⟨RING_CIWB_LO 0x41100100, [(8, 0x1000), (2, 0x20)], .rw⟩]

def rowsVfp1 : List FRow := [
  ⟨RING_CIWB_HI 0x41100100, [(8, 0x1000), (2, 0x20)], .rw⟩,
  ⟨RING_CFG_EN 0x41100100, [(8, 0x1000), (2, 0x20)], .rw⟩,
  ⟨RING_CFG_GEN 0x41100100, [(8, 0x1000), (2, 0x20)], .rw⟩,
  ⟨RING_CFG_CQ_LOG2 0x41100100, [(8, 0x1000), (2, 0x20)], .rw⟩,
  ⟨RING_CFG_SQ_LOG2 0x41100100, [(8, 0x1000), (2, 0x20)], .rw⟩,
  ⟨RING_STAT_STOPPED 0x41100100, [(8, 0x1000), (2, 0x20)], .ro⟩,
  ⟨RING_STAT_CAUSE 0x41100100, [(8, 0x1000), (2, 0x20)], .ro⟩,
  ⟨RING_STAT_SQ_CI 0x41100100, [(8, 0x1000), (2, 0x20)], .ro⟩,
  ⟨VFP_SQ_DB 24 0, [(8, 0x1000), (1, 8)], .wo⟩,
  ⟨VFP_CQ_DB 24 0, [(8, 0x1000), (1, 8)], .wo⟩,
  ⟨VFP_VF_GEN_STATE 24, [(8, 0x1000)], .ro⟩,
  ⟨VFP_VF_GEN_GEN 24, [(8, 0x1000)], .ro⟩,
  ⟨VFP_VF_CTL 24, [(8, 0x1000)], .wo⟩,
  ⟨VFP_VF_EVT_PEND 24, [(8, 0x1000)], .w1c⟩,
  ⟨VFP_VF_EVT_EN 24, [(8, 0x1000)], .rw⟩,
  ⟨VFP_VF_FWD_TOP_VALID 24, [(8, 0x1000)], .ro⟩,
  ⟨VFP_VF_FWD_TOP_PRIO 24, [(8, 0x1000)], .ro⟩,
  ⟨VFP_VF_FWD_TOP_EVENT 24, [(8, 0x1000)], .ro⟩,
  ⟨VFP_VF_FWD_ACK 24, [(8, 0x1000)], .wo⟩,
  ⟨RING_SQ_BASE_LO 0x41180100, [(8, 0x1000), (1, 0x20)], .rw⟩,
  ⟨RING_SQ_BASE_HI 0x41180100, [(8, 0x1000), (1, 0x20)], .rw⟩,
  ⟨RING_CQ_BASE_LO 0x41180100, [(8, 0x1000), (1, 0x20)], .rw⟩,
  ⟨RING_CQ_BASE_HI 0x41180100, [(8, 0x1000), (1, 0x20)], .rw⟩,
  ⟨RING_CIWB_LO 0x41180100, [(8, 0x1000), (1, 0x20)], .rw⟩,
  ⟨RING_CIWB_HI 0x41180100, [(8, 0x1000), (1, 0x20)], .rw⟩,
  ⟨RING_CFG_EN 0x41180100, [(8, 0x1000), (1, 0x20)], .rw⟩,
  ⟨RING_CFG_GEN 0x41180100, [(8, 0x1000), (1, 0x20)], .rw⟩,
  ⟨RING_CFG_CQ_LOG2 0x41180100, [(8, 0x1000), (1, 0x20)], .rw⟩,
  ⟨RING_CFG_SQ_LOG2 0x41180100, [(8, 0x1000), (1, 0x20)], .rw⟩,
  ⟨RING_STAT_STOPPED 0x41180100, [(8, 0x1000), (1, 0x20)], .ro⟩,
  ⟨RING_STAT_CAUSE 0x41180100, [(8, 0x1000), (1, 0x20)], .ro⟩,
  ⟨RING_STAT_SQ_CI 0x41180100, [(8, 0x1000), (1, 0x20)], .ro⟩]

def rowsVfp : List FRow := rowsVfp0 ++ rowsVfp1

end Sys2Proof.Machine
end

