-- ==== Sys2Proof/Machine/State.lean ====
section
/-! DEFINITION. Everything the module holds: the register file (every field of every register map), what ISL_AON keeps, the
memories, the one-time-programmable memory, and, unit by unit, the state the spec gives the module beside its registers;
with the queue of commands that wait. Plain data throughout. -/

namespace Sys2Proof.Machine

/-- Where the module stands between power-on reset and sleep (Tables 2.4 to 2.7, R60, R67, R68). OPEN and SHADE are both `run`;
PWR_STATE.CUR tells them apart. -/
inductive Phase where
  /-- power-on reset is active -/
  | off
  /-- the converters are starting -/
  | converters
  /-- control die powered, PLLs locking -/
  | clocking
  /-- OTP and straps loaded, TCM and SRAM being zero-filled -/
  | zeroFill
  /-- SG0 has left reset and is in the boot ROM -/
  | bootRom
  /-- firmware runs (OPEN or SHADE) -/
  | run
  /-- the hold state of the boot ROM -/
  | hold
  /-- step 1 of a power-down: waiting for the recorder -/
  | down1
  /-- step 2 of a power-down has begun -/
  | down2
  /-- network sleep -/
  | dusk
  /-- deep sleep -/
  | closed
deriving DecidableEq, Repr

/-- What the crossbar answered last: an error response or not, the data of a read, and whether the initiator, as the consumer of the
word, found an uncorrectable codeword: a core's load or fetch then takes its access fault, and an engine stops (R26). -/
structure Resp where
  err : Bool
  data : Nat
  fault : Bool
deriving DecidableEq, Repr

/-- The arbiter of one target port (R32): how many class-0 grants it has given in a row, and the port granted last in each
class. -/
structure Arb where
  run0 : Nat
  last0 : Nat
  last1 : Nat
deriving DecidableEq, Repr

/-- A write to an ISL_AON mirror on its way: the register and the value written (R19). -/
structure MirrorWr where
  addr : Nat
  val : Nat
deriving DecidableEq, Repr

/-- The power controller beside its registers. -/
structure PowerSt where
  phase : Phase
  /-- target state of the transition in progress: 0 none, else as PWR_REQ.TARGET -/
  target : Nat
  /-- Ethernet PHYs held in reset (Table 2.1) -/
  phyHold : Bool
  /-- power gate of ISL_APP -/
  appOff : Bool
  /-- a write of CLK_ISL_GATE.SG1 waits for the next checkpoint -/
  sg1GateDue : Bool
  /-- the stage dies are powered -/
  stageOn : Bool
  /-- the metering die is powered -/
  mdOn : Bool
  /-- the IGN sense input is high -/
  ign : Bool
  /-- the half-period warning of the watchdog has been given in this period -/
  wdtWarned : Bool
  /-- the islands whose PLL has lost lock, by their bit in CLK_STAT.LOCK -/
  unlocked : Nat
  /-- tamper alarms latched in sleep and not yet recorded: the monitor's bit and the ISL_AON tick count (R478, R479) -/
  alarms : List (Nat × Nat)
  /-- the phase a cancelled power-down returns to -/
  back : Phase
  /-- VBAT in 10 mV as last measured, in every phase (R48) -/
  vbat : Option Nat
  /-- the temperature of the control die in quarters of a degree as last measured, in every phase (R77) -/
  temp : Option Int
  /-- RST_WDT_CNT.LEFT as last read since the last kick; none: not read since (R75) -/
  wdtLeft : Option Nat
deriving DecidableEq, Repr

/-- An entry of the undo log (Table 4.2), and whether it has been consumed by a restore or a replay (R144, R145). -/
structure UndoEnt where
  typ : Nat
  aux : Nat
  addr : Nat
  value : Nat
  used : Bool
deriving DecidableEq, Repr

/-- A once-write in a release queue (R142): the address of its codeword, the codeword (data and check bits), the byte strobes, and
the attributes. -/
structure RelqEnt where
  addr : Nat
  data : Nat
  check : Nat
  strobes : Nat
  beats : Nat
  secure : Bool
deriving DecidableEq, Repr

/-- A fabric read response at an agreement port (R99, R104): the lane's address, the fabric address, the data, whether it is an error
response, whether it holds an uncorrectable codeword, and whether it answers a fetch. -/
structure PortRead where
  lane : Nat
  addr : Nat
  data : Nat
  err : Bool
  fault : Bool
  fetch : Bool
deriving DecidableEq, Repr

/-- Where a lane group stands within Table 3.6's RESTART (R144): live, or in step 2, 3 or 4 of a restart. -/
inductive RestartStep where
  | live | resetting | restoring | replay
deriving DecidableEq, Repr

/-- A lane group beside its registers: masks of each lane since reset (R107); the lanes whose REJOIN_MAXWAIT has passed; REJOIN_NOW
written (R112); an idle window is open (R148); the step of a restart, and whether it is a group restart; the two halves of the
checkpoint buffer (registers by their DM number, R131); the undo log, oldest first; the release queue, oldest first; fabric
writes and retired instructions since the checkpoint; the interrupt line and halt request as last delivered (R99); whether its
lanes have left reset. -/
structure LaneGrp where
  started : Bool
  masks : List Nat
  late : Nat
  rejoinNow : Bool
  window : Bool
  step : RestartStep
  triple : Bool
  half0 : List (Nat × Nat)
  half1 : List (Nat × Nat)
  undo : List UndoEnt
  relq : List RelqEnt
  writes : Nat
  insns : Nat
  line : Bool
  halt : Bool
  /-- the interrupt line as delivered when the checkpoint was committed -/
  line0 : Bool
  /-- the input entries that the instruction now executing has logged (R130) -/
  tail : List UndoEnt
  /-- the read response that waits for its slot at the agreement port (R98, R113) -/
  port : Option PortRead
  /-- lane-relative cycles since the lanes left reset (R91) -/
  cycle : Nat
  /-- the interval has run out during a restart: the group commits at the first boundary after it (R144) -/
  commitDue : Bool
  /-- the lane of a SPLIT group that I0 served last (R118) -/
  turn : Nat
  /-- syndromes of the codewords of the undo log (from 0), of half 0 (from 2048) and of half 1 (from 2112) that are not clean (R131,
  R134) -/
  codes : List (Nat × Nat)
deriving DecidableEq, Repr

/-- A hart beside what it executes (R84, R160): its registers by their number in the Debug Module, the pc and the privilege mode as
dpc and dcsr; whether its stimecmp and vstimecmp have fired (R163); and whether it has run instructions that no command of the
model shows, so that a register not listed holds a free value and not its reset value. A VOTED group is one hart (R497). -/
structure HartSt where
  regs : List (Nat × Nat)
  fired : Bool
  vfired : Bool
  lost : Bool
deriving DecidableEq, Repr

/-- The in-service test beside its registers (R149 to R152): bit g: a lane test of group g is due; the item of Table 4.7 that comes
next, 0 to 35; whether the lane under test is in its memory BIST. -/
structure IstSt where
  due : Nat
  auxNext : Nat
  memBist : Bool
deriving DecidableEq, Repr

/-- The VF manager beside its registers: the result the command in progress will report; bit f: the step held for function f is
that of a DISABLE (R180); bit f: a drain bound expired in the freeze of function f (R181); zone time and epoch at which each
frozen function was captured (R183); function and OP of the command in progress, and VFM_BLOB as it stood at that command (R177,
R183); the cohort agent's commands, OP and function, that wait for its end (R177, R522). -/
structure VfmSt where
  result : Nat
  heldOff : Nat
  forced : Nat
  frozen : List (Nat × (Nat × Nat))
  fn : Nat
  op : Nat
  blobAt : Nat
  later : List (Nat × Nat)
deriving DecidableEq, Repr

/-- A fetched descriptor of a ring pair: its submission index, its 32 bytes, the ring's generation at the fetch, whether work on
it has started (R178), and, once it is executed, its status, RESULT and the stop cause it brings (0 none). -/
structure Item where
  idx : Nat
  desc : List Byte
  gen : Nat
  started : Bool
  fin : Option (Nat × Nat × Nat)
deriving DecidableEq, Repr

/-- The indices of a ring pair beside SQ_CI (R191), its fetched descriptors, oldest first, and the indices it re-reads after a
RESUME (R185). -/
structure RingSt where
  tail : Nat
  cqPi : Nat
  head : Nat
  items : List Item
  again : List Nat
deriving DecidableEq, Repr

/-- A start of a DMA channel (R208): the descriptor executing and its address, the descriptors and bytes so far, whether the
descriptor has been counted, how many of its bytes have been read and which of them are still to be written, the window read it
waits for (die and tag), the read-back that is due (address, the bytes the channel wrote of that word, whether it is memory),
whether the channel has been disabled, and the descriptors the start has executed before (R210). -/
structure DmaRun where
  desc : List Byte
  addr : Nat
  descs : Nat
  bytes : Nat
  begun : Bool
  got : Nat
  buf : List Byte
  wait : Option (Nat × Nat)
  check : Option (Nat × List (Option Byte) × Bool)
  aborting : Bool
  past : List (List Byte)
deriving DecidableEq, Repr

/-- A push that waits in a FIFO (R215). -/
structure Push where
  src : Nat
  words : Nat
  commit : Bool
  bad : Bool
deriving DecidableEq, Repr

/-- One credit FIFO beside its registers: its write position and its uncommitted words, the pushes it holds (at most
4, R215), and those that wait at the target. -/
structure FifoSt where
  pos : Nat
  open0 : Nat
  pushes : List Push
  waiting : List Push
deriving DecidableEq, Repr

/-- A frame of a stage link, field by field as Table 7.1 lays it out. `kind` is TYPE; a frame that its sender keeps has ACK 0, and
each transmission carries the ACK of its moment. -/
structure Frame where
  kind : Nat
  seq : Nat
  ack : Nat
  status : Nat
  tag : Nat
  off : Nat
  data : Nat
deriving DecidableEq, Repr

/-- A sequenced frame that its sender keeps, and how often a transmission of it has failed (R227). -/
structure Sent where
  frame : Frame
  fails : Nat
deriving DecidableEq, Repr

/-- One direction of a stage link (R227): the frames not yet acknowledged, oldest first; which of them is transmitted next; the SEQ
of the next frame; the SEQ that the receiver accepts next. -/
structure Lane where
  frames : List Sent
  pos : Nat
  nextSeq : Nat
  rxNext : Nat
deriving DecidableEq, Repr

/-- What an access through the window is to its initiator: an access like any other, a write of a live VOTED group, whose failure is
a WERR entry (R234), or a once-write released at a commit, whose failure goes to the IST (R143). -/
inductive WinMark where
  | plain
  | voted (ord : Nat)
  | released
deriving DecidableEq, Repr

/-- A window access in progress: its tag, initiator, address, whether it is a write and posted, its posted SEQ, the write data, the
responses its parts have had (status, data); the parts whose word reached the bridge uncorrectable (R25); the bits that flip in the
response on its way to the initiator (R24); and what it is to its initiator. -/
structure WinAcc where
  tag : Nat
  agent : Agent
  addr : Nat
  write : Bool
  posted : Bool
  seq : Nat
  data : List Nat
  got : List (Nat × Nat)
  bad : List Nat
  flips : List Flip
  mark : WinMark
deriving DecidableEq, Repr

/-- One stage link at the bridge (links 0 to 3 to PS0 to PS3, link 4 to the metering die). -/
structure LinkSt where
  down : Lane
  up : Lane
  accs : List WinAcc
  /-- posted writes that wait at T9 for places in the queue of the die, oldest first (R235) -/
  waits : List WinAcc
  nextTag : Nat
  /-- arrival times in µs of the latest uncorrectable frames (R229) -/
  ueTimes : List Nat
  /-- polls in a row without an answer (R241) -/
  pollMiss : Nat
deriving DecidableEq, Repr

/-- An entry of the posted-error log (R242). -/
structure PErr where
  addr : Nat
  part : Nat
  id : Nat
  seq : Nat
  status : Nat
  data : Nat
deriving DecidableEq, Repr

/-- One load channel beside its registers: its active protection parameters (Table 8.8), its active routing (Table 9.10), and
its counts. -/
structure ChanSt where
  inrushMs : Nat
  retryMax : Nat
  retryOff : Nat
  olOff : Bool
  wireCs : Nat
  wireTau : Nat
  wireAmb : Int
  wireMax : Nat
  fallback : Nat
  tloss : Bool
  directReq : Bool
  inv : Bool
  src : Nat
  /-- the modelled temperature rise of the wire in K (R265) -/
  dT : Rat
  /-- the current in mA that the load would draw without a limit, as last shown; of a bridge, side A's, from A to B (R261) -/
  load : Int
  /-- sum of the squared samples of this millisecond, in mA² -/
  sumSq : Nat
  /-- milliseconds in the present protection state (R259, R262, R263, R271) -/
  stMs : Nat
  /-- INRUSH_MS as the last turn-on found it (R259) -/
  winLen : Nat
  /-- RETRY_OFF as the last trip found it (Table 8.8) -/
  coolMs : Nat
  /-- limiting conducting samples in a row in RUN (R261) -/
  limCnt : Nat
  /-- conducting samples in a row below the open-load threshold (R277) -/
  openCnt : Nat
  /-- conducting samples in a row above twice the threshold (R277) -/
  clearCnt : Nat
  /-- the off-state check is in a pull-up-on phase (R278) -/
  pullUp : Bool
  /-- the last pull-up-off phase ended below the threshold (R278) -/
  lowBefore : Bool
deriving DecidableEq, Repr

/-- One power-stage die beside its registers. -/
structure DieSt where
  /-- latched far flags: bits 0 to 11 the channels, bit 12 the die (R240, R276, R305) -/
  flags : Nat
  /-- the count of the last valid heartbeat (R244) -/
  hbLast : Option Nat
  /-- a turn-on has been refused for the ceiling in this episode (R276) -/
  ceilRefused : Bool
  /-- active BRIDGE_EN, bit p for pair p (R279) -/
  bridgeEn : Nat
  /-- the direction a braking pair takes when its brake ends, for pairs 0 and 1; 0 none (R282) -/
  brake0 : Nat
  brake1 : Nat
  /-- status of the last part the die answered (Table 7.3) -/
  status : Nat
  /-- milliseconds since the last valid heartbeat, counted while in HOLD (R307) -/
  heldMs : Nat
deriving DecidableEq, Repr

/-- One load-timer output beside its registers (R293, R294): the counter as it last stood, and the values in force of HIGH,
PERIOD, PHASE and PRESC. -/
structure LtSt where
  count : Nat
  high : Nat
  period : Nat
  phase : Nat
  presc : Nat
deriving DecidableEq, Repr

/-- The LCC beside its registers: the load timers, the record of the snapshot in progress, a trigger that waits for a
descriptor, the last PS_ISUM read of each die, and the last 1000 sums (R306), latest first. -/
structure LccSt where
  lt : List (Nat × LtSt)
  snap : Option (List Byte)
  trig : Bool
  isum : List (Nat × Nat)
  sums : List Nat
deriving DecidableEq, Repr

/-- A two-step Sync that waits for its Follow_Up (R341): its sequenceId, receive timestamp and correctionField. -/
structure SyncWait where
  seqId : Nat
  tRx : Nat
  corr : Int
deriving DecidableEq, Repr

/-- One time compare unit beside its registers: the applied CMP, whether a firing is scheduled and when, and the zone time of the
previous firing, moved along with every step, so that the difference is real time (R349). -/
structure TcuSt where
  cmp : Nat
  armed : Bool
  next : Int
  last : Option Int
deriving DecidableEq, Repr

/-- The time unit beside its registers (R337, R341 to R343). -/
structure TimeSt where
  integral : Int
  /-- accepted offsets in a row within LOCK_THR, and above it -/
  good : Nat
  bad : Nat
  /-- the latest values of FREQ, newest first, at most 16 -/
  freqs : List Int
  sync : Option SyncWait
  /-- the next write of TIME_EPOCH_INIT may load the epoch counter (R337) -/
  epochOpen : Bool
  tcu : List (Nat × TcuSt)
deriving DecidableEq, Repr

/-- What a SEND descriptor asks of its frame (Table 10.2): the ring and index it completes on, TSREQ, ONESTEP, and T_IN. -/
structure EthJob where
  ring : Ring
  idx : Nat
  tsreq : Bool
  onestep : Nat
  tIn : Nat
deriving DecidableEq, Repr

/-- A frame in the switch. Its tags stand beside its bytes: `body` begins with the Ethertype behind them. -/
structure EFrame where
  dst : Nat
  src : Nat
  /-- it arrived, or is to leave, with a tag -/
  tagged : Bool
  vid : Nat
  pcp : Nat
  dei : Bool
  /-- the sequence number of its R-TAG (R333) -/
  rtag : Option Nat
  body : List Byte
  ts : Nat
  epoch : Nat
  /-- ingress port -/
  port : Nat
  secured : Bool
  /-- the VF whose queue memory it uses as its sender (R169) -/
  vf : Option Nat
  /-- it bypasses the FDB and keeps its tag (DPORT 0x0 to 0x7) -/
  direct : Bool
  /-- it came from a ring pair (R402) -/
  fromRing : Bool
  /-- the codewords of it that are not clean, by their place in the buffer it was read from, with their syndromes (R25, R327) -/
  syns : List (Nat × Nat)
  /-- how many bytes it had in that buffer -/
  srcLen : Nat
  /-- it has been counted in QBV_WAIT (R330) -/
  waited : Bool
  job : Option EthJob
deriving DecidableEq, Repr

/-- An FDB entry (Table 10.9). -/
structure FdbEnt where
  mac : Nat
  vid : Nat
  static : Bool
  dest : Nat
deriving DecidableEq, Repr

/-- A VLAN entry that is in use (Table 10.9). -/
structure VlanEnt where
  member : Nat
  untag : Nat
deriving DecidableEq, Repr

/-- The meter of a stream entry (R332): the committed and the excess bucket, in units of 8 · 10⁻⁶ byte, and the zone time of the
frame that it metered last, moved along with every step. -/
structure Meter where
  ct : Nat
  et : Nat
  at0 : Int
deriving DecidableEq, Repr

/-- A stream entry (Table 10.9): its words 0 to 5, DROP and ELIM, the next sequence number it gives, its recovery: the last
sequence number and the history of those before it (R333), and its meter, none while both buckets are full (R332). -/
structure StreamEnt where
  w0 : Nat
  w1 : Nat
  w2 : Nat
  w3 : Nat
  w4 : Nat
  w5 : Nat
  drop : Nat
  elim : Nat
  seq : Nat
  recov : Option (Nat × Nat)
  meter : Option Meter
deriving DecidableEq, Repr

/-- A gate schedule (R328, R329): base time, cycle time, number of entries; for one that is pending also the extension and the
zone time at which it takes over. -/
structure Qbv where
  base : Nat
  cycle : Nat
  len : Nat
  ext : Nat
  start : Nat
deriving DecidableEq, Repr

/-- A secure association slot (R335): key, association number, SSCI and salt. -/
structure SaKey where
  key : List Byte
  an : Nat
  ssci : Nat
  salt : List Byte
deriving DecidableEq, Repr

/-- A switch port beside its registers. -/
structure EPortSt where
  oper : Option Qbv
  pend : Option Qbv
  /-- the frame that is leaving for a descriptor with TSREQ or ONESTEP, stamped -/
  flight : Option EFrame
  /-- what the port sent last, as protected and padded (R324, R334), without FCS -/
  out : List Byte
deriving DecidableEq, Repr

/-- The switch and the Ethernet engine beside their registers. -/
structure EthSt where
  /-- the FDB by index -/
  fdb : List (Nat × FdbEnt)
  vlan : List (Nat × VlanEnt)
  /-- gates and interval, by 512 · port + 256 · list + entry -/
  gcl : List (Nat × (Nat × Nat))
  streams : List (Nat × StreamEnt)
  ports : List (Nat × EPortSt)
  /-- the egress queues, by 8 · port + queue -/
  queues : List (Nat × List EFrame)
  /-- the frames that wait for an RX ring pair, by the address of its ring set -/
  host : List (Nat × List EFrame)
  /-- the frames at P9 that the gateway takes (R381), oldest first -/
  toGw : List EFrame
  /-- the SA keys, by 16 · port + slot: 0 and 1 transmit, 2 + i receive slot i -/
  sa : List (Nat × SaKey)
  /-- the bytes P8 has carried for each function, by function (16 the PF), 32 added for the direction to the host (R168) -/
  turns : List (Nat × Nat)
deriving DecidableEq, Repr

/-- Where a frame of the gateway came from (Table 11.3). -/
inductive GwSrc where
  | vf (v : Nat)
  | pf
  | lanes
  | routed
deriving DecidableEq, Repr

/-- A frame in a gateway slot, for one channel: its source, the ring and index it completes on (none for a routed frame, a FIFO
record, an own lantern or stale work), ONESHOT, whether a CANCEL is marked against it (R371), and the stamp of its attempt. -/
structure GwFrame where
  frame : CanFrame
  ch : Nat
  src : GwSrc
  job : Option (Ring × Nat)
  oneshot : Bool
  cancel : Bool
  stamp : Nat
deriving DecidableEq, Repr

/-- A received frame on its way through the gateway: the frame, whether it passed verification (R383), its zone time and epoch,
its source (channel, or 0xF from Ethernet), and the routing entry applied (0xFFFF the default action). -/
structure RxFrame where
  frame : CanFrame
  authOk : Bool
  ts : Nat
  epoch : Nat
  source : Nat
  entry : Nat
deriving DecidableEq, Repr

/-- One CAN channel beside its registers: the frames in its message slots in the order they were loaded, with their slot numbers;
the slot of the attempt in progress; the frames at the gateway's input, at most 4; whether it was bus-off at a reset (R387). -/
structure CanCh where
  slots : List (Nat × GwFrame)
  attempt : Option Nat
  input : List (CanFrame × Nat)
  wasOff : Bool
deriving DecidableEq, Repr

/-- The channels and the gateway beside their registers. A table entry is its words; a stream entry has as words 5 and 6 whether a
frame has come since it was written and its SEQ. -/
structure CanSt where
  chans : List (Nat × CanCh)
  /-- the frames that wait in gateway slots, oldest first -/
  wait : List GwFrame
  /-- the frames that have a RECV descriptor of their ring, by the address of its ring set -/
  rx : List (Nat × List RxFrame)
  routes : List (Nat × List Nat)
  auth : List (Nat × List Nat)
  streams : List (Nat × List Nat)
  perms : List (Nat × List Nat)
deriving DecidableEq, Repr

/-- A lantern that has reached NMW (R394, R395): its segment, source, REASON, RELEASE, whether its format is right and whether it
is authenticated (R396). -/
structure Lantern where
  seg : Nat
  src : Nat
  reason : Nat
  release : Bool
  formatOk : Bool
  authOk : Bool
deriving DecidableEq, Repr

/-- NMW beside its registers: the lanterns that have reached it, oldest first; the REASON of the latest accepted lantern of each
source, by 32 · segment + source; the zone time of each segment's commit point, moved along with every step (R405); the segments
into which a frame was routed while they were isolated (R403), those whose WAKING has been captured (R399), and
those that owe a lantern with RELEASE (R397). -/
structure NmwSt where
  lanterns : List Lantern
  reasons : List (Nat × Nat)
  commits : List (Nat × Int)
  routed : Nat
  wakingSeen : Nat
  releaseDue : Nat
deriving DecidableEq, Repr

/-- The metering die beside its registers (R417 to R423). -/
structure MdSt where
  /-- discharge and charge energy, in millijoules with a 32-bit fraction -/
  eDis : Nat
  eChg : Nat
  calCnt : Nat
  /-- samples of this session -/
  samples : Nat
  /-- a strobe that came too early extends the running interval to the next one -/
  extended : Bool
  /-- latched far flags, bit b for event 224 + b (R240, R430) -/
  flags : Nat
  /-- active configuration (R432) -/
  shunt : Nat
  chkThr : Nat
  flowThr : Nat
  integ : Bool
  /-- active calibration words, for I0, I1 and V (Table 13.4, R432) -/
  cal : List Nat
  /-- status of the last part the die answered (Table 7.3) -/
  status : Nat
deriving DecidableEq, Repr

/-- The sense unit beside its registers (R424 to R429). -/
structure SnsSt where
  /-- raw switch states, bit n for input n -/
  raw : Nat
  /-- consecutive samples of each input that differ from SNS_DIN -/
  deb : List (Nat × Nat)
  /-- zone time and epoch of the trigger of the scan in progress -/
  scanTime : Nat
  scanEpoch : Nat
  /-- the inputs the scan in progress converts -/
  scanSet : Nat
  /-- zone time and epoch of the last strobe of MD_TCU, and whether its record is still due -/
  strobeTime : Nat
  strobeEpoch : Nat
  strobeDue : Bool
deriving DecidableEq, Repr

/-- A record that a hardware source hands the recorder (R442): for the logbook its code, source, FLAGS[7:4] and parameters; for
the ledger its type in `code`, its payload, and the time and epoch its header carries where it brings them (R440). -/
structure RecReq where
  ledger : Bool
  code : Nat
  source : Nat
  flags : Nat
  p0 : Nat
  p1 : Nat
  p2 : Nat
  payload : List Byte
  stamp : Option (Nat × Nat)
deriving DecidableEq, Repr

/-- A record in a queue of the recorder: who sent it (firmware or not), the low FLAGS bits and the time it took (R435). -/
structure RecEntry where
  req : RecReq
  firmware : Bool
  low : Nat
  time : Nat
  epoch : Nat
deriving DecidableEq, Repr

/-- One log as the recorder's state area holds it (Table 14.1): the oldest SEQ, the SEQ of the next record, the ledger offsets of
both, and the clear counter. -/
structure RecLog where
  old : Nat
  next : Nat
  oldOff : Nat
  nextOff : Nat
  clr : Nat
deriving DecidableEq, Repr

/-- The in-progress descriptor (R441): the log, SEQ, offset and length of the record, the chain value it will give, and the
COUNTER of the clear message where it is a clear record. -/
structure InProg where
  ledger : Bool
  seq : Nat
  off : Nat
  len : Nat
  link : List Byte
  clr : Option Nat
deriving DecidableEq, Repr

/-- The recorder's state area in MRAM (Table 14.1): both logs, the chain value H, the in-progress descriptor. It survives every
reset and power state. -/
structure RecArea where
  lb : RecLog
  lg : RecLog
  chain : List Byte
  busy : Option InProg
deriving DecidableEq, Repr

/-- A snapshot of the recorder for one initiator (R449). -/
structure RecSnap where
  lbOld : Nat
  lbNew : Nat
  lgOld : Nat
  lgNew : Nat
  lgOff : Nat
  lbClr : Nat
  lgClr : Nat
  num : Nat
deriving DecidableEq, Repr

/-- The recorder beside its registers and its state area. -/
structure RecSt where
  /-- records that hardware sources have ready for the recorder, oldest first -/
  due : List RecReq
  lbQ : List RecEntry
  lgQ : List RecEntry
  /-- firmware puts that wait at the target for a place (R442) -/
  waiting : List RecEntry
  /-- losses not yet entered as a record 0x0003, of the logbook and of the ledger -/
  lostLb : Nat
  lostLg : Nat
  /-- staged parameters, by 4 · initiator ID + i (R443) -/
  stage : List (Nat × Nat)
  /-- snapshots, by initiator ID (R449) -/
  snaps : List (Nat × RecSnap)
  /-- the metering fields of the energy statement in progress (R445) -/
  stmt : List Byte
deriving DecidableEq, Repr

/-- The one-time-programmable memory (R72, R453, R454, R467): the strap row with its syndrome, P, D and LC_GEN, the high-water
fuses, the root row and the two authority hash rows. -/
structure OtpSt where
  strap : Nat
  strapSyn : Nat
  pFuse : Bool
  dFuse : Bool
  lcGen : Nat
  hwm : Nat
  root : Option (List Byte)
  authEc : Option (List Byte)
  authMl : Option (List Byte)
deriving DecidableEq, Repr

/-- Who asked for a key operation (R465): REC, VFM, or a command channel. -/
inductive KeyAsk where
  | recorder
  | vfm
  | chan (c : Nat)
deriving DecidableEq, Repr

/-- A command of a channel as KEY_CMDc was written (Table 15.23). -/
structure KeyCmd where
  op : Nat
  idx : Nat
  dest : Nat
  target : Nat
deriving DecidableEq, Repr

/-- A request of VFM to the sealer (R476): whether it seals or unseals, the bytes it is given, and, once it is done, what it gives:
none where it fails. -/
structure SealJob where
  sealing : Bool
  data : List Byte
  out : Option (Option (List Byte))
deriving DecidableEq, Repr

/-- The key manager, the key registers of the engines and the tamper latches beside their registers. A key is its bytes; an
engine key register without an entry is empty. -/
structure KeySt where
  /-- the command of channel 0 or 1 that is accepted and waits -/
  wait0 : Option KeyCmd
  wait1 : Option KeyCmd
  /-- whose operation is in progress, and the command where a channel's is -/
  run : Option KeyAsk
  runCmd : KeyCmd
  /-- a VERIFY_IMAGE of this channel is interrupted for a request of REC (R465) -/
  paused : Option Nat
  /-- the request of VFM that waits or is in progress -/
  job : Option SealJob
  keyReg : Option (List Byte)
  ledgerKey : Option (List Byte)
  sealerKey : Option (List Byte)
  /-- key registers of CRY, by number -/
  cry : List (Nat × List Byte)
  /-- key registers of CGW, by number (R461) -/
  cgw : List (Nat × List Byte)
  /-- start-up recovery is done (R469) -/
  recovered : Bool
  /-- the functions the crypto engine has served in this round (R170) -/
  round : List Nat
  /-- how many steps of the UPDATE in progress are done, and the message it executes (R457, R468) -/
  step : Nat
  msg : List Byte
deriving DecidableEq, Repr

/-- A hand-over in progress (R491): the block by its WLD_OWN bit, the world it goes to, and whether it has been drained, by force or
not. -/
structure HandOver where
  block : Nat
  world : World
  drained : Option Bool
deriving DecidableEq, Repr

/-- A debug access in progress (R499), and the far read it waits for (die and tag). -/
structure DbgAcc where
  write : Bool
  world : World
  addr : Nat
  data : Nat
  wait : Option (Nat × Nat)
deriving DecidableEq, Repr

/-- WLD and DBG beside their registers: the hand-over in progress; the words of the token buffer; whether a challenge is
outstanding (R501); whether the key manager checks a token (R503); the debug access in progress; the Debug Module's registers, by
DM address (R497); bit g: a halt, bit 2 + g: a resume asked of VOTED group g; the TAP's
instruction, the data its last scan gave, the word its last DBGACC read found, and the boundary register (R504); the last answer of the service UART (R505). -/
structure DbgSt where
  handOver : Option HandOver
  tbuf : List (Nat × Nat)
  challenge : Bool
  checking : Bool
  acc : Option DbgAcc
  dm : List (Nat × Nat)
  asks : Nat
  ir : Nat
  tdo : Nat
  tapRead : Nat
  bsr : Nat
  uart : List Byte
deriving DecidableEq, Repr

/-- What the cohort agent keeps of a position (R513): the state of Table 17.3 (0 ABSENT, 1 HEARD, 2 VERIFIED), the last beacon taken,
the NONCE of the ATTEST_REQ that is out (none: empty) and how often it has been sent again, and whether an incompatibility has been
recorded (R517). -/
structure Peer where
  state : Nat
  beacon : List Byte
  nonce : List Byte
  tries : Nat
  warned : Bool
deriving DecidableEq, Repr

/-- A migration into this module (R522, R523): from which position, MIG_ID, the function restored, and what QUERY is answered with:
1 frozen copy held, 2 running, 3 no copy. -/
structure Inbound where
  pos : Nat
  mig : Nat
  fn : Nat
  state : Nat
deriving DecidableEq, Repr

/-- An open migration out of this module: to which position, MIG_ID, the function, the content of its OFFER, how often the OFFER has
been sent again, and whether COMMIT has been sent. -/
structure Outbound where
  pos : Nat
  mig : Nat
  fn : Nat
  offer : List Byte
  tries : Nat
  committed : Bool
deriving DecidableEq, Repr

/-- An incomplete transfer message (R512): its sender, MSG_ID, TYPE, NFRAG, and the fragments that have arrived. -/
structure Parts where
  pos : Nat
  id : Nat
  typ : Nat
  nfrag : Nat
  got : List (Nat × List Byte)
deriving DecidableEq, Repr

/-- A QUERY that is out: to which position, MIG_ID, how often it has been sent again. -/
structure Asked where
  pos : Nat
  mig : Nat
  tries : Nat
deriving DecidableEq, Repr

/-- The cohort agent (R509 to R524): SEQ of its next beacon, its next MSG_ID, the peers by position, the mark of R515, DUPLICATE
(R516), TIME_UNTRUSTED (R520), the time error its last evaluation in HOLDOVER reached (R519), the migrations in and out, the
outcomes of the last 8 MIG_IDs as source, latest first (4 COMMITTED, 5 ABORTED), the incomplete messages, the queries, and what the
last command sent: the position it went to (none: a beacon) and its bytes. -/
structure CohortSt where
  seq : Nat
  msgId : Nat
  peers : List (Nat × Peer)
  fenced : Bool
  dup : Bool
  untrusted : Bool
  held : Option Nat
  inb : List Inbound
  outb : List Outbound
  outcomes : List (Nat × Nat)
  parts : List Parts
  asked : List Asked
  out : List (Option Nat × List Byte)
deriving DecidableEq, Repr

/-- Why a run stops with a fault. No command of this model does: every command of the table has an effect the spec gives
(or no effect at all), so the one reason below is never answered. -/
inductive Fault where
  /-- No meaning raises it; the type needs a member. Safe. -/
  | none
deriving DecidableEq, Repr

/-- Why a command is refused. -/
inductive Refusal where
  /-- A row of the table that has no meaning yet; raised by the dispatcher only. Safe. -/
  | notModelled (mnemonic : String)
deriving DecidableEq, Repr

/-- The state of the module. -/
structure State where
  /-- the commands that wait, first in, first out. -/
  pending : List Instr
  /-- the register file: each field that has been written, by its key `Fld.key`; a field not listed holds its reset value. -/
  regs : List (Nat × Nat)
  /-- ISL_AON's own copy of the fields that the Reset column marks AON (R12, R19), by the same keys. -/
  aon : List (Nat × Nat)
  /-- writes to ISL_AON mirrors that have not landed yet, oldest first (R19). -/
  mirrorQ : List MirrorWr
  /-- addresses of the registers whose RWO fields have locked (R6). -/
  locks : List Nat
  /-- the latches loaded by LO reads, by initiator ID and HI register (R11, R338). -/
  latches : List (Nat × Nat)
  /-- the response the fabric gave last. -/
  resp : Resp
  /-- the bytes of all memories at their fabric addresses; an unlisted byte reads 0. -/
  mem : List Host.Cell
  /-- the syndromes (S_P + 256 · S_Q) of the stored codewords that are not clean, by address / 16 (R22). -/
  syn : List (Nat × Nat)
  /-- the arbiters of the target ports, by port (R32). -/
  arb : List (Nat × Arb)
  /-- the model's own counter: which free value is used next (no part of the hardware). -/
  fresh : Nat
  /-- the power controller. -/
  pwr : PowerSt
  /-- bit h: hart h is halted in debug mode (R498, R497). -/
  haltedHarts : Nat
  /-- the lane groups; one not listed is as a reset leaves it. -/
  groups : List (Nat × LaneGrp)
  /-- the harts, by mhartid (R88, R160); one not listed is as a reset leaves it. -/
  harts : List (Nat × HartSt)
  /-- the VF manager. -/
  vfm : VfmSt
  /-- the ring pairs, by the address of their ring set; one not listed has every index 0 and nothing fetched. -/
  rings : List (Nat × RingSt)
  /-- the starts in progress of the DMA channels, by 8 · engine + channel. -/
  dma : List (Nat × DmaRun)
  /-- the credit FIFOs, by number; one not listed is empty. -/
  fifos : List (Nat × FifoSt)
  /-- the in-service test. -/
  ist : IstSt
  /-- the stage links, by die; a link not listed is as a reset leaves it. -/
  links : List (Nat × LinkSt)
  /-- the posted-error log, oldest first, at most 8 entries (R242). -/
  perr : List PErr
  /-- word-code failure bursts reported to the tamper monitors and not yet taken by them (R229, R478). -/
  bursts : Nat
  /-- the load channels, by 12 · die + local channel; a channel not listed is as a stage-die reset leaves it. -/
  chan : List (Nat × ChanSt)
  /-- the power-stage dies, by number; a die not listed is as a reset leaves it. -/
  die : List (Nat × DieSt)
  /-- levels of the control lines: bits 0 to 23 the load-timer outputs, bits 24 to 31 the direct control lines (R289). -/
  lines : Nat
  /-- the load channel controller. -/
  lcc : LccSt
  /-- zone time in ns, as the counter of the TIME block stands (R336). -/
  zone : Nat
  /-- its 32-bit fraction of a nanosecond (R336). -/
  zoneFrac : Nat
  /-- the time unit. -/
  time : TimeSt
  /-- the Ethernet switch and its engine. -/
  eth : EthSt
  /-- the CAN channels and the gateway. -/
  can : CanSt
  /-- Closing Bell. -/
  nmw : NmwSt
  /-- the metering die. -/
  md : MdSt
  /-- the sense unit. -/
  sns : SnsSt
  /-- the recorder's state area in MRAM. -/
  recArea : RecArea
  /-- the recorder. -/
  recorder : RecSt
  /-- the one-time-programmable memory. -/
  otp : OtpSt
  /-- the key manager and the engines' key registers. -/
  keys : KeySt
  /-- the hand-over, the debug block, the service port. -/
  dbg : DbgSt
  /-- the cohort agent. -/
  cohort : CohortSt
deriving DecidableEq, Repr

/-- What a command answers. -/
abbrev Out := Host.Outcome State Fault Refusal

/-- The module in power-on reset (R12, R73): no register is listed, so every field reads its reset value; memory lists nothing;
every unit is at rest. -/
def State.reset : State where
  pending := []
  regs := []
  aon := []
  mirrorQ := []
  locks := []
  latches := []
  resp := ⟨false, 0, false⟩
  mem := []
  syn := []
  arb := []
  fresh := 0
  pwr := ⟨.off, 0, false, true, false, false, false, false, false, 0, [], .off, none, none, none⟩
  haltedHarts := 0
  groups := []
  harts := []
  vfm := ⟨0, 0, 0, [], 0, 0, 0, []⟩
  rings := []
  dma := []
  fifos := []
  ist := ⟨0, 0, false⟩
  links := []
  perr := []
  bursts := 0
  chan := []
  die := []
  lines := 0
  lcc := ⟨[], none, false, [], []⟩
  zone := 0
  zoneFrac := 0
  time := ⟨0, 0, 0, [], none, true, []⟩
  eth := ⟨[], [], [], [], [], [], [], [], [], []⟩
  can := ⟨[], [], [], [], [], [], []⟩
  nmw := ⟨[], [], [], 0, 0, 0⟩
  md := ⟨0, 0, 0, 0, false, 0, 0x3E8, 5, 1, true, [0, 0, 0], 0⟩
  sns := ⟨0, [], 0, 0, 0, 0, 0, false⟩
  recArea := ⟨⟨0, 0, 0, 0, 0⟩, ⟨0, 0, 0, 0, 0⟩, List.replicate 48 0, none⟩
  recorder := ⟨[], [], [], [], 0, 0, [], [], []⟩
  otp := ⟨0, 0, false, false, 0, 0, none, none, none⟩
  keys := ⟨none, none, none, ⟨0, 0, 0, 0⟩, none, none, none, none, none, [], [], false, [], 0, []⟩
  dbg := ⟨none, [], false, false, none, [], 0, 1, 0, 0, 0, []⟩
  cohort := ⟨0, 0, [], false, false, false, none, [], [], [], [], [], []⟩

end Sys2Proof.Machine
end

