-- ==== Sys2Proof/Machine/Ops.lean ====
section
/-! DEFINITION. The operations every unit shares: reading and writing a field, raising an event, the worlds, the address map,
the word code, the access checks in front of a register, and memory. -/

namespace Sys2Proof.Machine

/-! ### Fields -/

/-- What a register field holds. -/
def State.get (s : State) (f : Fld) : Nat := look s.regs f.key f.reset

/-- The state with a register field at `v`, cut to the field's width. -/
def State.set (s : State) (f : Fld) (v : Nat) : State := { s with regs := ins s.regs f.key (v % 2 ^ f.w) }

/-- A one-bit field as a truth value. -/
def State.on (s : State) (f : Fld) : Bool := s.get f == 1

/-- A saturating counter counts one (R46). -/
def State.count (s : State) (f : Fld) : State := s.set f (satInc (s.get f) f.w)

/-- A wrapping counter counts one. -/
def State.bump (s : State) (f : Fld) : State := s.set f (s.get f + 1)

/-- The bits `m` of a field are set. -/
def State.setBits (s : State) (f : Fld) (m : Nat) : State := s.set f (orBits (s.get f) m)

/-- The bits `m` of a field are cleared. -/
def State.clrBits (s : State) (f : Fld) (m : Nat) : State := s.set f (clearBits (s.get f) m)

/-- Several fields are written, the first one first. -/
def State.setAll (s : State) (l : List (Fld × Nat)) : State := l.foldl (fun s p => s.set p.1 p.2) s

/-- The fields of the registers from `lo` up to, not including, `hi` return to their reset values. -/
def State.resetRegs (s : State) (lo hi : Nat) : State := { s with regs := delRange s.regs (lo * 32) (hi * 32) }

/-- The LO and HI halves of a 64-bit counter as one number (R11). -/
def State.get64 (s : State) (lo hi : Fld) : Nat := s.get lo + 2 ^ 32 * s.get hi

/-- A 64-bit counter is set to `v`. -/
def State.set64 (s : State) (lo hi : Fld) (v : Nat) : State := (s.set lo v).set hi (v / 2 ^ 32)

/-- The next free value, of `w` bits, and the state that has used it. -/
def State.draw (s : State) (w : Nat) : Nat × State := (Config.free s.fresh % 2 ^ w, { s with fresh := s.fresh + 1 })

/-- `n` free bytes, and the state that has used them. -/
def State.drawBytes (s : State) : Nat → List Byte × State
  | 0 => ([], s)
  | n + 1 =>
    let d := s.draw 8
    let r := d.2.drawBytes n
    (BitVec.ofNat 8 d.1 :: r.1, r.2)

/-- What ISL_AON holds in one of its fields (R12, R19). -/
def State.aonGet (s : State) (f : Fld) : Nat := look s.aon f.key f.reset

/-! ### Blocks and the address map -/

/-- The register blocks of Table 1.8, with the VF doorbell pages and the two windows of the stage bridge. -/
inductive Block where
  | sys | pwr | clk | rst | evc | vote0 | vote1 | ist | dma0 | dma1 | fifo | brg | lcc | eth | time
  | can (n : Nat)
  | cgw | nmw | sns | recorder | key | cry | wld | vfm | dbg
deriving DecidableEq, Repr

/-- The base address of a block (Table 1.8). -/
def Block.base : Block → Nat
  | .sys => 0x40000000 | .pwr => 0x40001000 | .clk => 0x40002000 | .rst => 0x40003000
  | .evc => 0x40010000 | .vote0 => 0x40020000 | .vote1 => 0x40021000 | .ist => 0x40022000
  | .dma0 => 0x40030000 | .dma1 => 0x40031000 | .fifo => 0x40038000 | .brg => 0x40040000
  | .lcc => 0x40050000 | .eth => 0x40060000 | .time => 0x40070000 | .can n => 0x40080000 + 0x1000 * n
  | .cgw => 0x40090000 | .nmw => 0x400A0000 | .sns => 0x400B0000 | .recorder => 0x400C0000
  | .key => 0x400D0000 | .cry => 0x400D1000 | .wld => 0x400E0000 | .vfm => 0x400F0000 | .dbg => 0x40100000

/-- The size of a block (Table 1.8). -/
def Block.size : Block → Nat
  | .evc => 0x4000
  | .eth => 0x10000
  | _ => 0x1000

/-- The bit of a block in RST_BLK0, CLK_BLK_GATE and WLD_OWN (Tables 2.13 and 16.2); VFM has its bit in WLD_OWN only. -/
def Block.bit? : Block → Option Nat
  | .can n => some n
  | .cgw => some 12 | .dma0 => some 13 | .dma1 => some 14 | .fifo => some 15 | .eth => some 16 | .time => some 17
  | .sns => some 18 | .cry => some 19 | .lcc => some 20 | .recorder => some 21 | .nmw => some 22 | .vfm => some 23
  | _ => none

/-- The block with a given bit number (Table 16.2). -/
def blockOfBit : Nat → Option Block
  | 12 => some .cgw | 13 => some .dma0 | 14 => some .dma1 | 15 => some .fifo | 16 => some .eth | 17 => some .time
  | 18 => some .sns | 19 => some .cry | 20 => some .lcc | 21 => some .recorder | 22 => some .nmw | 23 => some .vfm
  | n => if n < 12 then some (.can n) else none

/-- All blocks of Table 1.8. -/
def allBlocks : List Block :=
  [.sys, .pwr, .clk, .rst, .evc, .vote0, .vote1, .ist, .dma0, .dma1, .fifo, .brg, .lcc, .eth, .time,
   .can 0, .can 1, .can 2, .can 3, .can 4, .can 5, .can 6, .can 7, .can 8, .can 9, .can 10, .can 11,
   .cgw, .nmw, .sns, .recorder, .key, .cry, .wld, .vfm, .dbg]

/-- The block a register-space address lies in (R36). -/
def blockOf (addr : Nat) : Option Block :=
  allBlocks.find? (fun b => decide (b.base ≤ addr) && decide (addr < b.base + b.size))

/-- The register map of a block. -/
def Block.rows : Block → List FRow
  | .sys => rowsSys | .pwr => rowsPwr | .clk => rowsClk | .rst => rowsRst | .evc => rowsEvc
  | .vote0 => rowsVote | .vote1 => rowsVote | .ist => rowsIst | .dma0 => rowsDma | .dma1 => rowsDma
  | .fifo => rowsFifo | .brg => rowsBrg | .lcc => rowsLcc | .eth => rowsEth ++ rowsPort | .time => rowsTime
  | .can _ => rowsCan | .cgw => rowsCgw | .nmw => rowsNmw ++ rowsSeg | .sns => rowsSns | .recorder => rowsRec
  | .key => rowsKey | .cry => rowsCry | .wld => rowsWld | .vfm => rowsVfm | .dbg => rowsDbg

/-- The rows with a field in the register at `addr`, in register space and in the VF doorbell pages. -/
def rowsAt (addr : Nat) : List FRow :=
  let rows := if 0x41000000 ≤ addr then rowsVfp else match blockOf addr with
    | some b => b.rows
    | none => []
  rows.filter (·.hits addr)

/-- The target port of an address (Tables 1.6 and 1.7); `none` where the address is unassigned (R34, R36). -/
def targetOf (addr : Nat) : Option Nat :=
  if addr < 0x10000 then some 0
  else if 0x10000000 ≤ addr ∧ addr < 0x11000000 then some 1
  else if 0x20000000 ≤ addr ∧ addr < 0x20080000 then some 2
  else if 0x20100000 ≤ addr ∧ addr < 0x20180000 then some 3
  else if 0x21000000 ≤ addr ∧ addr < 0x21400000 then some 4
  else if 0x30000000 ≤ addr ∧ addr < 0x38000000 then some 5
  else if 0x100000000 ≤ addr ∧ addr < 0x1E0000000 then some 6
  else if 0x40000000 ≤ addr ∧ addr < 0x41000000 then
    (if (blockOf addr).isSome then (if addr < 0x40060000 then some 7 else some 8) else none)
  else if 0x50000000 ≤ addr ∧ addr < 0x50040000 then some 9
  else if 0x50080000 ≤ addr ∧ addr < 0x50090000 then some 9
  else if 0x41000000 ≤ addr ∧ addr < 0x41010000 then some 10
  else if 0x41100000 ≤ addr ∧ addr < 0x41108000 then some 10
  else if 0x41180000 ≤ addr ∧ addr < 0x41188000 then some 10
  else none

/-- Two addresses of one target port lie in one range of Table 1.7: T9 and T10 have several ranges, of at most 64 KiB each. -/
def sameRange (t x y : Nat) : Bool := decide (t < 9) || x / 0x10000 == y / 0x10000

/-- The target port of a whole access: unassigned where its first and last byte do not lie in one assigned range (R34). -/
def targetOfRange (addr len : Nat) : Option Nat :=
  if targetOf addr = targetOf (addr + len - 1) ∧ sameRange ((targetOf addr).getD 15) addr (addr + len - 1) = true then targetOf addr
  else none

/-- Memory, as opposed to registers: ports T0 to T6. -/
def isMemPort (t : Nat) : Bool := decide (t < 7)

/-- The register holds a mirror of ISL_AON state that firmware writes (R19). -/
def isMirror (addr : Nat) : Bool :=
  addr == 0x4000100c || addr == 0x40001010 || addr == 0x40001014 || addr == 0x400B0080 || addr == 0x400B0084
    || addr == 0x400D010C

/-! ### Worlds and initiators -/

/-- The world that owns a block: its WLD_OWN bit, or Secure where it has none (R488). -/
def Block.owner (b : Block) (s : State) : World :=
  match b.bit? with
  | some i => if bit (s.get WLD_OWN) i then .secure else .normal
  | none => .secure

/-- The world of an initiator (Table 16.1). -/
def worldOf (a : Agent) (s : State) : World :=
  match a with
  | .lane _ _ => .secure
  | .core n => if bit (s.get WLD_APPW) n then .secure else .normal
  | .dma m => if m = 0 then Block.owner .dma0 s else Block.owner .dma1 s
  | .ethPf => Block.owner .eth s
  | .ethSec => .secure
  | .ethVf => .normal
  | .cgwPf => Block.owner .cgw s
  | .cgwSec => .secure
  | .cgwVf => .normal
  | .fifo n => if s.on (FIFO_CFG_PWORLD n) then .secure else .normal
  | .snsBuf => Block.owner .sns s
  | .mdBuf => .secure
  | .lcc => .secure
  | .recorder => .secure
  | .brg => .secure
  | .keyMgr => .secure
  | .crySec => .secure
  | .cryPf => Block.owner .cry s
  | .cryVf => .normal
  | .vfm => Block.owner .vfm s
  | .dbg w => w

/-- The initiator acts in the Normal world. -/
def isNormal (a : Agent) (s : State) : Bool := worldOf a s == .normal

/-- The crossbar port of an initiator (Table 1.5). -/
def portOf : Agent → Nat
  | .lane g _ => g
  | .core _ => 2
  | .dma m => 3 + m
  | .ethPf => 5 | .ethSec => 5 | .ethVf => 5
  | .cgwPf => 6 | .cgwSec => 6 | .cgwVf => 6 | .fifo _ => 6 | .snsBuf => 6 | .mdBuf => 6 | .lcc => 6
  | .recorder => 6 | .brg => 6 | .vfm => 6
  | .keyMgr => 7 | .crySec => 7 | .cryPf => 7 | .cryVf => 7
  | .dbg _ => 8

/-- The initiator ID: mhartid of a lane group or core (R88, R160), else 0x40 plus the port (R242). -/
def idOf (a : Agent) : Nat :=
  match a with
  | .lane g n => 4 * g + n
  | .core n => 8 + n
  | a => 0x40 + portOf a

/-- Class 0 ports (Table 1.5). -/
def portClass0 (p : Nat) : Bool := p == 0 || p == 1 || p == 7

/-! ### Power and clocks -/

/-- The control die runs: code executes and accesses are answered. -/
def State.awake (s : State) : Bool :=
  match s.pwr.phase with
  | .bootRom => true
  | .run => true
  | .hold => true
  | .down1 => true
  | .down2 => true
  | _ => false

/-- A block whose clock is gated (R81). -/
def Block.gated (b : Block) (s : State) : Bool :=
  match b.bit? with
  | some i => decide (i < 23) && bit (s.get CLK_BLK_GATE) i
  | none => false

/-- The island of a block whose PLL may lose lock (Table 1.3), by its bit in CLK_STAT.LOCK. -/
def Block.island : Block → Option Nat
  | .eth => some 4 | .time => some 4
  | .key => some 6 | .cry => some 6
  | .can _ => some 5 | .cgw => some 5 | .nmw => some 5 | .sns => some 5 | .recorder => some 5 | .lcc => some 5
  | .dma0 => some 5 | .dma1 => some 5 | .fifo => some 5 | .brg => some 5
  | _ => none

/-- The island an initiator belongs to (Table 1.3), by its bit in CLK_STAT.LOCK; the debug port and VFM stand in the fabric's. -/
def islandOf : Agent → Nat
  | .lane g _ => g
  | .core _ => 2
  | .ethPf => 4 | .ethSec => 4 | .ethVf => 4
  | .keyMgr => 6 | .crySec => 6 | .cryPf => 6 | .cryVf => 6
  | .dbg _ => 3 | .vfm => 3
  | _ => 5

/-- An island stalls because its PLL has lost lock (event 4 of Table 2.10). -/
def State.islandStalls (s : State) (i : Nat) : Bool := bit s.pwr.unlocked i

/-- The fabric stalls: every transfer waits (Table 1.3, event 4 of Table 2.10). -/
def State.fabStalls (s : State) : Bool := s.islandStalls 3

/-- A block whose island stalls because its PLL has lost lock (event 4 of Table 2.10). -/
def Block.stalled (b : Block) (s : State) : Bool :=
  match b.island with
  | some i => s.islandStalls i
  | none => false

/-- A block fenced by a running hand-over (R491). -/
def Block.fenced (b : Block) (s : State) : Bool :=
  match s.dbg.handOver with
  | some h => b.bit? == some h.block
  | none => false

/-- The unit works: the control die runs, the block is neither gated nor fenced, its island does not stall. -/
def Block.live (b : Block) (s : State) : Bool := s.awake && !b.gated s && !b.fenced s && !b.stalled s

/-! ### Events -/

/-- The block that raises an event, where it can be gated or handed over (Table 1.10). -/
def eventBlock (e : Nat) : Option Block :=
  if e < 32 then none
  else if e < 40 then some .dma0
  else if e < 48 then some .dma1
  else if e < 56 then some .fifo
  else if e = 116 then some .lcc
  else if e < 120 then none
  else if e < 136 then some .eth
  else if e < 144 then some .time
  else if e < 192 then some (.can ((e - 144) / 4))
  else if e < 200 then some .cgw
  else if e < 208 then some .nmw
  else if e < 211 then some .sns
  else if e < 232 then none
  else if e < 240 then some .recorder
  else if e = 245 ∨ e = 247 then some .cry
  else if e < 252 then none
  else some .vfm

/-- Whether the source of an event can raise it now: the control die runs, and its block is neither gated nor fenced nor stalled
(R81, Table 16.3, event 4 of Table 2.10). -/
def eventLive (s : State) (e : Nat) : Bool :=
  s.awake && match eventBlock e with
    | some b => !b.gated s && !b.fenced s && !b.stalled s
    | none => true

/-- An event becomes pending. A Secure event aimed at a VF is never forwarded: it raises event 254 instead when it becomes
pending (R176). -/
def State.setPend (s : State) (e : Nat) : State :=
  let p := EVC_PEND (e / 32)
  if bit (s.get p) (e % 32) then s
  else
    let s := s.setBits p (2 ^ (e % 32))
    if s.get (EVC_CFG_TGT e) = 8 ∧ s.on (EVC_CFG_WORLD e) = true ∧ eventLive s 254 = true then
      s.setBits (EVC_PEND 7) (2 ^ 30) else s

/-- A pulse source sets its pending bit (R39). -/
def State.raise (s : State) (e : Nat) : State := if eventLive s e then s.setPend e else s

/-- Raise where a condition holds. -/
def State.raiseIf (s : State) (c : Bool) (e : Nat) : State := if c then s.raise e else s

/-- The pending bit of an event. -/
def State.isPending (s : State) (e : Nat) : Bool := bit (s.get (EVC_PEND (e / 32))) (e % 32)

/-- The enable bit of an event. -/
def State.isEnabled (s : State) (e : Nat) : Bool := bit (s.get (EVC_EN (e / 32))) (e % 32)

/-- The event belongs to the Secure world (R41). -/
def State.eventSecure (s : State) (e : Nat) : Bool := s.on (EVC_CFG_WORLD e)

/-- An event is deliverable to target `t` (R40): pending, enabled, aimed at it, its priority above the threshold and not 0. -/
def State.deliverable (s : State) (t e : Nat) : Bool :=
  s.isPending e && s.isEnabled e && (s.get (EVC_CFG_TGT e) == t)
    && decide (s.get (EVC_THR t) < s.get (EVC_CFG_PRIO e))

/-- The better of two candidates: the higher priority, then the lower event number (R40). -/
def State.better (s : State) (best : Option Nat) (e : Nat) : Option Nat :=
  match best with
  | none => some e
  | some b => if s.get (EVC_CFG_PRIO b) < s.get (EVC_CFG_PRIO e) then some e else some b

/-- The highest deliverable event of target `t`, of all events or (`normalOnly`) of the Normal ones (R43). -/
def State.topEvent (s : State) (t : Nat) (normalOnly : Bool) : Option Nat :=
  ((List.range 256).filter (fun e => s.deliverable t e && !(normalOnly && s.eventSecure e))).foldl s.better none

/-- The interrupt line of target `t` (R42): asserted while a deliverable event exists in either world. -/
def State.irqLine (s : State) (t : Nat) : Bool := (s.topEvent t false).isSome

/-- The state of stage link `d` (R226): 0 DOWN, 1 TRAINING, 2 UP, 3 FAULT; link 4 is the metering die. -/
def State.link (s : State) (d : Nat) : Nat := bits (s.get BRG_STAT_LINK) (3 * d) 3

/-- Stage link `d` is UP. -/
def State.linkUp (s : State) (d : Nat) : Bool := s.link d == 2

/-- A cause of R245 stops the heartbeat to all dies. -/
def State.hbBlocked (s : State) : Bool :=
  (s.get (VOTE_STAT_GROUP 0) == 4) || (s.pwr.phase == .down2) || (bit s.haltedHarts 0 && s.on BRG_CTL_HB_DBG_STOP)

/-- The heartbeat runs to die `d` (R245). -/
def State.hbRuns (s : State) (d : Nat) : Bool := bit (s.get BRG_CTL_HB_EN) d && s.linkUp d && !s.hbBlocked

/-- The conditions of the level sources (R39), by event. -/
def State.levelHolds (s : State) (e : Nat) : Bool :=
  match e with
  | 0 => s.on PWR_STAT_VLOW
  | 1 => s.on PWR_STAT_VHIGH
  | 5 => decide (460 < signed (s.get PWR_TEMP) 16)
  | 6 => decide (540 < signed (s.get PWR_TEMP) 16)
  | 19 => s.get (VOTE_STAT_GROUP 0) == 4
  | 23 => s.get (VOTE_STAT_GROUP 1) == 4
  | 30 => s.on IST_STAT_SG0_OVERDUE || s.on IST_STAT_SG1_OVERDUE
  | 59 => [0, 1, 2, 3, 4].any (fun d => bit (s.get BRG_CTL_HB_EN) d && !s.hbRuns d)
  | 116 => decide (2400 < s.get LCC_LOAD_MEAN)
  | 138 => s.on TIME_STAT_CLAMP
  | 206 => s.on NMW_STAT_ALL_ASLEEP
  | 244 => decide (480 < s.get SYS_KEYCNT_HWM) || decide (119 < s.get SYS_LC_LC_GEN)
  | 251 => s.haltedHarts != 0
  | e => decide (144 ≤ e ∧ e < 192 ∧ e % 4 = 1)
      && (s.get (CAN_STAT_STATE ((e - 144) / 4)) == 2 || s.on (CAN_STAT_RECOVERING ((e - 144) / 4)))

/-- The level sources of Tables 2.10, 3.9, 4.9, 7.4, 8.9, 10.6, 11.6, 12.10, 15.21 and 16.7. -/
def levelEvents : List Nat :=
  [0, 1, 5, 6, 19, 23, 30, 59, 116, 138, 206, 244, 251,
   145, 149, 153, 157, 161, 165, 169, 173, 177, 181, 185, 189]

/-- The VF an event is forwarded to (R176): the one its VF field names, for a Normal event with TGT 0x8. -/
def State.forwardedVf (s : State) (e : Nat) : Option Nat :=
  if s.get (EVC_CFG_TGT e) == 8 && !s.eventSecure e then some (s.get (EVC_CFG_VF e) % 32) else none

/-- The VF to which an event is deliverable (R176, R40): it is forwarded there, pending, enabled, and has a priority. -/
def State.forwardTo (s : State) (e : Nat) : Option Nat :=
  if s.isPending e && s.isEnabled e && (s.get (EVC_CFG_PRIO e) != 0) then s.forwardedVf e else none

/-- Bit 7 of VF_EVT_PEND is set while an event is forwarded to the VF (Table 5.4), in every state but OFF. -/
def State.settleFwd (s : State) : State :=
  if (List.range 8).all (fun k => s.get (EVC_PEND k) == 0) then s
  else (List.range 256).foldl (fun s e => match s.forwardTo e with
    | some f => if s.get (VFM_VF_STATE_STATE f) = 0 then s else s.setBits (VFP_VF_EVT_PEND f) 128
    | none => s) s

/-- Every level source whose condition holds sets its pending bit (R39). -/
def State.settle (s : State) : State :=
  (levelEvents.foldl (fun s e => s.raiseIf (s.levelHolds e) e) s).settleFwd

/-- What a command answers: the next state, its level events settled. -/
def done (s : State) : Out := .next s.settle

/-! ### Responses and captures -/

/-- The fabric answers without an error. -/
def State.answer (s : State) (data : Nat) : State := { s with resp := ⟨false, data, false⟩ }

/-- The word answered is uncorrectable, as its consumer finds: no data is used (R26). -/
def State.answerUe (s : State) : State := { s with resp := ⟨false, 0, true⟩ }

/-- The fabric answers with an error response. -/
def State.answerErr (s : State) : State := { s with resp := ⟨true, 0, false⟩ }

/-! ### Arbitration (R32) -/

/-- The arbitration state of a target port. From reset it is as if port 8 had been granted last in both classes, so that the rotation
starts at port 0 (DESIGN CHOICE, see the log: the spec states no start). -/
def State.arbOf (s : State) (t : Nat) : Arb := look s.arb t ⟨0, 8, 8⟩

/-- The first of the ports `l` behind `last` in rotation. -/
def nextPort (last : Nat) (l : List Nat) : Option Nat :=
  ((List.range 9).map (fun i => (last + 1 + i) % 9)).find? (fun p => l.contains p)

/-- The port a target grants among those that ask (R32): class 0 first, in rotation; after 8 class-0 grants in a row one of class 1. -/
def Arb.grant (x : Arb) (asking : List Nat) : Option Nat :=
  let c0 := nextPort x.last0 (asking.filter portClass0)
  let c1 := nextPort x.last1 (asking.filter (fun p => !portClass0 p))
  match c0, c1 with
  | some p, some q => if 8 ≤ x.run0 then some q else some p
  | some p, none => some p
  | none, q => q

/-- The arbitration state after a grant. -/
def Arb.granted (x : Arb) (p : Nat) : Arb :=
  if portClass0 p then { x with run0 := min 8 (x.run0 + 1), last0 := p } else { x with run0 := 0, last1 := p }

/-- Target port `t` has granted a transfer of an initiator. -/
def State.grantTo (s : State) (a : Agent) (t : Nat) : State :=
  { s with arb := ins s.arb t ((s.arbOf t).granted (portOf a)) }

/-- The target of an address, where it has one, has granted a transfer of an initiator. -/
def State.grantAt (s : State) (a : Agent) (addr : Nat) : State :=
  match targetOf addr with
  | some t => s.grantTo a t
  | none => s

/-- An access of `n` codewords is granted transfer by transfer, of at most 4 beats each (R32). -/
def State.grants (s : State) (a : Agent) (t n : Nat) : State :=
  (List.range ((n + 3) / 4)).foldl (fun (s : State) _ => s.grantTo a t) s

/-- The parts of one access are no grants of their own; a reset of the control die within it clears the arbiters. -/
def State.oneGrant (s : State) (arb : List (Nat × Arb)) : State := { s with arb := if s.arb = [] then [] else arb }

/-- The fabric capture (R46): the first error after REARM is held; event 14 is raised (R33, R34). -/
def State.fabError (s : State) (a : Agent) (addr cause tport : Nat) : State :=
  let s := if s.on EVC_FAB_INFO_VALID then s
    else s.setAll [(EVC_FAB_INFO_VALID, 1), (EVC_FAB_INFO_CAUSE, cause), (EVC_FAB_INFO_TPORT, tport),
      (EVC_FAB_INFO_IPORT, portOf a), (EVC_FAB_ADDR_LO, addr), (EVC_FAB_ADDR_HI, addr / 2 ^ 32)]
  s.raise 14

/-- The world-violation capture and counter (R494); event 249 is raised. -/
def State.worldRefusal (s : State) (a : Agent) (addr cause : Nat) (write : Bool) : State :=
  let s := if s.on WLD_VIOL_INFO_VALID then s
    else s.setAll [(WLD_VIOL_INFO_VALID, 1), (WLD_VIOL_INFO_ID, idOf a), (WLD_VIOL_INFO_CAUSE, cause),
      (WLD_VIOL_INFO_TPORT, (targetOf addr).getD 15), (WLD_VIOL_INFO_WRITE, b2n write),
      (WLD_VIOL_ADDR_LO, addr), (WLD_VIOL_ADDR_HI, addr / 2 ^ 32)]
  (s.count WLD_VIOL_CNT).raise 249

/-! ### The word code (R20 to R29) -/

/-- Multiplication by α in GF(2^8) with the polynomial 0x11D (R21). -/
def gfDouble (b : Nat) : Nat := if b < 128 then 2 * b else (2 * b) ^^^ 0x11D

/-- α^n · b (R21). -/
def gfShift : Nat → Nat → Nat
  | 0, b => b
  | n + 1, b => gfShift n (gfDouble b)

/-- XOR of the data bytes, from byte 0. -/
def xorBytes : List Byte → Nat
  | [] => 0
  | b :: t => b.toNat ^^^ xorBytes t

/-- XOR of α^(j+1) · d_j over the data bytes, `j` counting from the first argument. -/
def xorWeighted : Nat → List Byte → Nat
  | _, [] => 0
  | j, b :: t => gfShift (j + 1) b.toNat ^^^ xorWeighted (j + 1) t

/-- Check byte Q of a data word (R21). -/
def checkQ (d : List Byte) : Nat := xorWeighted 0 d

/-- Check byte P of a data word (R21). -/
def checkP (d : List Byte) : Nat := xorBytes d ^^^ checkQ d

/-- The syndrome byte S_P of a received codeword (R22). -/
def syndromeP (d : List Byte) (p q : Nat) : Nat := xorBytes d ^^^ p ^^^ q

/-- The syndrome byte S_Q of a received codeword (R22). -/
def syndromeQ (d : List Byte) (q : Nat) : Nat := xorWeighted 0 d ^^^ q

/-- The syndrome, S_P + 256 · S_Q, that a flip of codeword bit `b` adds (R22). -/
def flipSyndrome (b : Nat) : Nat :=
  if b < 128 then 2 ^ (b % 8) + 256 * gfShift (b / 8 + 1) (2 ^ (b % 8))
  else if b < 136 then 2 ^ (b - 128)
  else 2 ^ (b - 136) + 256 * 2 ^ (b - 136)

/-- What a consumer finds in a codeword (Table 1.4): clean, corrected by inverting a codeword bit, or uncorrectable. -/
inductive CodeClass where
  | clean
  | corrected (bitNo : Nat)
  | uncorrectable
deriving DecidableEq, Repr

/-- Table 1.4: the class of a syndrome S_P + 256 · S_Q. -/
def classify (syn : Nat) : CodeClass :=
  if syn = 0 then .clean
  else match (List.range 144).find? (fun b => flipSyndrome b == syn) with
    | some b => .corrected b
    | none => .uncorrectable

/-- The counters and the capture of the word code, and event 12 or 13 (R27, R46): an uncorrectable codeword replaces a held
corrected capture, nothing else is replaced. -/
def State.codeReport (s : State) (addr unit syn : Nat) : State :=
  match classify syn with
  | .clean => s
  | .corrected _ =>
    let s := s.count EVC_WCE_CE_CNT
    let s := if s.on EVC_WCE_INFO_VALID then s
      else s.setAll [(EVC_WCE_INFO_VALID, 1), (EVC_WCE_INFO_UE, 0), (EVC_WCE_INFO_UNIT, unit),
        (EVC_WCE_INFO_SQ, syn / 256), (EVC_WCE_INFO_SP, syn), (EVC_WCE_ADDR_LO, addr / 16 * 16),
        (EVC_WCE_ADDR_HI, addr / 2 ^ 32)]
    s.raise 12
  | .uncorrectable =>
    let s := s.count EVC_WCE_UE_CNT
    let s := if s.on EVC_WCE_INFO_VALID && s.on EVC_WCE_INFO_UE then s
      else s.setAll [(EVC_WCE_INFO_VALID, 1), (EVC_WCE_INFO_UE, 1), (EVC_WCE_INFO_UNIT, unit),
        (EVC_WCE_INFO_SQ, syn / 256), (EVC_WCE_INFO_SP, syn), (EVC_WCE_ADDR_LO, addr / 16 * 16),
        (EVC_WCE_ADDR_HI, addr / 2 ^ 32)]
    s.raise 13

/-! ### Memory -/

/-- What a byte of memory holds. A byte nothing has written holds 0: RAM is zero-filled at start-up (R66); for MRAM, NOR and the
boot ROM the spec states no contents (DESIGN CHOICE, see the log). -/
def State.readByte (s : State) (addr : Nat) : Byte := look s.mem addr 0

/-- A byte of memory is written; a byte at 0 is not listed, so equal memories are equal lists. -/
def State.writeByte (s : State) (addr : Nat) (b : Byte) : State :=
  { s with mem := if b = 0 then del s.mem addr else ins s.mem addr b }

/-- Bytes are written at rising addresses. -/
def State.writeBytes (s : State) (addr : Nat) : List Byte → State
  | [] => s
  | b :: t => (s.writeByte addr b).writeBytes (addr + 1) t

/-- The bytes from `addr` on. -/
def State.readBytes (s : State) (addr : Nat) : Nat → List Byte
  | 0 => []
  | n + 1 => s.readByte addr :: s.readBytes (addr + 1) n

/-- The canonical form of memory: strictly rising addresses, no zero byte listed. -/
def Memory.wf (m : List Host.Cell) : Bool := rising m && m.all (fun c => c.2 != 0)

/-- A memory's bytes from `lo` up to, not including, `hi` are zero codewords. -/
def State.zeroFill (s : State) (lo hi : Nat) : State :=
  { s with mem := delRange s.mem lo hi, syn := delRange s.syn (lo / 16) (hi / 16) }

/-- The syndrome of the stored codeword number `w` (address / 16); 0 is clean. -/
def State.synOf (s : State) (w : Nat) : Nat := look s.syn w 0

/-- The syndrome of codeword `w` becomes `v`. -/
def State.setSyn (s : State) (w v : Nat) : State := { s with syn := if v = 0 then del s.syn w else ins s.syn w v }

/-- Codeword bit `b` of codeword `w` flips in storage: its data bit, if it is one, and the syndrome. -/
def State.flipStored (s : State) (w b : Nat) : State :=
  let s := if b < 128 then
      s.writeByte (16 * w + b / 8) (s.readByte (16 * w + b / 8) ^^^ BitVec.ofNat 8 (2 ^ (b % 8)))
    else s
  s.setSyn w (s.synOf w ^^^ flipSyndrome b)

/-- A corrected codeword is written back (R29): the wrong bit is inverted and the codeword is clean. -/
def State.correctStored (s : State) (w : Nat) : State :=
  match classify (s.synOf w) with
  | .corrected b => s.flipStored w b
  | _ => s

/-- A data byte of codeword `w` as a consumer uses it after the correction of Table 1.4. -/
def State.correctedByte (s : State) (addr : Nat) : Byte :=
  match classify (s.synOf (addr / 16)) with
  | .corrected b =>
    if b / 8 = addr % 16 ∧ b < 128 then s.readByte addr ^^^ BitVec.ofNat 8 (2 ^ (b % 8)) else s.readByte addr
  | _ => s.readByte addr

/-- The codewords that `len` bytes from `addr` touch. -/
def wordsOf (addr len : Nat) : List Nat :=
  if len = 0 then [] else (List.range ((addr + len - 1) / 16 + 1 - addr / 16)).map (addr / 16 + ·)

/-- Some codeword of a range is uncorrectable. -/
def State.anyBad (s : State) (addr len : Nat) : Bool :=
  (wordsOf addr len).any (fun w => classify (s.synOf w) == .uncorrectable)

/-- A consumer at unit `unit` checks the codewords of a range, in ascending order (R22, R27). -/
def State.checkWords (s : State) (addr len unit : Nat) : State :=
  (wordsOf addr len).foldl (fun s w => s.codeReport (16 * w) unit (s.synOf w)) s

/-- The status of lane `k` of group `g` (Table 3.4). -/
def State.lane (s : State) (g k : Nat) : Nat :=
  s.get (if k = 0 then VOTE_STAT_LANE0 g else if k = 1 then VOTE_STAT_LANE1 g else VOTE_STAT_LANE2 g)

/-- The lane group whose view a target port is. -/
def tcmGroup (t : Nat) : Option Nat := if t = 2 then some 0 else if t = 3 then some 1 else none

/-- The place of a byte of a group view in the TCM array of lane `k` (R86): array 0 stands at the view's own address, the others
2^40 and 2^41 above it, where no fabric address reaches. -/
def arrayAddr (k addr : Nat) : Nat := addr + k * 2 ^ 40

/-- The lane whose array holds an address of the group view of a SPLIT group (R119). -/
def splitOwner (addr : Nat) : Nat :=
  if addr % 0x100000 < 0x40000 then 0 else if addr % 0x100000 < 0x60000 then 1 else 2

/-- The lanes whose arrays a read of a group view may be answered from (R87, R119). -/
def State.readLanes (s : State) (g addr : Nat) : List Nat :=
  if s.get (VOTE_STAT_GROUP g) = 5 then [splitOwner addr] else [0, 1, 2].filter (fun k => s.lane g k == 0)

/-- The lanes whose arrays a write of a group view goes into (R87, R115, R119). -/
def State.writeLanes (s : State) (g addr : Nat) : List Nat :=
  if s.get (VOTE_STAT_GROUP g) = 5 then [splitOwner addr] else [0, 1, 2].filter (fun k => s.lane g k == 0 || s.lane g k == 2)

/-- Where the codeword at `a` is read from: itself, or, in a group view, the array of the lowest-numbered ACTIVE lane in which it
is not uncorrectable (R87). -/
def State.viewWord (s : State) (a : Nat) : Nat :=
  match tcmGroup ((targetOf a).getD 15) with
  | none => a
  | some g =>
    let l := s.readLanes g a
    match l.find? (fun k => classify (s.synOf (arrayAddr k a / 16)) != .uncorrectable) with
    | some k => arrayAddr k a
    | none => arrayAddr (l.headD 0) a

/-- Some codeword of a range, as it is read, is uncorrectable. -/
def State.viewBad (s : State) (addr len : Nat) : Bool :=
  (wordsOf addr len).any (fun w => classify (s.synOf (s.viewWord (16 * w) / 16)) == .uncorrectable)

/-- A consumer at unit `unit` checks the codewords of a range as they are read (R22, R27, R87). -/
def State.checkView (s : State) (addr len unit : Nat) : State :=
  (wordsOf addr len).foldl (fun s w => s.codeReport (16 * w) unit (s.synOf (s.viewWord (16 * w) / 16))) s

/-- The bytes of a range as a consumer uses them: `none` where a codeword is uncorrectable. -/
def State.viewBytes (s : State) (addr len : Nat) : Option (List Byte) :=
  if s.viewBad addr len then none
  else some ((List.range len).map (fun i =>
    s.correctedByte (s.viewWord ((addr + i) / 16 * 16) + (addr + i) % 16)))

/-- The part of a write that falls into codeword `w` covers it wholly. -/
def coversWord (addr len w : Nat) : Bool := decide (addr ≤ 16 * w) && decide (16 * w + 16 ≤ addr + len)

/-- A write of one codeword's share of the data (R28): a whole codeword is stored as it comes; a part is merged by the
controller after checking the stored codeword, and refused where that is uncorrectable. `unit` is the target port's number
in WCE_INFO. Answers whether the share was stored. -/
def State.writeWord (s : State) (addr len unit w : Nat) (data : List Byte) : Bool × State :=
  let lo := max addr (16 * w)
  let hi := min (addr + len) (16 * w + 16)
  let part := (data.drop (lo - addr)).take (hi - lo)
  if coversWord addr len w then (true, (s.writeBytes lo part).setSyn w 0)
  else
    let s' := s.codeReport (16 * w) unit (s.synOf w)
    if classify (s.synOf w) == .uncorrectable then (false, s')
    else (true, ((s'.correctStored w).writeBytes lo part).setSyn w 0)

/-- A memory write, codeword by codeword in ascending order; answers whether every share was stored. -/
def State.writeMem (s : State) (addr unit : Nat) (data : List Byte) : Bool × State :=
  (wordsOf addr data.length).foldl
    (fun (r : Bool × State) w =>
      let q := r.2.writeWord addr data.length unit w data
      (r.1 && q.1, q.2)) (true, s)

/-! ### Who may reach what -/

/-- A Normal access inside an enabled region (R489, R490). -/
def State.inRegion (s : State) (addr len : Nat) : Bool :=
  let inOne (p n : Nat) : Bool := s.on (WLD_RGN_BASE_EN n) && decide (s.get (WLD_RGN_BASE_BASE n) ≤ p)
    && decide (p ≤ s.get (WLD_RGN_LIM n))
  (List.range ((addr + len - 1) / 4096 + 1 - addr / 4096)).all
    (fun i => (List.range 16).any (inOne (addr / 4096 + i)))

/-- A Normal access to memory is refused under R489. -/
def State.regionRefused (s : State) (a : Agent) (t addr len : Nat) : Bool :=
  isNormal a s && (if t = 1 ∨ t = 4 ∨ t = 5 ∨ t = 6 then !s.inRegion addr len else decide (t ≠ 10 ∧ t ≠ 7 ∧ t ≠ 8))

/-- The access touches the range from `lo` to `hi` inclusive. -/
def touches (addr len lo hi : Nat) : Bool := decide (addr ≤ hi) && decide (lo < addr + len)

/-- A memory access that is refused by rules of its own: boot ROM and NOR take no write (R35); DRAM answers only once DRAM_RDY
is set and not in self-refresh (R66, R55); the regions of the recorder (R433) and of the key manager (R459). -/
def State.storeRefused (s : State) (a : Agent) (write : Bool) (t addr len : Nat) : Bool :=
  (write && (t == 0 || t == 5))
  || (t == 6 && (!s.on PWR_STAT_DRAM_RDY || s.get PWR_STATE_CUR == 2))
  || (touches addr len 0x10C00000 0x10F00FFF && (a != .recorder)
      && (write || isNormal a s || touches addr len 0x10F00000 0x10F00FFF))
  || (touches addr len 0x10FE0000 0x10FEFFFF && (portOf a != 7))

/-- A ring set of ETH, CGW or CRY that stays Secure only whoever owns the block, by its first ring and first register:
ETH rings 8 to 11 (R353), CGW rings 4 to 7 and FIFO sources (R379), CRY rings 4 and 5 and the key map (R480). -/
def secureOnlyPart (addr : Nat) : Bool :=
  (decide (0x40060200 ≤ addr) && decide (addr < 0x40060280)) || (decide (0x40060080 ≤ addr) && decide (addr < 0x400600A0))
  || (decide (0x40090180 ≤ addr) && decide (addr < 0x40090200)) || (decide (0x400900A0 ≤ addr) && decide (addr < 0x400900C0))
  || (decide (0x40090070 ≤ addr) && decide (addr < 0x40090078))
  || (decide (0x400D1180 ≤ addr) && decide (addr < 0x400D11C0)) || (decide (0x400D1060 ≤ addr) && decide (addr < 0x400D1070))
  || (decide (0x400D1200 ≤ addr) && decide (addr < 0x400D1240))
  || (decide (0x400B0080 ≤ addr) && decide (addr < 0x400B0088)) || (decide (0x400B0030 ≤ addr) && decide (addr < 0x400B003C))
  || addr == 0x400F0014

/-- Whether a Normal access reaches the register at `addr` (R488 and the exceptions it lists). The bits of Secure events in the
EVC are masked by the EVC itself (R41). -/
def State.normalReaches (s : State) (addr : Nat) (write : Bool) : Bool :=
  if 0x41000000 ≤ addr then true
  else match blockOf addr with
    | none => false
    | some .evc =>
      if addr < 0x40012000 then true
      else if addr < 0x40013000 then
        (let t := (addr - 0x40012000) / 0x10
         if addr % 0x10 = 4 then decide (2 ≤ t) && !bit (s.get WLD_APPW) (t - 2) else true)
      else false
    | some .key => (decide (0x400D0080 ≤ addr) && decide (addr < 0x400D0100))
        || (!write && ((decide (0x400D0120 ≤ addr) && decide (addr < 0x400D0130)) || decide (0x400D0400 ≤ addr)))
    | some .recorder => write && s.on REC_CTL_NPUT && decide (0x400C0020 ≤ addr) && decide (addr < 0x400C0030)
    | some .time => !write && (decide (addr < 0x4007000C) || addr == 0x40070038)
    | some .fifo => decide (0x40038100 ≤ addr) && decide (addr < 0x40038300)
        && (if write then (addr % 0x20 == 4 || addr % 0x20 == 8 || addr % 0x20 == 0xC) else addr % 0x20 == 0x10)
    | some .clk => if write then addr == 0x40002004 || addr == 0x40002008 || addr == 0x4000200C
        else decide (0x40002004 ≤ addr) && decide (addr < 0x40002010)
    | some .rst => write && addr == 0x40003008
    | some .pwr => addr == 0x40001018
    | some .sys => !write && decide (0x40000080 ≤ addr) && decide (addr < 0x40000090)
    | some .dbg => !write && addr == 0x40100004
    | some b => (b.owner s == .normal) && !secureOnlyPart addr

/-- What stands in the way of an access to a register. -/
inductive Gate where
  /-- nothing: the access reaches the register -/
  | pass
  /-- the control die does not run -/
  | asleep
  /-- an island on the way stalls, so the access waits (event 4 of Table 2.10) -/
  | stalled
  /-- the address is in no block (R34) -/
  | unassigned
  /-- the block is fenced by a hand-over (R491) -/
  | fenced
  /-- the block's clock is gated, so it does not respond (R81, R34) -/
  | gated
  /-- a Normal access the register does not take (R488) -/
  | world
deriving DecidableEq, Repr

/-- What meets an access to the register at `addr`. -/
def State.gate (s : State) (a : Agent) (addr : Nat) (write : Bool) : Gate :=
  if !s.awake then .asleep
  else if s.fabStalls || s.islandStalls (islandOf a) then .stalled
  else if 0x41000000 ≤ addr then (if (targetOf addr).isSome then .pass else .unassigned)
  else match blockOf addr with
    | none => .unassigned
    | some b =>
      if b.fenced s then .fenced
      else if b.gated s then .gated
      else if b.stalled s then .stalled
      else if isNormal a s && !s.normalReaches addr write then .world
      else .pass

/-- An access that does not reach its register, which waits where an island stalls, or else with the answer and the captures that follow; `none` where it passes. A gated
block is answered by the crossbar's timeout (R34); a Normal write that is ignored is captured (R488), a Normal read just
reads zero. -/
def State.refuse (s : State) (a : Agent) (addr : Nat) (write : Bool) : Option State :=
  match s.gate a addr write with
  | .pass => none
  | .asleep => some s
  | .stalled => some s
  | .unassigned => some (s.answerErr.fabError a addr 1 15)
  | .fenced => some ((s.grantAt a addr).answerErr.worldRefusal a addr 5 write)
  | .gated => some ((s.grantAt a addr).answerErr.fabError a addr 3 ((targetOf addr).getD 15))
  | .world => some (if write then ((s.grantAt a addr).answer 0).worldRefusal a addr 1 true else (s.grantAt a addr).answer 0)

/-- A register write that is a command of its own: where the access reaches the register the command acts, and the write is
answered. -/
def regCommand (a : Agent) (addr : Nat) (s : State) (act : State → State) : Out :=
  match s.refuse a addr true with
  | some s' => done s'
  | none => done ((act (s.grantAt a addr)).answer 0)

/-- An event of the outside world or of a unit's own clock, which comes about only while the control die runs. -/
def whenAwake (s : State) (act : State → State) : Out := if s.awake then done (act s) else .next s

/-- An event of one unit that takes it over the fabric, which comes about only while the unit and the fabric work. -/
def whenBus (b : Block) (s : State) (act : State → State) : Out := if b.live s && !s.fabStalls then done (act s) else .next s

/-- An event of one unit, which comes about only while that unit works. -/
def whenLive (b : Block) (s : State) (act : State → State) : Out := if b.live s then done (act s) else .next s

end Sys2Proof.Machine
end

