-- ==== Sys2Proof/Machine/Bus.lean ====
section
/-! DEFINITION. Memory as the engines reach it over the fabric: what stands in the way of an access, reads and writes with their
checks of the word code, and codewords passed on unchanged (R24 to R28, R34, R489, R214). -/

namespace Sys2Proof.Machine

/-- The first address of the region of credit FIFO `n` (R213). -/
def State.fifoBase (s : State) (n : Nat) : Nat :=
  0x21000000 + s.get FIFO_POOL * 0x40000 + s.get (FIFO_CFG_OFFSET n) * 16

/-- The size of the region of credit FIFO `n` in codewords (R213). -/
def State.fifoSize (s : State) (n : Nat) : Nat := 2 ^ s.get (FIFO_CFG_SIZE_LOG2 n)

/-- The enabled FIFOs whose regions an access touches. -/
def State.fifosAt (s : State) (addr len : Nat) : List Nat :=
  (List.range 16).filter (fun n => s.on (FIFO_CFG_EN n)
    && touches addr len (s.fifoBase n) (s.fifoBase n + 16 * s.fifoSize n - 1))

/-- The FIFO capture (R222, R223): the first error after REARM; counted; event 48 + n div 2. -/
def State.fifoError (s : State) (n cause : Nat) : State :=
  let s := if s.on FIFO_ERR_INFO_VALID then s
    else s.setAll [(FIFO_ERR_INFO_VALID, 1), (FIFO_ERR_INFO_CAUSE, cause), (FIFO_ERR_INFO_FIFO, n)]
  (s.count FIFO_ERR_CNT).raise (48 + n / 2)

/-- The FIFO region an access touches refuses it (R214): writes from all but the FIFO engine, with cause 0x7; reads from a world
that is neither CWORLD nor Secure of one of the regions touched. -/
def State.fifoRefuses (s : State) (a : Agent) (write : Bool) (addr len : Nat) : Option State :=
  match s.fifosAt addr len with
  | [] => none
  | n :: l =>
    if write then (match a with
      | .fifo _ => none
      | _ => some (s.fifoError n 7))
    else if isNormal a s && (n :: l).any (fun m => s.on (FIFO_CFG_CWORLD m)) then some s
    else none

/-- What refuses a memory access, with the captures that follow; `none` where it is served (R34, R489, R35, R433, R459, R214). -/
def State.memGate (s : State) (a : Agent) (write : Bool) (addr len : Nat) : Option State :=
  match targetOfRange addr len with
  | none => some (s.fabError a addr 1 15)
  | some t =>
    if !isMemPort t then some s
    else if s.regionRefused a t addr len then some (s.worldRefusal a addr 2 write)
    else if s.storeRefused a write t addr len then some s
    else s.fifoRefuses a write addr len

/-- What an engine's memory access gives: the data, an address fault of a VF (R166), an uncorrectable codeword, or an error
response. -/
inductive BusRes where
  | ok (data : List Byte)
  | fault
  | ue
  | err
deriving DecidableEq, Repr

/-- The stop cause of Table 6.6 that a failed access gives a ring. -/
def BusRes.cause : BusRes → Nat
  | .ok _ => 0
  | .fault => 1
  | .ue => 2
  | .err => 6

/-- A consumer reads memory and checks the codewords (R24, R26); a group view whose ACTIVE lanes all hold an uncorrectable codeword
answers an error response (R87). -/
def State.memRead (s : State) (a : Agent) (addr len : Nat) : BusRes × State :=
  if len = 0 then (.ok [], s)
  else match s.memGate a false addr len with
  | some s' => (.err, s')
  | none =>
    let s' := s.checkView addr len (portOf a)
    match s.viewBytes addr len with
    | none => (if (tcmGroup ((targetOf addr).getD 15)).isSome then .err else .ue, s')
    | some d => (.ok d, s')

/-- The arrays a memory write goes to: every ACTIVE lane's of a group view (R87), else the one place itself. -/
def State.arraysOf (s : State) (addr : Nat) : List Nat :=
  match tcmGroup ((targetOf addr).getD 15) with
  | none => [0]
  | some g => s.writeLanes g addr

/-- A producer writes memory; a merge that fails answers an error response (R28). -/
def State.memWrite (s : State) (a : Agent) (addr : Nat) (data : List Byte) : BusRes × State :=
  if data = [] then (.ok [], s)
  else match s.memGate a true addr data.length with
  | some s' => (.err, s')
  | none =>
    let t := (targetOf addr).getD 0
    let r := (s.arraysOf addr).foldl (fun (r : Bool × State) k =>
      let q := r.2.writeMem (arrayAddr k addr) (0x10 + t) data
      (r.1 && q.1, q.2)) (true, s)
    (if r.1 then .ok [] else .err, r.2)

/-- The transfers of an access to the target of an address are granted (R32). -/
def State.grantsAt (s : State) (a : Agent) (addr len : Nat) : State :=
  match targetOfRange addr len with
  | some t => s.grants a t (wordsOf addr len).length
  | none => s

/-- An engine reads memory. -/
def State.busRead (s : State) (a : Agent) (addr len : Nat) : BusRes × State := (s.grantsAt a addr len).memRead a addr len

/-- An engine writes memory. -/
def State.busWrite (s : State) (a : Agent) (addr : Nat) (data : List Byte) : BusRes × State :=
  (s.grantsAt a addr data.length).memWrite a addr data

/-- The bytes of one codeword, or of a part of one, become free values (R195), where agent `a` may write them; nothing is captured. -/
def State.smearWord (s : State) (a : Agent) (addr n : Nat) : State :=
  if (s.memGate a true addr n).isNone then
    let d := s.drawBytes n
    (d.2.arraysOf addr).foldl (fun t k => t.writeBytes (arrayAddr k addr) d.1) d.2
  else s

/-- An intermediary passes the codeword at `src` on to `dst` unchanged, its check bytes with it, and reports what it finds in it
(R25). -/
def State.passWord (s : State) (a : Agent) (src dst : Nat) : State :=
  let from0 := s.viewWord (src / 16 * 16)
  let syn := s.synOf (from0 / 16)
  let s := (s.grantAt a src).grantAt a dst
  ((s.codeReport (src / 16 * 16) (portOf a) syn).writeBytes (dst / 16 * 16) (s.readBytes from0 16)).setSyn (dst / 16) syn

/-! ### Codewords on their way (R22, R24 to R28) -/

/-- The syndrome that flips add to the codeword number `i` of a transfer. -/
def flipsOn (flips : List Flip) (i : Nat) : Nat := flips.foldl (fun m f => if f.1 = i then m ^^^ flipSyndrome f.2 else m) 0

/-- The bytes of codeword `i` of a transfer, as they arrive. -/
def flipBytes (flips : List Flip) (i : Nat) (l : List Byte) : List Byte :=
  flips.foldl (fun l f => if f.1 = i ∧ f.2 < 128 then l.set (f.2 / 8) ((l.getD (f.2 / 8) 0) ^^^ BitVec.ofNat 8 (2 ^ (f.2 % 8))) else l) l

/-- The bytes of a codeword as a consumer uses them (Table 1.4): corrected where one bit is wrong. -/
def consumed (syn : Nat) (l : List Byte) : List Byte :=
  match classify syn with
  | .corrected b => if b < 128 then l.set (b / 8) ((l.getD (b / 8) 0) ^^^ BitVec.ofNat 8 (2 ^ (b % 8))) else l
  | _ => l

/-- The ranges that the application cores may cache: shared SRAM, the NOR flash window and DRAM (R162). The caches themselves are not held:
they are coherent, so no access answers otherwise for them (R161; DEDUCED, log entry 169). -/
def cacheable (addr : Nat) : Bool :=
  match targetOf addr with
  | some 4 => true
  | some 5 => true
  | some 6 => true
  | _ => false

/-- The 16 bytes of codeword `w` with the bytes that a transfer at `addr` carries in it, the others 0. -/
def carried (addr : Nat) (data : List Byte) (w : Nat) : List Byte :=
  (List.range 16).map (fun j => if addr ≤ 16 * w + j then data.getD (16 * w + j - addr) 0 else 0)

/-- The bytes of a transfer at `addr` out of the 16 bytes of each codeword. -/
def carve (addr len : Nat) (words : List (List Byte)) : List Byte := ((words.flatMap id).drop (addr % 16)).take len

/-- A consumer checks the codewords of a transfer that carries `data`; answers whether one is uncorrectable, and the data it uses. -/
def State.consumeAll (s : State) (unit addr : Nat) (data : List Byte) (syn0 : Nat → Nat) (flips : List Flip) :
    Bool × List Byte × State :=
  let ws := (wordsOf addr data.length).zipIdx
  let words := ws.map (fun p => consumed (syn0 p.1 ^^^ flipsOn flips p.2) (flipBytes flips p.2 (carried addr data p.1)))
  let bad := ws.any (fun p => classify (syn0 p.1 ^^^ flipsOn flips p.2) == CodeClass.uncorrectable)
  let s := ws.foldl (fun (s : State) p => s.codeReport (16 * p.1) unit (syn0 p.1 ^^^ flipsOn flips p.2)) s
  (bad, carve addr data.length words, s)

end Sys2Proof.Machine
end

