-- ==== Sys2Proof/Machine/Channels.lean ====
section
/-! DEFINITION. The load channels of the power-stage dies: protection states, wire model, under-voltage, derating, ceiling,
motor bridges, shadow sets, supervision (Load Channels: Classes and Protection; Load Channel Control and Diagnostics). These
dies act by themselves: nothing here asks whether the control die runs (R250), only whether the stage dies are powered. -/

namespace Sys2Proof.Machine

/-! ### Channels and dies -/

/-- A channel as a stage-die reset leaves it: every parameter at its default (Table 8.8, Table 9.10), ΔT 0 (R267). -/
def chanInit (k : Nat) : ChanSt where
  inrushMs := 20
  retryMax := 3
  retryOff := 10
  olOff := false
  wireCs := classPick k 8 5 2
  wireTau := classPick k 130 50 20
  wireAmb := 65
  wireMax := 105
  fallback := 0
  tloss := false
  directReq := false
  inv := false
  src := 0x31
  dT := 0
  load := 0
  sumSq := 0
  stMs := 0
  winLen := 20
  coolMs := 10
  limCnt := 0
  openCnt := 0
  clearCnt := 0
  pullUp := false
  lowBefore := false

/-- A stage die as its reset leaves it. -/
def dieInit : DieSt := ⟨0, none, false, 0, 0, 0, 0, 0⟩

/-- The state of local channel `k` of die `d`. -/
def State.ch (s : State) (d k : Nat) : ChanSt := look s.chan (12 * d + k) (chanInit k)

/-- Local channel `k` of die `d` is given a state. -/
def State.setCh (s : State) (d k : Nat) (c : ChanSt) : State := { s with chan := ins s.chan (12 * d + k) c }

/-- The state of stage die `d`. -/
def State.dieSt (s : State) (d : Nat) : DieSt := look s.die d dieInit

/-- Stage die `d` is given a state. -/
def State.setDie (s : State) (d : Nat) (x : DieSt) : State := { s with die := ins s.die d x }

/-- The protection state of a channel (Table 8.3). -/
def State.chState (s : State) (d k : Nat) : Nat := s.get (PS_CH_STAT_STATE d k)

/-- The switch is in INRUSH or RUN. -/
def State.chOn (s : State) (d k : Nat) : Bool := s.chState d k == 1 || s.chState d k == 2

/-- The channel pair of a motor bridge (R279): pair 0 is channels 2 and 3, pair 1 channels 4 and 5. -/
def pairOf (k : Nat) : Option Nat :=
  if k = 2 ∨ k = 3 then some 0 else if k = 4 ∨ k = 5 then some 1 else none

/-- Channel `k` is half of an active motor bridge. -/
def State.bridged (s : State) (d k : Nat) : Bool :=
  match pairOf k with
  | some p => bit (s.dieSt d).bridgeEn p
  | none => false

/-- The channel whose request, parameters and line govern `k`: side A of its bridge, or itself (R280, R283). -/
def State.leadOf (s : State) (d k : Nat) : Nat := if s.bridged d k then k / 2 * 2 else k

/-- The channels that share a protection state with `k` (R283). -/
def State.halvesOf (s : State) (d k : Nat) : List Nat :=
  if s.bridged d k then [k / 2 * 2, k / 2 * 2 + 1] else [k]

/-! ### Flags -/

/-- The far flag of a channel is latched (R305). -/
def State.farFlag (s : State) (d k : Nat) : State :=
  let x := s.dieSt d
  s.setDie d { x with flags := orBits x.flags (2 ^ k) }

/-- A transition marked F: far flag and EV_STATE (R257, R305). -/
def State.flagState (s : State) (d k : Nat) : State := (s.farFlag d k).set (PS_CH_STAT_EV_STATE d k) 1

/-- A die flag is latched with its cause in PS_DIEFLAG (R276). -/
def State.dieFlag (s : State) (d : Nat) (cause : Fld) : State :=
  let x := s.dieSt d
  (s.setDie d { x with flags := orBits x.flags (2 ^ 12) }).set cause 1

/-! ### Control line and request -/

/-- The load-timer lines are valid (R290): LT_RUN is 1, the LCC is out of reset and its clock runs. -/
def State.ltValid (s : State) : Bool := s.awake && s.on LCC_CTL_LT_RUN && !Block.lcc.gated s

/-- The control input line of channel `k` is active (R288, R290). -/
def State.lineActive (s : State) (d k : Nat) : Bool :=
  let c := s.ch d k
  if c.src < 0x18 then (if s.ltValid then bit s.lines c.src != c.inv else !c.tloss)
  else if 0x20 ≤ c.src ∧ c.src < 0x28 then bit s.lines (24 + (c.src - 0x20)) != c.inv
  else (c.src == 0x30) != c.inv

/-- The request of a channel (R287): its command request, or a direct control line that DIRECT_REQ lets act. -/
def State.request (s : State) (d k : Nat) : Bool :=
  let c := s.ch d k
  bit (s.get (PS_CH_REQ d)) k
    || (c.directReq && decide (0x20 ≤ c.src) && decide (c.src < 0x28) && s.lineActive d k)

/-- The direction field of pair `p` in BR_DIR. -/
def brDir (d p : Nat) : Fld := if p = 0 then PS_BR_DIR_DIR0 d else PS_BR_DIR_DIR1 d

/-- The direction pair `p` takes when its brake ends. -/
def State.brakeOf (s : State) (d p : Nat) : Nat := if p = 0 then (s.dieSt d).brake0 else (s.dieSt d).brake1

/-- What a motor bridge does (Table 8.7): COAST outside INRUSH and RUN; BRAKE while the line is inactive or a reversal brakes;
else the requested direction. 0 COAST, 1 FWD, 2 REV, 3 BRAKE. -/
def State.bridgeDrive (s : State) (d p : Nat) : Nat :=
  let a := 2 + 2 * p
  if !s.chOn d a then 0
  else if !s.lineActive d a || s.brakeOf d p != 0 then 3
  else if s.get (brDir d p) = 1 then 1
  else if s.get (brDir d p) = 2 then 2
  else 3

/-- The channel conducts (R255); the halves of a motor bridge while the bridge drives FWD or REV (Table 8.7). -/
def State.conducts (s : State) (d k : Nat) : Bool :=
  if s.bridged d k then s.bridgeDrive d (k / 2 - 1) == 1 || s.bridgeDrive d (k / 2 - 1) == 2
  else s.chOn d k && s.lineActive d k

/-- The high side of the channel conducts, so its limit may act (R261): in a bridge that of side A in FWD and of side B in REV
(R283, Table 8.7). -/
def State.highSide (s : State) (d k : Nat) : Bool :=
  if s.bridged d k then s.bridgeDrive d (k / 2 - 1) == k % 2 + 1 else s.conducts d k

/-! ### Limits and currents (R252, R253, R299) -/

/-- The figure of number `key`, somewhere between the limits of Table 8.2. DESIGN CHOICE: one free value for every module. -/
def figure (lo hi key : Nat) : Nat := lo + Config.tolerance key % (hi - lo + 1)

/-- `x` is above `n` times a figure between `lo` and `hi`. -/
def aboveFigure (n x lo hi key : Nat) : Bool :=
  decide (n * hi < x) || (decide (n * lo < x) && decide (n * figure lo hi key < x))

/-- `x` reaches a figure between `lo` and `hi`. -/
def reachesFigure (x lo hi key : Nat) : Bool := decide (hi ≤ x) || (decide (lo ≤ x) && decide (figure lo hi key ≤ x))

/-- The class whose limits are in force: 0 H, 1 M, 2 L (R299). -/
def State.limitClass (s : State) (d k : Nat) : Nat :=
  let c := s.get (PS_CH_STAT_LIMCLS d k)
  if c = 0 then classPick k 0 1 2 else c

/-- The least and the greatest limit of a class in mA (Table 8.2): in the inrush window or in RUN. -/
def limitRange (inrush : Bool) (c : Nat) : Nat × Nat :=
  if inrush then (match c with | 0 => (136000, 184000) | 1 => (51000, 69000) | _ => (17000, 23000))
  else (match c with | 0 => (54000, 66000) | 1 => (21600, 26400) | _ => (7200, 8800))

/-- The limits in force at channel `k` (R259). -/
def State.limitOf (s : State) (d k : Nat) : Nat × Nat := limitRange (s.chState d k == 1) (s.limitClass d k)

/-- The number of a channel's limit in force among the figures. -/
def State.limitKey (s : State) (d k : Nat) : Nat :=
  16 * (12 * d + k) + s.limitClass d k + (if s.chState d k = 1 then 3 else 0)

/-- The switch limits (R261): its high side conducts, and the load would draw more than the limit in force. -/
def State.limits (s : State) (d k : Nat) : Bool :=
  s.highSide d k && aboveFigure 1 (s.ch d (s.leadOf d k)).load.toNat (s.limitOf d k).1 (s.limitOf d k).2 (s.limitKey d k)

/-- The current through the conducting high side of channel `k` in mA: what the load draws, at most the limit. -/
def State.limited (s : State) (d k : Nat) : Int :=
  if s.limits d k then figure (s.limitOf d k).1 (s.limitOf d k).2 (s.limitKey d k) else (s.ch d (s.leadOf d k)).load

/-- The current out of channel `k` in mA (R302, Table 8.7): of a bridge, positive at side A in FWD; in BRAKE what circulates. -/
def State.current (s : State) (d k : Nat) : Int :=
  if s.bridged d k then
    let a := s.leadOf d k
    let motor : Int := match s.bridgeDrive d (k / 2 - 1) with
      | 0 => 0
      | 1 => s.limited d a
      | 2 => - s.limited d (a + 1)
      | _ => (s.ch d a).load
    if k = a then motor else - motor
  else if s.conducts d k then s.limited d k else 0

/-- LIMITING of every channel shows whether it limits (R261). -/
def State.showLimits (s : State) (d : Nat) : State :=
  (List.range 12).foldl (fun s k => s.set (PS_CH_STAT_LIMITING d k) (b2n (s.limits d k))) s

/-! ### State changes -/

/-- Reports of the off-state check end when a channel leaves the states that check (R278). -/
def State.endOffCheck (s : State) (d k : Nat) : State :=
  (s.set (PS_CH_STAT_SHORT_BAT d k) 0).set (PS_CH_STAT_OPEN_OFF d k) 0

/-- The off-state check begins with a pull-up-off phase (R278). -/
def State.startOffCheck (s : State) (d k : Nat) : State :=
  s.setCh d k { s.ch d k with pullUp := false, lowBefore := false }

/-- The direction pair `p` takes when its brake ends is set; 0 none. -/
def State.setBrake (s : State) (d p v : Nat) : State :=
  if p = 0 then s.setDie d { s.dieSt d with brake0 := v } else s.setDie d { s.dieSt d with brake1 := v }

/-- A brake of the pair of channel `k` ends: with the switch off the bridge coasts, and a turn-on drives the requested direction
(R282, R284). -/
def State.endBrake (s : State) (d k : Nat) : State :=
  match pairOf k with
  | some p => s.setBrake d p 0
  | none => s

/-- OPEN_ON and its counts, the limit time and the limiting report end when a channel leaves RUN or its switch opens (R277,
R261). -/
def State.endOnChecks (s : State) (d k : Nat) : State :=
  let s := (s.set (PS_CH_STAT_OPEN_ON d k) 0).set (PS_CH_STAT_LIMITING d k) 0
  s.setCh d k { s.ch d k with limCnt := 0, openCnt := 0, clearCnt := 0 }

/-- One channel enters a state in which its switch is off. A check that runs already goes on. -/
def State.enterOff (s : State) (d k st : Nat) : State :=
  let wasOn := s.chOn d k
  let s := ((s.endBrake d k).endOnChecks d k).set (PS_CH_STAT_STATE d k) st
  let s := s.setCh d k { s.ch d k with stMs := 0 }
  if wasOn then s.startOffCheck d k else s

/-- One channel enters INRUSH: a new window of the full length opens, that of side A in a bridge (R259, R283). -/
def State.enterInrush (s : State) (d k : Nat) : State :=
  let s := (((s.endBrake d k).endOffCheck d k).endOnChecks d k).set (PS_CH_STAT_STATE d k) 1
  s.setCh d k { s.ch d k with stMs := 0, winLen := (s.ch d (s.leadOf d k)).inrushMs }

/-- One channel enters RUN as its window ends: the run limit applies, and the limit time counts from this instant (R260). -/
def State.enterRun (s : State) (d k : Nat) : State :=
  let s := s.set (PS_CH_STAT_STATE d k) 2
  s.setCh d k { s.ch d k with stMs := 0, limCnt := 0, openCnt := 0, clearCnt := 0 }

/-- A channel and, in a bridge, its other half do the same. -/
def State.both (s : State) (d k : Nat) (act : State → Nat → State) : State := (s.halvesOf d k).foldl act s

/-- The saturating 8-bit counter of Table 9.11 that a cause names. -/
def causeCounter (d k cause : Nat) : Option Fld :=
  match cause with
  | 2 => some (PS_CH_FCNT0_JTRIP d k)
  | 3 => some (PS_CH_FCNT0_LIMTIME d k)
  | 4 => some (PS_CH_FCNT1_WIRE d k)
  | 5 => some (PS_CH_FCNT0_UV d k)
  | 6 => some (PS_CH_FCNT0_UV d k)
  | 8 => some (PS_CH_FCNT1_SHED d k)
  | _ => none

/-- The cause of one channel's turn-off, counted and flagged (R257, R305). -/
def State.noteCause (s : State) (d k cause : Nat) : State :=
  let s := s.set (PS_CH_STAT_CAUSE d k) cause
  let s := match causeCounter d k cause with
    | some f => s.count f
    | none => s
  s.flagState d k

/-- Where a trip leads (Table 8.4): LATCHED for the wire budget and a shed, and when the retries used equal RETRY_MAX; COOL
otherwise. -/
def State.tripTarget (s : State) (d k cause : Nat) : Nat :=
  let a := s.leadOf d k
  if cause = 4 ∨ cause = 8 ∨ s.get (PS_CH_STAT_RETRIES d a) = (s.ch d a).retryMax then 6 else 3

/-- A trip of channel `k` or of its bridge (R262, R284): the switch of every half goes off, RETRY_OFF counts from now; a half
that trips itself (`own`) reports its cause, its partner 0xA. -/
def State.tripBy (s : State) (d k cause : Nat) (own : Nat → Bool) : State :=
  let target := s.tripTarget d k cause
  let pause := (s.ch d (s.leadOf d k)).retryOff
  s.both d k (fun s j =>
    let s := (s.enterOff d j target).noteCause d j (if own j then cause else 0xA)
    s.setCh d j { s.ch d j with coolMs := pause })

/-- A trip that one half of a bridge, or a channel alone, meets. -/
def State.trip (s : State) (d k cause : Nat) : State := s.tripBy d k cause (· == k)

/-- Under-voltage turns off channel `k` and its partner (R268): a channel that was limiting trips with cause 0x6, the others
enter UV_OFF with cause 0x5. A bridge with a limiting half trips as a whole (R284). -/
def State.uvTurnOff (s : State) (d k : Nat) : State :=
  if (s.halvesOf d k).any (fun j => s.on (PS_CH_STAT_LIMITING d j)) then
    s.tripBy d k 6 (fun j => s.on (PS_CH_STAT_LIMITING d j))
  else s.both d k (fun t j => (t.enterOff d j 4).noteCause d j 5)

/-- The die refuses a turn-on: derating (R271) or its sum above 200 A (R274). -/
def State.dieRefuses (s : State) (d : Nat) : Bool := s.on (PS_STAT_DERATE d) || s.on (PS_STAT_CEIL d)

/-- A turn-on that the die does not refuse (R259): INRUSH, and off again at once while the under-voltage condition holds (R268).
`flag` says whether the transition is marked F. -/
def State.openWindow (s : State) (d k : Nat) (flag : Bool) : State :=
  let s := s.both d k (fun s j => let s := s.enterInrush d j; if flag then s.flagState d j else s)
  if s.on (PS_STAT_UV d) then ((s.showLimits d).uvTurnOff d k).dieFlag d (PS_DIEFLAG_UV_OFF d) else s

/-- A turn-on: refused into DEFERRED where the die refuses, the first refusal for the ceiling in an episode flagging the die
(R276). In the hold state every channel stays off (R68). -/
def State.turnOn (s : State) (d k : Nat) (flag : Bool) : State :=
  if s.pwr.phase == .hold then s
  else if s.dieRefuses d then
    let s := s.both d k (fun s j => ((s.enterOff d j 5).count (PS_CH_FCNT0_DEFER d j)).flagState d j)
    if !s.on (PS_STAT_DERATE d) && !(s.dieSt d).ceilRefused then
      (s.setDie d { s.dieSt d with ceilRefused := true }).dieFlag d (PS_DIEFLAG_CEIL_REFUSE d)
    else s
  else s.openWindow d k flag

/-- A request that is off takes a channel to OFF from every state but LATCHED (Table 8.4), with cause 0x1 unless an earlier
trigger of the same evaluation has recorded its own (R258). -/
def State.requestOff (s : State) (d k : Nat) (keep : Bool) : State :=
  s.both d k (fun s j => let s := s.enterOff d j 0; if keep then s else s.set (PS_CH_STAT_CAUSE d j) 1)

/-- One evaluation of a channel's request and line (R287, R288). Those of the B side of a bridge are reported and otherwise
ignored: its state follows the A side (R280, R283). `keep`: a trigger of this evaluation has recorded the cause. -/
def State.evalChan (s : State) (d k : Nat) (keep : Bool) : State :=
  let s := (s.set (PS_CH_STAT_LINE d k) (b2n (s.lineActive d k))).set (PS_CH_STAT_REQ d k) (b2n (s.request d k))
  if s.leadOf d k ≠ k then s
  else if s.request d k then (if s.chState d k = 0 then s.turnOn d k false else s)
  else if s.chState d k = 0 ∨ s.chState d k = 6 then s
  else s.requestOff d k keep

/-- All channels of a die are evaluated together, in ascending order, after the triggers that took the die from `old` (R258). -/
def State.evalFrom (s old : State) (d : Nat) : State :=
  ((List.range 12).foldl (fun t k => t.evalChan d k (s.chState d k != old.chState d k)) s).showLimits d

/-- All channels of a die are evaluated, with no other trigger. -/
def State.evalDie (s : State) (d : Nat) : State := s.evalFrom s d

/-- All dies are evaluated. -/
def State.evalAll (s : State) : State := [0, 1, 2, 3].foldl (fun s d => s.evalDie d) s

/-- A stage-die power-up or reset (R257, R267, R307): all registers and channel state of the die at reset, every channel OFF
with cause 0x9, supervision in WAIT; its link leaves UP and trains again by itself while enabled (R226). -/
def State.psReset (s : State) (d : Nat) : State :=
  let s := s.resetRegs (0x50000000 + 0x10000 * d) (0x50010000 + 0x10000 * d)
  { s with chan := delRange s.chan (12 * d) (12 * d + 12), die := del s.die d }

/-- The stage dies are powered. -/
def State.psPowered (s : State) : Bool := s.pwr.stageOn

/-- An event of a stage die, which comes about only while the stage dies are powered. -/
def onDie (s : State) (act : State → State) : Out := if s.psPowered then done (act s) else .next s

/-! ### Writes to the far registers -/

/-- The die answers a part with a status of Table 7.3. -/
def State.farStatus (s : State) (d st : Nat) : State := s.setDie d { s.dieSt d with status := st }

/-- CH_CMD: the command requests of the addressed channels (R287). -/
def State.chCmd (s : State) (d v : Nat) : State :=
  let m := bits v 16 12
  let r := s.get (PS_CH_REQ d)
  ((s.set (PS_CH_REQ d) (orBits (clearBits r m) (v &&& m))).evalDie d).farStatus d 0

/-- A clear of a channel latched by the wire budget is refused while its model is too hot (R264). -/
def State.clearRefused (s : State) (d k : Nat) : Bool :=
  let c := s.ch d k
  s.chState d k == 6 && s.get (PS_CH_STAT_CAUSE d k) == 4
    && decide (((c.wireMax : Int) - c.wireAmb - 10 : Int) < c.dT)

/-- Whether a bridge as a whole may be cleared: no half refuses. -/
def State.clearable (s : State) (d k : Nat) : Bool :=
  s.chState d k == 6 && !(s.halvesOf d k).any (fun j => s.clearRefused d j)

/-- CH_CLEAR: each addressed LATCHED channel goes to OFF with its retries cleared (R263, R264); any refusal answers REFUSED. -/
def State.chClear (s : State) (d v : Nat) : State :=
  let refused := (List.range 12).any (fun k => bit v k && s.chState d k == 6 && !s.clearable d k)
  let s := (List.range 12).foldl (fun s k =>
    if bit v k && s.clearable d k then
      s.both d k (fun s j => (s.enterOff d j 0).set (PS_CH_STAT_RETRIES d j) 0)
    else s) s
  (s.evalDie d).farStatus d (if refused then 2 else 0)

/-- The request of pair `p` becomes direction `v` (R282): a change between FWD and REV while the bridge is on brakes first, and
a brake that runs goes on towards the direction now requested. -/
def State.setDir (s : State) (d p v : Nat) : State :=
  let reversing := s.chOn d (2 + 2 * p) && bit (s.dieSt d).bridgeEn p && v != 0
    && (s.brakeOf d p != 0 || s.get (brDir d p) + v == 3)
  ((s.setBrake d p (if reversing then v else 0)).set (brDir d p) v).showLimits d

/-- BR_CMD: the directions of the addressed pairs; 0b11 for an addressed pair refuses the whole write (R299). -/
def State.brCmd (s : State) (d v : Nat) : State :=
  let m := bits v 8 2
  if (bit m 0 && bits v 0 2 == 3) || (bit m 1 && bits v 2 2 == 3) then s.farStatus d 2
  else
    let s := if bit m 0 then s.setDir d 0 (bits v 0 2) else s
    let s := if bit m 1 then s.setDir d 1 (bits v 2 2) else s
    s.farStatus d 0

/-- A limit class that a channel's native class allows (R299): M limits on H, L limits on H and M. -/
def limClassOk (k v : Nat) : Bool :=
  v == 0 || (v == 1 && decide (k < 2)) || (v == 2 && decide (k < 6))

/-- CH_LIM: the limit classes of all twelve channels; one invalid class refuses the whole write (R299). -/
def State.chLim (s : State) (d v : Nat) : State :=
  if (List.range 12).all (fun k => limClassOk k (bits v (2 * k) 2)) then
    (((List.range 12).foldl (fun s k => s.set (PS_CH_STAT_LIMCLS d k) (bits v (2 * k) 2)) (s.set (PS_CH_LIM d) v)).showLimits d).farStatus d 0
  else s.farStatus d 2

/-- INFO_CLR.CH, with CNT: the EV_ bits of the addressed channels, and their counters (R305). -/
def State.infoClrCh (s : State) (d v : Nat) : State :=
  ((List.range 12).foldl (fun s k =>
    if bit v k then
      let s := s.setAll [(PS_CH_STAT_EV_SHORT d k, 0), (PS_CH_STAT_EV_OPEN_OFF d k, 0), (PS_CH_STAT_EV_OPEN_ON d k, 0),
        (PS_CH_STAT_EV_STATE d k, 0)]
      if bit v 13 then s.setAll [(PS_CH_FCNT0_DEFER d k, 0), (PS_CH_FCNT0_UV d k, 0), (PS_CH_FCNT0_LIMTIME d k, 0),
        (PS_CH_FCNT0_JTRIP d k, 0), (PS_CH_FCNT1_SHORT_BAT d k, 0), (PS_CH_FCNT1_OPEN d k, 0), (PS_CH_FCNT1_SHED d k, 0),
        (PS_CH_FCNT1_WIRE d k, 0)] else s
    else s) s).farStatus d 0

/-- INFO_CLR.DIE: PS_DIEFLAG and FB_APPLIED (Table 9.10). -/
def State.infoClrDie (s : State) (d : Nat) : State :=
  (s.setAll [(PS_DIEFLAG_SHED_NONE d, 0), (PS_DIEFLAG_SHED d, 0), (PS_DIEFLAG_CEIL_REFUSE d, 0), (PS_DIEFLAG_RESTART d, 0),
    (PS_DIEFLAG_UV_OFF d, 0), (PS_DIEFLAG_SENSOR_FAIL d, 0), (PS_DIEFLAG_OVERTEMP d, 0), (PS_DIEFLAG_DERATE_OUT d, 0),
    (PS_DIEFLAG_DERATE_IN d, 0), (PS_SUP_FB_APPLIED d, 0)]).farStatus d 0

/-- The word a register reads as, put together from its fields. -/
def State.plainWord (s : State) (rows : List FRow) (addr : Nat) : Nat :=
  (rows.filter (·.hits addr)).foldl (fun v r => match r.acc with
    | .wo => v
    | _ => v + s.get { r.fld with addr := addr } * 2 ^ r.fld.lo) 0

/-- The word of a stage-die register. Its reset value, where it depends on the channel's class or the die's position, is that of
the field itself. -/
def State.psWord (s : State) (d off : Nat) : Nat :=
  let addr := 0x50000000 + 0x10000 * d + off
  if off = 0 then 0x51010000 + 256 * d + 0xA0
  else if off = 0x40 then (List.range 12).foldl (fun m k => if s.chState d k = 6 then m + 2 ^ k else m) 0
  else if 0x104 ≤ off ∧ off < 0x104 + 0x20 * 12 ∧ off % 0x20 = 4 then
    (let k := (off - 0x104) / 0x20
     s.get (PS_CH_PROT1_WIRE_CS d k) + s.get (PS_CH_PROT1_WIRE_TAU d k) * 2 ^ 16)
  else s.plainWord rowsPs addr

/-- DIAG_LATCH: every CH_DIAG and CH_STAT word and the two die words are copied into the latch block (R302). -/
def State.diagLatch (s : State) (d : Nat) : State :=
  let s' := (List.range 12).foldl (fun t k =>
    (t.set (PS_LATCH_DIAG d k) (s.psWord d (0x404 + 0x10 * k))).set (PS_LATCH_STAT d k) (s.psWord d (0x400 + 0x10 * k))) s
  (s'.setAll [(PS_LATCH_DIE0 d, s.psWord d 0xC), (PS_LATCH_DIE1_FB_APPLIED d, s.get (PS_SUP_FB_APPLIED d)),
    (PS_LATCH_DIE1_STATE d, s.get (PS_SUP_STATE d)), (PS_LATCH_DIE1_ISUM d, s.get (PS_ISUM d))]).farStatus d 0

/-- HOLD_MS, 0 acting as 1 (Table 9.10). -/
def State.holdMs (s : State) (d : Nat) : Nat := max 1 (s.get (PS_CFG d))

/-- PS_CFG: a new HOLD_MS applies to a running hold, counted from the last valid heartbeat (R309). -/
def State.holdWrite (s : State) (d v : Nat) : State :=
  let s := s.set (PS_CFG d) v
  let s := if s.get (PS_SUP_STATE d) = 2 then s.set (PS_SUP_HOLD_LEFT d) (s.holdMs d - (s.dieSt d).heldMs) else s
  s.farStatus d 0

/-! ### Shadow sets (R238, R239) -/

/-- The first offset and the number of words of the shadow set a stage-die offset belongs to, its commit register included. -/
def psSet (off : Nat) : Option (Nat × Nat) :=
  if 0x100 ≤ off ∧ off < 0x280 then
    (if off % 0x20 < 0x18 then some (off / 0x20 * 0x20, 5) else none)
  else if 0x300 ≤ off ∧ off < 0x310 then some (off / 8 * 8, 1)
  else none

/-- The bits a register defines, from its map. -/
def definedBits (rows : List FRow) (addr : Nat) : Nat :=
  (rows.filter (·.hits addr)).foldl (fun m r => m + (2 ^ r.fld.w - 1) * 2 ^ r.fld.lo) 0

/-- Every field of the register at `addr` takes its part of `v`. -/
def State.storeWord (s : State) (rows : List FRow) (addr v : Nat) : State :=
  (rows.filter (·.hits addr)).foldl (fun s r => s.set { r.fld with addr := addr } (bits v r.fld.lo r.fld.w)) s

/-- The dirty and applied masks of the commit register at `addr`. -/
def dirtyFld (addr : Nat) : Fld := ⟨addr, 0, 8, 0⟩
def appliedFld (addr : Nat) : Fld := ⟨addr, 8, 8, 0⟩

/-- A write to word `i` of the shadow set at `base` with `n` words (R238); answers the status. -/
def State.shadowWrite (s : State) (rows : List FRow) (base n i v : Nat) : Nat × State :=
  let addr := base + 4 * i
  if (v &&& definedBits rows addr) = v then
    (0, (s.storeWord rows addr v).setBits (dirtyFld (base + 4 * n)) (2 ^ i))
  else (2, s)

/-- A write to the commit register of the shadow set at `base` (R239); answers the status. `inRange` says whether every shadow
word holds a value in range, `apply` copies them to the active registers. -/
def State.shadowCommit (s : State) (base n expected : Nat) (inRange : Bool) (apply : State → State) : Nat × State :=
  let c := base + 4 * n
  let dirty := s.get (dirtyFld c)
  if dirty = expected ∧ dirty ≠ 0 then
    (if inRange then (0, ((apply s).set (appliedFld c) expected).set (dirtyFld c) 0) else (2, s))
  else if dirty = 0 ∧ expected = s.get (appliedFld c) then (0, s)
  else (3, s.set (dirtyFld c) 0)

/-- Every shadow word of a channel holds a value in range (Table 8.8, Table 9.1, R285, R313). -/
def State.chanShadowOk (s : State) (d k : Nat) : Bool :=
  let amb := signed (s.get (PS_CH_PROT2_WIRE_AMB d k)) 8
  let mx := s.get (PS_CH_PROT2_WIRE_MAX d k)
  let src := s.get (PS_CH_ROUTE_SRC d k)
  let ims := s.get (PS_CH_PROT0_INRUSH_MS d k)
  let tau := s.get (PS_CH_PROT1_WIRE_TAU d k)
  decide (1 ≤ ims ∧ ims ≤ 200) && decide (1 ≤ s.get (PS_CH_PROT0_RETRY_OFF d k))
    && decide (1 ≤ tau) && decide (s.get (PS_CH_PROT1_WIRE_CS d k) ≤ 9)
    && decide (-40 ≤ amb ∧ amb ≤ 125) && decide (60 ≤ mx ∧ mx ≤ 200) && decide (amb + 20 ≤ (mx : Int))
    && decide (s.get (PS_CH_ROUTE_FALLBACK d k) ≠ 3)
    && (decide (src < 0x18) || decide (0x20 ≤ src ∧ src < 0x28) || src == 0x30 || src == 0x31)

/-- The shadow words of a channel become its active parameters (R239). A commit with the DT word dirty loads the rise when the
channel is OFF (R267); a commit that sets OLOFF_EN while the channel checks its output starts the cycle anew, and without it only
SHORT_BAT is reported and the pull-up stays off (R278). -/
def State.chanApply (s : State) (d k : Nat) : State :=
  let c := s.ch d k
  let dtDirty := bit (s.get (PS_CH_COMMIT_DIRTY d k)) 3
  let c' : ChanSt := { c with
    inrushMs := s.get (PS_CH_PROT0_INRUSH_MS d k)
    retryMax := s.get (PS_CH_PROT0_RETRY_MAX d k)
    retryOff := s.get (PS_CH_PROT0_RETRY_OFF d k)
    olOff := s.on (PS_CH_PROT0_OLOFF_EN d k)
    wireCs := s.get (PS_CH_PROT1_WIRE_CS d k)
    wireTau := s.get (PS_CH_PROT1_WIRE_TAU d k)
    wireAmb := signed (s.get (PS_CH_PROT2_WIRE_AMB d k)) 8
    wireMax := s.get (PS_CH_PROT2_WIRE_MAX d k)
    fallback := s.get (PS_CH_ROUTE_FALLBACK d k)
    tloss := s.on (PS_CH_ROUTE_TLOSS d k)
    directReq := s.on (PS_CH_ROUTE_DIRECT_REQ d k)
    inv := s.on (PS_CH_ROUTE_INV d k)
    src := s.get (PS_CH_ROUTE_SRC d k)
    dT := if dtDirty && s.chState d k == 0 then (s.get (PS_CH_DTINIT d k) : Rat) else c.dT
    pullUp := c.olOff && s.on (PS_CH_PROT0_OLOFF_EN d k) && c.pullUp
    lowBefore := c.olOff && s.on (PS_CH_PROT0_OLOFF_EN d k) && c.lowBefore }
  (if c'.olOff then s else s.set (PS_CH_STAT_OPEN_OFF d k) 0).setCh d k c'

/-- A commit of pair `p` is in range (R279): BRIDGE_EN changes only while both channels are OFF. -/
def State.pairShadowOk (s : State) (d p : Nat) : Bool :=
  (s.on (PS_BR_SET d p) == bit (s.dieSt d).bridgeEn p)
    || (s.chState d (2 + 2 * p) == 0 && s.chState d (3 + 2 * p) == 0)

/-- BRIDGE_EN of pair `p` becomes active. A change ends the reports of the off-state check, which a bridge has not, and starts
the check of the single channels anew (R278). -/
def State.pairApply (s : State) (d p : Nat) : State :=
  let x := s.dieSt d
  let t := s.setDie d { x with bridgeEn := putBit x.bridgeEn p (s.on (PS_BR_SET d p)) }
  if bit x.bridgeEn p = s.on (PS_BR_SET d p) then t
  else [2 + 2 * p, 3 + 2 * p].foldl (fun t k => (t.endOffCheck d k).startOffCheck d k) t

/-- A write to a shadow word or commit register of a stage die (R238, R239). -/
def State.psShadow (s : State) (d off v : Nat) : State :=
  let win := 0x50000000 + 0x10000 * d
  match psSet off with
  | none => s.farStatus d 1
  | some (b, n) =>
    let i := (off - b) / 4
    if i < n then
      let r := s.shadowWrite rowsPs (win + b) n i v
      r.2.farStatus d r.1
    else
      let r := if b < 0x300 then
          let k := (b - 0x100) / 0x20
          s.shadowCommit (win + b) n (bits v 0 8) (s.chanShadowOk d k) (fun s => s.chanApply d k)
        else
          let p := (b - 0x300) / 8
          s.shadowCommit (win + b) n (bits v 0 8) (s.pairShadowOk d p) (fun s => s.pairApply d p)
      (r.2.evalDie d).farStatus d r.1

/-- The offset has a register on a stage die. -/
def psMapped (off : Nat) : Bool := rowsPs.any (·.hits (0x50000000 + off))

/-- A write of `v` to the register at offset `off` of stage die `d`, with the status of Table 7.3: UNMAPPED where there is no
register, REFUSED where it is read only. -/
def State.psWrite (s : State) (d off v : Nat) : State :=
  let win := 0x50000000 + 0x10000 * d
  if (psSet off).isSome then s.psShadow d off v
  else match off with
    | 0x4 => (if bit v 16 then s.set (PS_SUP_FB_APPLIED d) 0 else s).farStatus d 0
    | 0x8 => s.holdWrite d v
    | 0x14 => ((rowsPs.filter (·.hits (win + 0x14))).foldl (fun s r =>
        if bit v r.fld.lo then s.set { r.fld with addr := win + 0x14 } 0 else s) s).farStatus d 0
    | 0x20 => s.chCmd d v
    | 0x28 => s.chClear d v
    | 0x2C => s.brCmd d v
    | 0x34 => s.chLim d v
    | 0x38 => let s := s.infoClrCh d v; if bit v 16 then s.infoClrDie d else s
    | 0x3C => if bit v 0 then s.diagLatch d else s.farStatus d 0
    | off =>
      if 0x400 ≤ off ∧ off < 0x4C0 ∧ off % 0x10 = 0 then
        ((rowsPs.filter (fun r => r.hits (win + off) && r.acc == .w1c)).foldl (fun s r =>
          if bit v r.fld.lo then s.set { r.fld with addr := win + off } 0 else s) s).farStatus d 0
      else s.farStatus d (if psMapped off then 2 else 1)

/-! ### Commands -/

/-- CH_CMD (R287). -/
def execChCmdWrite (d : Fin 4) (v : Word) (s : State) : Out := onDie s (fun s => s.chCmd d v.toNat)

/-- CH_CLEAR (R264). -/
def execChClearWrite (d : Fin 4) (v : Word) (s : State) : Out := onDie s (fun s => s.chClear d v.toNat)

/-- BR_CMD (R299, R282). -/
def execBrCmdWrite (d : Fin 4) (v : Word) (s : State) : Out := onDie s (fun s => s.brCmd d v.toNat)

/-- CH_LIM (R299). -/
def execChLimWrite (d : Fin 4) (v : Word) (s : State) : Out := onDie s (fun s => s.chLim d v.toNat)

/-- INFO_CLR.CH and CNT (R305). -/
def execInfoClrCh (d : Fin 4) (v : Word) (s : State) : Out := onDie s (fun s => s.infoClrCh d v.toNat)

/-- INFO_CLR.DIE (R298). -/
def execInfoClrDie (d : Fin 4) (v : Word) (s : State) : Out :=
  onDie s (fun s => if bit v.toNat 16 then s.infoClrDie d else s.farStatus d 0)

/-- DIAG_LATCH (R302). -/
def execDiagLatchWrite (d : Fin 4) (v : Word) (s : State) : Out :=
  onDie s (fun s => if bit v.toNat 0 then s.diagLatch d else s.farStatus d 0)

/-- PS_CFG.HOLD_MS (R309). -/
def execHoldMsWrite (d : Fin 4) (v : Word) (s : State) : Out := onDie s (fun s => s.holdWrite d v.toNat)

/-- The least and the greatest open-load threshold of a channel's class in mA (Table 8.2). -/
def openRange (k : Nat) : Nat × Nat := if k < 2 then (300, 500) else if k < 6 then (75, 125) else (20, 40)

/-- The counts of a channel after one sample (R261, R277). Only conducting samples count; in RUN only. -/
def State.sampleCounts (s : State) (d k : Nat) : State :=
  let c := s.ch d k
  let i := (s.current d k).natAbs
  let c := { c with sumSq := c.sumSq + i * i }
  if !(s.chState d k == 2 && s.conducts d k) then s.setCh d k c
  else
    let th := openRange k
    let key := 16 * (12 * d + k) + 6
    let c : ChanSt := { c with
      limCnt := if !s.highSide d k then c.limCnt else if s.limits d k then c.limCnt + 1 else 0
      openCnt := if reachesFigure i th.1 th.2 key then 0 else c.openCnt + 1
      clearCnt := if aboveFigure 2 i th.1 th.2 key then c.clearCnt + 1 else 0 }
    let s := s.setCh d k c
    if !s.on (PS_CH_STAT_OPEN_ON d k) && decide (80 ≤ c.openCnt) then
      (((s.set (PS_CH_STAT_OPEN_ON d k) 1).set (PS_CH_STAT_EV_OPEN_ON d k) 1).count (PS_CH_FCNT1_OPEN d k)).farFlag d k
    else if s.on (PS_CH_STAT_OPEN_ON d k) && decide (80 ≤ c.clearCnt) then s.set (PS_CH_STAT_OPEN_ON d k) 0
    else s

/-- °C plus 50, as TJ and TW give it, saturating at 255 (R302). -/
def plus50 (t : Rat) : Nat := min 255 (t + 50).floor.toNat

/-- A current in mA as CH_DIAG.I gives it, in the units of the class (R302). DESIGN CHOICE: to the nearest unit, and at the end of
the 16-bit field where it lies outside. -/
def diagUnits (k : Nat) (i : Int) : Int :=
  let u : Int := classPick k 40 20 10
  max (-32768) (min 32767 ((2 * i + u) / (2 * u)))

/-- One channel takes its sample: CH_DIAG, CH_STAT and the counts (R302). -/
def State.takeSample (s : State) (d k : Nat) (x : ChanSample) : State :=
  let c := s.ch d k
  let s := s.setAll [(PS_CH_DIAG_I d k, unsigned (diagUnits k (s.current d k)) 16), (PS_CH_DIAG_TJ d k, x.tj),
    (PS_CH_DIAG_TW d k, plus50 ((c.wireAmb : Rat) + c.dT))]
  s.sampleCounts d k

/-- CHANNEL_DIAG_SAMPLE (R302): the channels of the die, then its two die words; the under-voltage condition ends once the
supply is above the turn-off level (R268). -/
def execChannelDiagSample (d : Fin 4) (l : List ChanSample) (tdie vstage : Nat) (s : State) : Out :=
  onDie s (fun s =>
    let s := ((l.take 12).zipIdx).foldl (fun s p => s.setCh d p.2 { s.ch d p.2 with load := p.1.load }) s
    let s := ((l.take 12).zipIdx).foldl (fun s p => s.takeSample d p.2 p.1) (s.showLimits d)
    let s := (s.set (PS_STAT_TDIE d) tdie).set (PS_STAT_VSTAGE d) vstage
    let s := if 52 < vstage then s.set (PS_STAT_UV d) 0 else s
    s.evalDie d)

/-- Control line `j` may be high: a direct control line only where its pin is configured as one (R291). -/
def State.lineUsable (s : State) (j : Nat) : Bool := decide (j < 24) || bit (s.aonGet SNS_DC_DC_EN) (j - 24)

/-- A control line takes a level and every channel that selects it follows (R288, R289, R291). -/
def execControlLineChange (line : Fin 32) (high : Bool) (s : State) : Out :=
  let s := { s with lines := putBit s.lines line (high && s.lineUsable line) }
  done (if s.psPowered then s.evalAll else s)

/-- The load of a channel draws another current between two samples, and a conducting channel, in a bridge its driving high side,
limits where that is more than the limit in force (R261, R283). -/
def execCurrentLimitEngage (d : Fin 4) (x : ChanLoad) (s : State) : Out :=
  onDie s (fun s => (s.setCh d (s.leadOf d x.k) { s.ch d (s.leadOf d x.k) with load := x.load }).showLimits d)

/-- Limiting for 50 ms of conducting time in RUN trips with cause 0x3 (R261): at 8 kS/s it has then shown in 399 samples in a row
at least. -/
def execLimitTimeTrip (d : Fin 4) (k : Fin 12) (s : State) : Out :=
  onDie s (fun s => if s.chState d k = 2 ∧ s.on (PS_CH_STAT_LIMITING d k) = true ∧ 399 ≤ (s.ch d k).limCnt then
      (s.trip d k 3).evalFrom s d else s)

/-- The junction at its trip level: cause 0x2 (R262). -/
def execJunctionTrip (d : Fin 4) (k : Fin 12) (s : State) : Out :=
  onDie s (fun s => if s.chOn d k then (s.trip d k 2).evalFrom s d else s)

/-- A retry (R262): from COOL with cause 0x2, 0x3 or 0x6 (or a partner's), RETRY_OFF elapsed since the trip, the request on;
retries used + 1, counted once also where the die refuses (R272). -/
def execChannelRetry (d : Fin 4) (k : Fin 12) (s : State) : Out :=
  onDie s (fun s =>
    let a := s.leadOf d k
    let causes := (s.halvesOf d k).map (fun j => s.get (PS_CH_STAT_CAUSE d j))
    if s.chState d k = 3 ∧ (causes.any (fun c => c == 2 || c == 3 || c == 6)) = true ∧ s.request d a = true
        ∧ (s.ch d k).coolMs ≤ (s.ch d k).stMs + 1 ∧ s.pwr.phase ≠ .hold then
      ((s.both d k (fun s j => s.set (PS_CH_STAT_RETRIES d j) (s.get (PS_CH_STAT_RETRIES d j) + 1))).turnOn d a true).showLimits d
    else s)

/-- One second in RUN clears the retry counter (R263). -/
def execRetryCountClear (d : Fin 4) (k : Fin 12) (s : State) : Out :=
  onDie s (fun s => if s.chState d k = 2 ∧ 999 ≤ (s.ch d k).stMs then
      s.both d k (fun s j => s.set (PS_CH_STAT_RETRIES d j) 0) else s)

/-- The length of a channel's window in ms: INRUSH_MS as its turn-on found it, at most 10 while the die derates (R259, R271). -/
def State.windowMs (s : State) (d k : Nat) : Nat :=
  if s.on (PS_STAT_DERATE d) then min 10 (s.ch d k).winLen else (s.ch d k).winLen

/-- The window of a channel may have run its length, within its tolerance of 2 % and the millisecond that runs (Table 8.2). -/
def State.windowRun (s : State) (d k : Nat) : Bool := decide (98 * s.windowMs d k ≤ 100 * ((s.ch d k).stMs + 1))

/-- The inrush window ends and the run limit applies; the limit time counts from this instant (R259, R260). -/
def execInrushWindowEnd (d : Fin 4) (k : Fin 12) (s : State) : Out :=
  onDie s (fun s =>
    if s.chState d k = 1 ∧ s.windowRun d k = true then (s.both d k (fun s j => s.enterRun d j)).showLimits d
    else s)

/-- The steady rise per square ampere, K/A² (Table 8.6). -/
def wireK (cs : Nat) : Rat :=
  match cs with
  | 0 => 14 / 10 | 1 => 78 / 100 | 2 => 1 / 2 | 3 => 35 / 100 | 4 => 195 / 1000 | 5 => 103 / 1000
  | 6 => 56 / 1000 | 7 => 35 / 1000 | 8 => 185 / 10000 | _ => 102 / 10000

/-- The rise after one millisecond (R265): Q is the mean of the squared current over the eight samples. -/
def wireStep (c : ChanSt) : Rat :=
  let q : Rat := (c.sumSq : Rat) / 8000000
  c.dT + (wireK c.wireCs * q - c.dT) * (1 / 1000 / (c.wireTau : Rat))

/-- The wire model of one channel after its millisecond, and the time in its state. -/
def State.wireUpdate (s : State) (d k : Nat) : State :=
  let c := s.ch d k
  s.setCh d k { c with dT := wireStep c, sumSq := 0, stMs := c.stMs + 1 }

/-- The wire of a channel is above WIRE_MAX (R265). -/
def State.wireHot (s : State) (d k : Nat) : Bool :=
  let c := s.ch d k
  decide (((c.wireMax : Int) : Rat) < (c.wireAmb : Rat) + c.dT)

/-- Every channel's model updates, in every state; then each channel in INRUSH or RUN that stands above WIRE_MAX trips (R265), both
halves of a bridge with their own cause where both do (R284). In a hold the time since the last valid heartbeat goes on (R307). -/
def execWireModelUpdate (d : Fin 4) (s : State) : Out :=
  onDie s (fun s =>
    let s := (List.range 12).foldl (fun s k => s.wireUpdate d k) s
    let old := s
    let s := (List.range 12).foldl (fun s k => if s.chOn d k && s.wireHot d k then s.tripBy d k 4 (fun j => s.wireHot d j) else s) s
    let s := if s.get (PS_SUP_STATE d) = 2 then
        let x := s.dieSt d
        (s.setDie d { x with heldMs := x.heldMs + 1 }).set (PS_SUP_HOLD_LEFT d) (s.holdMs d - (x.heldMs + 1))
      else s
    s.evalFrom old d)

/-- Under-voltage (R268): every channel in INRUSH or RUN switches off; a running restart sequence is abandoned; the die is
flagged where a channel turned off. -/
def execUndervoltageTurnOff (d : Fin 4) (s : State) : Out :=
  onDie s (fun s =>
    let old := s
    let hit := (List.range 12).any (fun k => s.chOn d k)
    let s := (s.set (PS_STAT_UV d) 1).set (PS_STAT_RSTSEQ d) 0
    let s := (List.range 12).foldl (fun s k => if s.chOn d k then s.uvTurnOff d k else s) s
    let s := if hit then s.dieFlag d (PS_DIEFLAG_UV_OFF d) else s
    s.evalFrom old d)

/-- The lowest local channel with a property. -/
def lowest (p : Nat → Bool) : Option Nat := (List.range 12).find? p

/-- A restart sequence begins where a channel is in UV_OFF (R269). -/
def execUvRestartBegin (d : Fin 4) (s : State) : Out :=
  onDie s (fun s =>
    let s := s.set (PS_STAT_UV d) 0
    if (lowest (fun k => s.chState d k == 4)).isSome then
      (s.set (PS_STAT_RSTSEQ d) 1).dieFlag d (PS_DIEFLAG_RESTART d)
    else s)

/-- One slot of the restart sequence (R269): the next UV_OFF channel turns on, or goes to OFF where its request is off; the
sequence ends with the last one. -/
def execUvRestartSlot (d : Fin 4) (s : State) : Out :=
  onDie s (fun s =>
    if s.on (PS_STAT_RSTSEQ d) then
      let s := match lowest (fun k => s.chState d k == 4) with
        | none => s
        | some k => if s.request d (s.leadOf d k) then (s.turnOn d k true).showLimits d else s.requestOff d k false
      if (lowest (fun k => s.chState d k == 4)).isSome then s else s.set (PS_STAT_RSTSEQ d) 0
    else s)

/-- The die enters derating (R271): an inrush window that has run 10 ms or longer ends at once. -/
def State.startDerating (s : State) (d : Nat) : State :=
  if s.on (PS_STAT_DERATE d) then s
  else
    let s := (s.set (PS_STAT_DERATE d) 1).dieFlag d (PS_DIEFLAG_DERATE_IN d)
    ((List.range 12).foldl (fun s k => if s.chState d k = 1 ∧ 10 ≤ (s.ch d k).stMs then s.enterRun d k else s) s).showLimits d

/-- Derating begins (R271). -/
def execDieDeratingEnter (d : Fin 4) (s : State) : Out := onDie s (fun s => s.startDerating d)

/-- Derating ends, unless a failed sensor holds it (R271, R273). -/
def execDieDeratingExit (d : Fin 4) (s : State) : Out :=
  onDie s (fun s =>
    if s.on (PS_STAT_DERATE d) && !s.on (PS_STAT_SENSOR_FAIL d) then
      (s.set (PS_STAT_DERATE d) 0).dieFlag d (PS_DIEFLAG_DERATE_OUT d)
    else s)

/-- The channel cools after a shutdown of the die (R273). -/
def State.cooled (s : State) (d k : Nat) : Bool := s.chState d k == 3 && s.get (PS_CH_STAT_CAUSE d k) == 7

/-- A channel that takes a turn slot (R272, R274): DEFERRED with the die sum at most 180 A, or COOL with cause 0x7; its request
on. -/
def State.waitsForSlot (s : State) (d k : Nat) : Bool :=
  ((s.chState d k == 5 && decide (s.get (PS_ISUM d) ≤ 1800)) || s.cooled d k) && s.request d (s.leadOf d k)

/-- One slot for deferred and cooled channels, only while the die does not derate. DEDUCED: Table 8.4 sends a cooled channel to
INRUSH alone, so the stage ceiling does not refuse it. -/
def execDeferredTurnOnSlot (d : Fin 4) (s : State) : Out :=
  onDie s (fun s =>
    if s.on (PS_STAT_DERATE d) = true ∨ s.pwr.phase = .hold then s
    else match lowest (fun k => s.waitsForSlot d k) with
      | some k => (if s.cooled d k then s.openWindow d k true else s.turnOn d k true).showLimits d
      | none => s)

/-- Die over-temperature (R273): every channel in INRUSH, RUN or DEFERRED enters COOL with cause 0x7, unless the sensor has
failed. -/
def execDieOvertempShutdown (d : Fin 4) (s : State) : Out :=
  onDie s (fun s =>
    if s.on (PS_STAT_SENSOR_FAIL d) then s
    else
      let s := (List.range 12).foldl (fun s k =>
        if s.chOn d k || s.chState d k == 5 then (s.enterOff d k 3).noteCause d k 7 else s) s
      s.dieFlag d (PS_DIEFLAG_OVERTEMP d))

/-- A failed sensor holds the die in derating until its next reset (R273). -/
def execDieSensorFail (d : Fin 4) (s : State) : Out :=
  onDie s (fun s =>
    if s.on (PS_STAT_SENSOR_FAIL d) then s
    else
      ((s.startDerating d).set (PS_STAT_SENSOR_FAIL d) 1).dieFlag d (PS_DIEFLAG_SENSOR_FAIL d))

/-- The current a channel adds to the die's sum, in mA; a bridge counts the size of its current at side A (R302). -/
def State.chMilliamps (s : State) (d k : Nat) : Nat :=
  let i := s.current d k
  if s.bridged d k then (if s.leadOf d k = k then i.natAbs else 0) else i.toNat

/-- The summed channel current of a die, in units of 100 mA (R270). -/
def State.dieSum (s : State) (d : Nat) : Nat := ((List.range 12).map (fun k => s.chMilliamps d k)).sum / 100

/-- Every 125 µs the sum is taken; an episode above 200 A begins or ends (R274, R276). -/
def execCurrentSumUpdate (d : Fin 4) (s : State) : Out :=
  onDie s (fun s =>
    let sum := s.dieSum d
    let s := s.set (PS_ISUM d) sum
    if 2000 < sum then
      (if s.on (PS_STAT_CEIL d) then s
       else (s.set (PS_STAT_CEIL d) 1).setDie d { s.dieSt d with ceilRefused := false })
    else s.set (PS_STAT_CEIL d) 0)

/-- The channel a shed picks (R274): of those in RUN above their continuous current, the one that carries the most; the lowest
of equals. -/
def State.shedPick (s : State) (d : Nat) : Option Nat :=
  ((List.range 12).filter (fun k => s.chState d k == 2 && decide (classPick k 40000 15000 5000 < s.chMilliamps d k))).foldl
    (fun b k => match b with
      | none => some k
      | some j => if s.chMilliamps d j < s.chMilliamps d k then some k else some j) none

/-- A shed (R274): the picked channel latches with cause 0x8; where there is none the die is flagged only. -/
def execStageShed (d : Fin 4) (s : State) : Out :=
  onDie s (fun s =>
    if s.on (PS_STAT_CEIL d) then
      match s.shedPick d with
      | some k => (s.trip d k 8).dieFlag d (PS_DIEFLAG_SHED d)
      | none => s.dieFlag d (PS_DIEFLAG_SHED_NONE d)
    else s)

/-- A report of the off-state check begins: its EV_ bit, its counter, the far flag (R305). -/
def State.offReport (s : State) (d k : Nat) (st ev cnt : Fld) : State :=
  if s.on st then s else (((s.set st 1).set ev 1).count cnt).farFlag d k

/-- An off-state phase ends (R278). Not for the channels of a motor bridge, nor in INRUSH or RUN. -/
def execOffStatePhaseEnd (d : Fin 4) (k : Fin 12) (above : Bool) (s : State) : Out :=
  onDie s (fun s =>
    if s.chOn d k || s.bridged d k then s
    else
      let c := s.ch d k
      if c.olOff && c.pullUp then
        let s := if above && c.lowBefore then
            s.offReport d k (PS_CH_STAT_OPEN_OFF d k) (PS_CH_STAT_EV_OPEN_OFF d k) (PS_CH_FCNT1_OPEN d k)
          else s.set (PS_CH_STAT_OPEN_OFF d k) 0
        s.setCh d k { c with pullUp := false }
      else
        let s := if above then
            s.offReport d k (PS_CH_STAT_SHORT_BAT d k) (PS_CH_STAT_EV_SHORT d k) (PS_CH_FCNT1_SHORT_BAT d k)
          else s.set (PS_CH_STAT_SHORT_BAT d k) 0
        s.setCh d k { c with pullUp := c.olOff, lowBefore := !above })

/-- A braking bridge drives its new direction: a turn-on with a new window (R282). -/
def execBridgeBrakeEnd (d : Fin 4) (p : Fin 2) (s : State) : Out :=
  onDie s (fun s =>
    if s.brakeOf d p = 0 ∨ s.chOn d (2 + 2 * p) = false then s
    else ((s.setBrake d p 0).turnOn d (2 + 2 * p) false).showLimits d)

/-! ### Supervision (R307 to R309) -/

/-- A valid heartbeat: the count differs from the last valid one (R244); supervision returns to NORMAL. -/
def execHeartbeatReceive (d : Fin 4) (count : Fin 65536) (s : State) : Out :=
  onDie s (fun s =>
    let x := s.dieSt d
    if x.hbLast = some count.val then s
    else
      (s.setDie d { x with hbLast := some count.val, heldMs := 0 }).setAll [(PS_SUP_STATE d, 1), (PS_SUP_HOLD_LEFT d, 0)])

/-- 150 µs without a valid heartbeat: NORMAL becomes HOLD (Table 9.7). -/
def execSupervisionHoldEnter (d : Fin 4) (s : State) : Out :=
  onDie s (fun s =>
    if s.get (PS_SUP_STATE d) = 1 then
      (s.setDie d { s.dieSt d with heldMs := 0 }).setAll [(PS_SUP_STATE d, 2), (PS_SUP_HOLD_LEFT d, s.holdMs d)]
    else s)

/-- The command requests after the fallback (R308). -/
def State.fallbackReq (s : State) (d : Nat) : Nat :=
  (List.range 12).foldl (fun r k =>
    match (s.ch d (s.leadOf d k)).fallback with
    | 0 => putBit r k false
    | 1 => putBit r k true
    | _ => r) (s.get (PS_CH_REQ d))

/-- HOLD_MS elapsed since the last valid heartbeat, counted in whole periods of 1 ms: the fallback is applied once (R308). -/
def execFallbackApply (d : Fin 4) (s : State) : Out :=
  onDie s (fun s =>
    if s.get (PS_SUP_STATE d) = 2 ∧ s.holdMs d ≤ (s.dieSt d).heldMs + 1 then
      (s.setAll [(PS_CH_REQ d, s.fallbackReq d), (PS_SUP_STATE d, 3), (PS_SUP_FB_APPLIED d, 1), (PS_SUP_HOLD_LEFT d, 0)]).evalDie d
    else s)

end Sys2Proof.Machine
end

