-- ==== Sys2Proof/Machine/Metering.lean ====
section
/-! DEFINITION. The metering die and the sense inputs (Energy Metering and Sense Inputs). -/

namespace Sys2Proof.Machine

/-- The epoch counter (R337). -/
def State.epoch (s : State) : Nat := s.get TIME_STAT_EPOCH

/-! ### The metering die -/

/-- The metering die with no session begun. -/
def mdInit : MdSt := ⟨0, 0, 0, 0, false, 0, 0x3E8, 5, 1, true, [0, 0, 0], 0⟩

/-- Far flag `b` of the metering die is latched, and MD_FLAG mirrors it (R430). -/
def State.mdFlag (s : State) (b : Nat) : State :=
  { s.setBits MD_FLAG (2 ^ b) with md := { s.md with flags := orBits s.md.flags (2 ^ b) } }

/-- A session begins at a power-up or reset of the die (R420): energy, SEQ and CALCNT 0, defaults of Table 13.4, a new SESSION
value (a free value), the die FREE. -/
def State.mdSession (s : State) : State :=
  let s := s.resetRegs 0x50080000 0x50090000
  let r := { s with md := mdInit }.draw 32
  (r.2.set MD_SESSION r.1).mdFlag 6

/-- Rounding to the nearest integer (the registers hold rounded mA and mV, R418). -/
def nearest (r : Rat) : Int := (r + 1 / 2).floor

/-- The pack current in mA: the clamped shunt voltage over the shunt resistance (R414), exactly. -/
def packCurrent (s : State) (nv : Int) : Rat := (nv : Rat) * 10 / (s.md.shunt : Rat)

/-- A converter's value with the GAIN and OFFSET trims of calibration word `c` added (R415, Table 13.4): the gain in units of 2^-20, then
the offset in units of `unit`; in the units of the value, rounded to the nearest (DESIGN CHOICE, log entry 170). -/
def trimBy (c : Nat) (unit raw : Int) : Int :=
  nearest ((raw : Rat) * (1 + (signed (c / 65536) 16 : Rat) / 1048576)) + unit * signed (c % 65536) 16

/-- A sample with the trims of the active calibration words. -/
def State.trimmed (s : State) (m : MdSample) : MdSample :=
  { m with
    s0 := trimBy (s.md.cal.getD 0 0) 100 m.s0
    s1 := trimBy (s.md.cal.getD 1 0) 100 m.s1
    uv := (trimBy (s.md.cal.getD 2 0) 10000 m.uv).toNat }

/-- A shunt voltage clamped to ±150 mV (R414). -/
def clampShunt (nv : Int) : Int := max (-150000000) (min 150000000 nv)

/-- A pack voltage clamped to 1000 V, in µV (R414). -/
def clampPack (uv : Nat) : Nat := min 1000000000 uv

/-- The energy of an interval in millijoules with a 32-bit fraction, signed (R418). -/
def intervalEnergy (s : State) (m : MdSample) : Rat :=
  packCurrent s (clampShunt m.s0) * ((clampPack m.uv : Nat) : Rat) / 1000 * (m.ns : Rat) / 1000000000000 * 4294967296

/-- MD_ENERGY_INTEGRATE (R418): a positive product goes to E_DIS, a negative one as a magnitude to E_CHG. -/
def State.mdIntegrate (s : State) (m : MdSample) : State :=
  if s.md.integ then
    let e := intervalEnergy s m
    if 0 < e then { s with md := { s.md with eDis := s.md.eDis + e.floor.toNat } }
    else { s with md := { s.md with eChg := s.md.eChg + (-e).floor.toNat } }
  else s

/-- MD_CROSS_CHECK (R419): every 8 samples I0 and I1 are compared. -/
def State.mdCheck (s : State) (m : MdSample) : State :=
  if s.md.samples % 8 = 0 then
    if (s.md.chkThr : Int) * 150000 < (clampShunt m.s0 - clampShunt m.s1).natAbs then (s.set MD_STAT_CHECK 1).mdFlag 1
    else s.set MD_STAT_CHECK 0
  else s

/-- MD_FLOW_DETECT (R421): current in one of the first 8 samples of the session. -/
def State.mdFlow (s : State) (m : MdSample) : State :=
  let i := packCurrent s (clampShunt m.s0)
  let mag := if i < 0 then -i else i
  if s.md.samples ≤ 8 ∧ (s.md.flowThr : Rat) * 1000 < mag then s.mdFlag 3 else s

/-- A sample interval closes (R416 to R421): the sample block, the range flags, energy, cross-check, flow. -/
def State.mdClose (s : State) (m : MdSample) : State :=
  let r0 := clampShunt m.s0 != m.s0
  let r1 := clampShunt m.s1 != m.s1
  let rv := clampPack m.uv != m.uv
  let s := { s with md := { s.md with samples := s.md.samples + 1, extended := false } }
  let s := s.setAll [(MD_SMP_SEQ, s.md.samples),
    (MD_SMP_I0, unsigned (nearest (packCurrent s (clampShunt m.s0))) 32),
    (MD_SMP_I1, unsigned (nearest (packCurrent s (clampShunt m.s1))) 32),
    (MD_SMP_V, (nearest (((clampPack m.uv : Nat) : Rat) / 1000)).toNat),
    (MD_STAT_RANGE_I0, b2n r0), (MD_STAT_RANGE_I1, b2n r1), (MD_STAT_RANGE_V, b2n rv)]
  let s := if r0 || r1 || rv then s.mdFlag 2 else s
  ((s.mdIntegrate m).mdCheck m).mdFlow m

/-- The metering die is powered. -/
def onMd (s : State) (act : State → State) : Out := if s.pwr.mdOn then done (act s) else .next s

/-- The strobe line reaches the die only while SNS_CTL.MD_EN is 1 and SNS works (R416). -/
def State.mdStrobed (s : State) : Bool := Block.sns.live s && s.on SNS_CTL_MD_EN

/-- A strobe (R417). -/
def execMdStrobe (m : MdSample) (s : State) : Out :=
  onMd s (fun s =>
    if !s.mdStrobed then s
    else
      let s := { s with sns := { s.sns with strobeTime := s.zone, strobeEpoch := s.epoch, strobeDue := true } }
      if s.on MD_STAT_ALIGNED then
        if m.ns < 100000 then s.set MD_TIMING_EARLY (s.get MD_TIMING_EARLY + 1) else s.mdClose (s.trimmed m)
      else if m.ns < 25000 && !s.md.extended then { s with md := { s.md with extended := true } }
      else (s.mdClose (s.trimmed m)).set MD_STAT_ALIGNED 1)

/-- No strobe in time (R417): ALIGNED closes at 150 µs and becomes FREE; FREE closes at 125 µs unless a strobe extended the
interval. -/
def execMdIntervalTimeout (m : MdSample) (s : State) : Out :=
  onMd s (fun s =>
    if s.on MD_STAT_ALIGNED then
      (((s.mdClose (s.trimmed m)).set MD_STAT_ALIGNED 0).bump MD_TIMING_FREE).mdFlag 0
    else if s.md.extended then s
    else (s.mdClose (s.trimmed m)).bump MD_TIMING_FREE)

/-- The latch block is filled from one instant (Table 13.4). -/
def State.mdLatch (s : State) : State :=
  (s.setAll [(MD_L_SEQ, s.get MD_SMP_SEQ), (MD_L_I0, s.get MD_SMP_I0), (MD_L_I1, s.get MD_SMP_I1), (MD_L_V, s.get MD_SMP_V),
    (MD_L_EDIS_LO, s.md.eDis / 2 ^ 32), (MD_L_EDIS_HI, s.md.eDis / 2 ^ 64),
    (MD_L_ECHG_LO, s.md.eChg / 2 ^ 32), (MD_L_ECHG_HI, s.md.eChg / 2 ^ 64), (MD_L_CALCNT, s.md.calCnt)])

/-- MD_LATCH (R432). -/
def execMdLatchWrite (v : Word) (s : State) : Out :=
  onMd s (fun s => if bit v.toNat 0 then s.mdLatch else s)

/-- The isolated supply leaves regulation (R430). -/
def execMdIsoFault (s : State) : Out := onMd s (fun s => (s.set MD_STAT_ISO_OK 0).mdFlag 5)

/-- The isolated supply is in regulation again (R432). -/
def execMdIsoRestore (s : State) : Out := onMd s (fun s => s.set MD_STAT_ISO_OK 1)

/-- Every word of the configuration set is in range (Table 13.4). -/
def State.mdShadowOk (s : State) : Bool :=
  decide (1 ≤ s.get MD_SHUNT) && decide (1 ≤ s.get MD_CFG_FLOW_THR) && decide (1 ≤ s.get MD_CFG_CHK_THR)

/-- An applied commit (R423): the configuration becomes active, CALCNT counts, MD_CAL is flagged. -/
def State.mdApply (s : State) : State :=
  let x : MdSt := { s.md with
    shunt := s.get MD_SHUNT
    chkThr := s.get MD_CFG_CHK_THR
    flowThr := s.get MD_CFG_FLOW_THR
    integ := s.on MD_CFG_INTEG_EN
    cal := (List.range 3).map (fun i => 65536 * s.get (MD_CAL_GAIN i) + s.get (MD_CAL_OFFSET i))
    calCnt := (s.md.calCnt + 1) % 65536 }
  ({ s with md := x }.set MD_STAT_INTEG (s.get MD_CFG_INTEG_EN)).mdFlag 4

/-- The metering die answers a part with a status. -/
def State.mdStatus (s : State) (st : Nat) : State := { s with md := { s.md with status := st } }

/-- A write to the configuration set of the metering die or its commit register (R238, R239, R432). -/
def State.mdShadow (s : State) (off v : Nat) : State :=
  let i := (off - 0x200) / 4
  let r := if i < 5 then s.shadowWrite rowsMd 0x50080200 5 i v
    else s.shadowCommit 0x50080200 5 (bits v 0 8) s.mdShadowOk (fun s => s.mdApply)
  r.2.mdStatus r.1

/-- A write to a register of the metering die, with its status (Table 7.3). -/
def State.mdWrite (s : State) (off v : Nat) : State :=
  if 0x200 ≤ off ∧ off ≤ 0x214 then s.mdShadow off v
  else if off = 0x8 then (s.clrBits MD_FLAG (bits v 0 8)).mdStatus 0
  else if off = 0xC then (if bit v 0 then s.mdLatch else s).mdStatus 0
  else s.mdStatus (if rowsMd.any (·.hits (0x50080000 + off)) then 2 else 1)

/-- A write to offset `off` of far die `d` (4 is the metering die). -/
def State.farWrite (s : State) (d off v : Nat) : State := if d = 4 then s.mdWrite off v else s.psWrite d off v

/-- The status the far die gave its last part. -/
def State.farStat (s : State) (d : Nat) : Nat := if d = 4 then s.md.status else (s.dieSt d).status

/-- A read of offset `off` of far die `d`: the status and the word. -/
def State.farRead (s : State) (d off : Nat) : Nat × Nat :=
  if d = 4 then
    (if rowsMd.any (·.hits (0x50080000 + off)) then (0, s.plainWord rowsMd (0x50080000 + off)) else (1, 0))
  else if psMapped off then (0, s.psWord d off) else (1, 0)

/-- A write to a shadow word: of the metering die or of a stage die (R238). -/
def execShadowWordWrite (d : Fin 5) (off : Nat) (v : Word) (s : State) : Out :=
  let isShadow := if d.val = 4 then decide (0x200 ≤ off ∧ off < 0x214)
    else match psSet off with
      | some (b, n) => decide ((off - b) / 4 < n)
      | none => false
  if (if d.val = 4 then s.pwr.mdOn else s.pwr.stageOn) && isShadow && decide (off % 4 = 0) then
    done (s.farWrite d off v.toNat)
  else .next s

/-- A write to a commit register: of the metering die or of a stage die (R239). -/
def execShadowCommit (d : Fin 5) (off : Nat) (v : Word) (s : State) : Out :=
  let isCommit := if d.val = 4 then decide (off = 0x214)
    else match psSet off with
      | some (b, n) => decide ((off - b) / 4 = n)
      | none => false
  if (if d.val = 4 then s.pwr.mdOn else s.pwr.stageOn) && isCommit && decide (off % 4 = 0) then
    done (s.farWrite d off v.toNat)
  else .next s

/-! ### Sample buffers (R428, R429) -/

/-- The SNS capture (R431): the first error after REARM; event 210. -/
def State.snsError (s : State) (cause : Nat) : State :=
  if s.on SNS_ERR_INFO_VALID then s
  else (s.setAll [(SNS_ERR_INFO_VALID, 1), (SNS_ERR_INFO_CAUSE, cause)]).raise 210

/-- The base address of a sample buffer. -/
def State.bufBase (s : State) (b : Nat) : Nat := s.get (SNS_BUF_LO b) + 2 ^ 32 * s.get (SNS_BUF_HI_ADDR b)

/-- A buffer range lies wholly in shared SRAM or DRAM. -/
def inSramOrDram (base size : Nat) : Bool :=
  (decide (0x21000000 ≤ base) && decide (base + size ≤ 0x21400000))
    || (decide (0x100000000 ≤ base) && decide (base + size ≤ 0x1E0000000))

/-- The record size of buffer `b` in bytes. -/
def recordSize (b : Nat) : Nat := if b = 0 then 128 else 32

/-- xBUF_HI written with EN (R428): refused with cause 0x2 where LOG2, alignment or place do not fit. -/
def execSnsBufEnable (a : Agent) (b : Fin 2) (v : Word) (s : State) : Out :=
  regCommand a (SNS_BUF_HI_EN b).addr s (fun s =>
    let w := v.toNat
    let s := (s.set (SNS_BUF_HI_LOG2 b) (bits w 8 4)).set (SNS_BUF_HI_ADDR b) (bits w 0 8)
    let log2 := bits w 8 4
    let size := recordSize b * 2 ^ log2
    let base := s.bufBase b
    if !bit w 31 then s.set (SNS_BUF_HI_EN b) 0
    else if 4 ≤ log2 ∧ log2 ≤ (if b.val = 0 then 12 else 14) ∧ base % size = 0 ∧ inSramOrDram base size = true then
      s.set (SNS_BUF_HI_EN b) 1
    else (s.set (SNS_BUF_HI_EN b) 0).snsError 2)

/-- A record is written into buffer `b`: all its codewords but the first, then the first (R428). A refused write is captured
with cause 0x4. -/
def State.putRecord (s : State) (b k : Nat) (a : Agent) (bytes : List Byte) : State :=
  let size := recordSize b
  let addr := s.bufBase b + k % 2 ^ s.get (SNS_BUF_HI_LOG2 b) * size
  let t := (targetOf addr).getD 15
  let s := s.grantsAt a addr size
  if s.regionRefused a t addr size || s.storeRefused a true t addr size then s.snsError 4
  else
    let s := (s.writeMem (addr + 16) (0x10 + t) (bytes.drop 16)).2
    ((s.writeMem addr (0x10 + t) (bytes.take 16)).2).set (SNS_BUF_WI b) k

/-! ### Sense inputs (R424 to R427) -/

/-- Input `n` serves as a direct control input (R427). -/
def State.isDirect (s : State) (n : Nat) : Bool :=
  decide (8 ≤ n ∧ n < 16) && bit (s.aonGet SNS_DC_DC_EN) (n - 8)

/-- The switch polarity of input `n`: 1 to ground, 2 to battery, 0 none (R424, R427). -/
def State.switchKind (s : State) (n : Nat) : Nat :=
  if s.isDirect n then (if bit (s.aonGet SNS_DC_DCPOL) (n - 8) then 1 else 2)
  else match s.get (SNS_CFG_MODE n) with
    | 1 => 1
    | 2 => 2
    | _ => 0

/-- The raw state of a switch input at `mv` millivolts (R424). -/
def rawState (kind : Nat) (mv : Int) (prev : Bool) : Bool :=
  if kind = 1 then (if mv < 3000 then true else if 6000 < mv then false else prev)
  else if kind = 2 then (if 6000 < mv then true else if mv < 3000 then false else prev)
  else false

/-- DEB of input `n`; 0 acts as 1 (Table 13.9). -/
def State.debOf (s : State) (n : Nat) : Nat := max 1 (s.get (SNS_CFG_DEB n))

/-- One input takes one sample (R424): the raw state, the debounce count, SNS_DIN, the edge. -/
def State.senseOne (s : State) (n : Nat) (mv : Int) : State :=
  let kind := s.switchKind n
  let raw := rawState kind mv (bit s.sns.raw n)
  let old := bit (s.get SNS_DIN) n
  let s := { s with sns := { s.sns with raw := putBit s.sns.raw n raw } }
  if kind = 0 then s.clrBits SNS_DIN (2 ^ n)
  else
    let c := if raw = old then 0 else look s.sns.deb n 0 + 1
    if raw ≠ old ∧ s.debOf n ≤ c then
      let s := { s with sns := { s.sns with deb := ins s.sns.deb n 0 } }
      let s := s.set SNS_DIN (putBit (s.get SNS_DIN) n raw)
      if bit (s.get SNS_EDGE_EN) n then (s.setBits SNS_EDGE (2 ^ n)).raise 209 else s
    else { s with sns := { s.sns with deb := ins s.sns.deb n c } }

/-- The IGN input, from 8.0 V up high and below 4.0 V low, keeps its state between. -/
def State.ignAt (s : State) (mv : Option Int) : State :=
  match mv with
  | none => s
  | some v => { s with pwr := { s.pwr with ign := decide (8000 ≤ v) || (s.pwr.ign && decide (4000 ≤ v)) } }

/-- Every 100 µs, while SNS_CTL.EN is 1 (R424); the IGN input acts whatever EN is. -/
def execSenseSample (mv : List Int) (s : State) : Out :=
  let s := s.ignAt mv[32]?
  done (if Block.sns.live s && s.on SNS_CTL_EN then ((mv.take 32).zipIdx).foldl (fun s p => s.senseOne p.2 p.1) s else s)

/-- A direct control input has held its raw state for DC_FILT (R427): its line follows, or stays low without DC_EN. It acts from
the state in ISL_AON, whatever the control die does. -/
def execDirectControlChange (j : Fin 8) (closed : Bool) (s : State) : Out :=
  let s := { s with lines := putBit s.lines (24 + j) (closed && bit (s.aonGet SNS_DC_DC_EN) j) }
  done (if s.psPowered then s.evalAll else s)

/-- The inputs a scan converts (R425): analog and in the mask. -/
def State.scanInputs (s : State) : Nat :=
  (List.range 32).foldl (fun m n =>
    if s.get (SNS_CFG_MODE n) = 3 ∧ bit (s.get SNS_SCAN_MASK) n = true then m + 2 ^ n else m) 0

/-- A trigger starts a scan, or is skipped while one runs (R425). -/
def State.scanTrigger (s : State) : State :=
  if s.on SNS_STAT_BUSY then (s.count SNS_SKIP).snsError 1
  else { s.set SNS_STAT_BUSY 1 with
    sns := { s.sns with scanTime := s.zone, scanEpoch := s.epoch, scanSet := s.scanInputs } }

/-- SNS_CMD.GO, or a strobe of SCAN_TCU while SCAN_TRIG is 1 (R425). -/
def execSnsGo (a : Agent) (strobe : Bool) (s : State) : Out :=
  if strobe then whenLive .sns s (fun s => if s.on SNS_CTL_SCAN_TRIG then s.scanTrigger else s)
  else regCommand a SNS_CMD_GO.addr s (fun s => s.scanTrigger)

/-- The results of a scan go to SNS_RES of the converted inputs. -/
def State.scanResults (s : State) (codes : List Nat) : State :=
  ((codes.take 32).zipIdx).foldl (fun s p =>
    if bit s.sns.scanSet p.2 then
      (s.set (SNS_RES_CODE p.2) p.1).set (SNS_RES_SEQ p.2) (s.get SNS_STAT_SEQ)
    else s) s

/-- A sense record (Table 13.7). -/
def State.senseRecord (s : State) : List Byte :=
  leBytes 8 s.sns.scanTime ++ leBytes 2 s.sns.scanEpoch ++ leBytes 2 (s.get SNS_STAT_SEQ) ++ leBytes 4 (s.get SNS_DIN)
    ++ (List.range 32).flatMap (fun n => leBytes 2 (if bit s.sns.scanSet n then s.get (SNS_RES_CODE n) else 0))
    ++ List.replicate 48 0

/-- The scan in progress ends (R425, R428): results, record, event 208, the next scan number. -/
def execSnsScanComplete (codes : List Nat) (s : State) : Out :=
  whenLive .sns s (fun s =>
    if s.on SNS_STAT_BUSY then
      let s := s.scanResults codes
      let s := if s.on (SNS_BUF_HI_EN 0) then s.putRecord 0 (s.get SNS_STAT_SEQ) .snsBuf s.senseRecord else s
      let s := (s.set SNS_STAT_BUSY 0).bump SNS_STAT_SEQ
      s.raiseIf (s.on SNS_CTL_SCAN_EVT) 208
    else s)

/-- SNS_CMD.REARM (R431). -/
def execSnsRearm (a : Agent) (s : State) : Out :=
  regCommand a SNS_CMD_REARM.addr s (fun s => s.set SNS_ERR_INFO_VALID 0)

/-- SNS_CMD.CLR_CNT (R431). -/
def execSnsClrCnt (a : Agent) (s : State) : Out :=
  regCommand a SNS_CMD_CLR_CNT.addr s (fun s => s.set SNS_SKIP 0)

end Sys2Proof.Machine
end

