-- ==== Sys2Proof/Machine/Bridge.lean ====
section
/-! DEFINITION. The stage bridge: links, frames and retransmission, window accesses, posted-error log, polls and heartbeats
(Stage Bridge, R224 to R249). -/

namespace Sys2Proof.Machine

/-! ### Links -/

/-- One direction of a link with nothing sent. -/
def laneInit : Lane := ⟨[], 0, 0, 0⟩

/-- A link as a reset leaves it. -/
def linkInit : LinkSt := ⟨laneInit, laneInit, [], [], 0, [], 0⟩

/-- Link `d`. -/
def State.lk (s : State) (d : Nat) : LinkSt := look s.links d linkInit

/-- Link `d` is given a state. -/
def State.setLk (s : State) (d : Nat) (x : LinkSt) : State := { s with links := ins s.links d x }

/-- The state code of link `d` in BRG_STAT.LINK is set (R226). -/
def State.setLink (s : State) (d v : Nat) : State :=
  let old := s.get BRG_STAT_LINK
  s.set BRG_STAT_LINK (old - bits old (3 * d) 3 * 2 ^ (3 * d) + v % 8 * 2 ^ (3 * d))

/-- Die `d` is powered: the stage dies, or (4) the metering die. -/
def State.diePowered (s : State) (d : Nat) : Bool := if d = 4 then s.pwr.mdOn else s.pwr.stageOn

/-- The base address of the window of die `d` (Table 1.7). -/
def winBase (d : Nat) : Nat := if d = 4 then 0x50080000 else 0x50000000 + 0x10000 * d

/-- The head of the posted-error log shows in the BRG_PERR registers (R242). -/
def State.perrShow (s : State) : State :=
  match s.perr with
  | [] => s.setAll [(BRG_PERR_STAT_VALID, 0), (BRG_PERR_STAT_LEVEL, 0), (BRG_PERR_ADDR_LO, 0), (BRG_PERR_ADDR_HI, 0),
      (BRG_PERR_INFO_STATUS, 0), (BRG_PERR_INFO_PART, 0), (BRG_PERR_INFO_ID, 0), (BRG_PERR_INFO_SEQ, 0), (BRG_PERR_DATA, 0)]
  | e :: _ => s.setAll [(BRG_PERR_STAT_VALID, 1), (BRG_PERR_STAT_LEVEL, s.perr.length), (BRG_PERR_ADDR_LO, e.addr),
      (BRG_PERR_ADDR_HI, e.addr / 2 ^ 32), (BRG_PERR_INFO_STATUS, e.status), (BRG_PERR_INFO_PART, e.part),
      (BRG_PERR_INFO_ID, e.id), (BRG_PERR_INFO_SEQ, e.seq), (BRG_PERR_DATA, e.data)]

/-- POSTED_ERROR_LOG (R242): an entry with event 57, or, the log full, LOST with event 58. -/
def State.logPosted (s : State) (e : PErr) : State :=
  if s.perr.length < 8 then ({ s with perr := s.perr ++ [e] }.perrShow).raise 57
  else (s.count BRG_PERR_STAT_LOST).raise 58

/-- The parts of a posted access that have had no response, logged with STATUS 0xE (R228). -/
def State.logOpenParts (s : State) (x : WinAcc) : State :=
  (x.data.zipIdx).foldl (fun s p =>
    if p.2 < x.got.length then s
    else s.logPosted ⟨x.addr + 4 * p.2, p.2, idOf x.agent, x.seq, 0xE, p.1⟩) s

/-- A DMA channel or DBG takes the answer to the access with this tag itself. -/
def State.tagTaken (s : State) (d tag : Nat) : Bool :=
  s.dma.any (fun p => p.2.wait == some (d, tag)) || !s.dbg.acc.all (fun y => y.wait != some (d, tag))

/-- The access keeps its initiator waiting for its own end: one that a channel or DBG takes, or a write of a lane group. -/
def State.keptOpen (s : State) (d : Nat) (x : WinAcc) : Bool := !(x.write && x.posted) && (s.tagTaken d x.tag || x.mark != .plain)

/-- The parts without a response end with STATUS 0xE (R228). -/
def WinAcc.cut (x : WinAcc) : WinAcc := { x with got := x.got ++ List.replicate (x.data.length - x.got.length) (0xE, 0) }

/-- One open access ends because its link left UP (R228). -/
def State.endAccess (s : State) (x : WinAcc) : State :=
  if x.write && x.posted then s.logOpenParts x else (s.answerErr).count BRG_NP_ERR

/-- A window access answered with an error response and counted in BRG_NP_ERR (R242); a Normal one is captured by WLD (R489). -/
def State.windowError (s : State) (a : Agent) (addr : Nat) (write normal : Bool) : State :=
  let s := (s.answerErr).count BRG_NP_ERR
  if normal then s.worldRefusal a addr 2 write else s

/-- A posted write is accepted while the link is not UP: SEQ is assigned, it completes, and each part is logged (R228, R235). -/
def State.postedDown (s : State) (d : Nat) (x : WinAcc) : State :=
  let s := (s.bump (BRG_POST_SEQ d)).answer 0
  s.logOpenParts { x with seq := s.get (BRG_POST_SEQ d) }

/-- A posted write that waited at T9 meets a link that is not UP (R228), or an unpowered die (R230). -/
def State.endWait (s : State) (d : Nat) (x : WinAcc) : State :=
  if s.diePowered d then s.postedDown d x else s.windowError x.agent x.addr true false

/-- The link leaves UP, or TRAINING, for state `v` (R226, R228): every open access to the die ends, event 56 where it was UP. An
access that keeps its initiator waiting stays with its error until the initiator takes it; tags and the frames counted towards a
burst go on (R229). -/
def State.linkLeave (s : State) (d v : Nat) : State :=
  let was := s.linkUp d
  let x := s.lk d
  let s1 := s.setLk d { x with
    down := laneInit, up := laneInit, waits := [], pollMiss := 0
    accs := (x.accs.filter (s.keptOpen d)).map WinAcc.cut }
  let s2 := x.accs.foldl (fun (t : State) y => if s.keptOpen d y then t else t.endAccess y) (s1.setLink d v)
  (x.waits.foldl (fun (t : State) y => t.endWait d y) s2).raiseIf was 56

/-- What a reset or power-up of its die does to a link (R226, R228): TRAINING where its LINK_EN bit is 1, DOWN where it is 0 or the
die is unpowered; a link in FAULT that does not retrain stays there. -/
def State.linkRestart (s : State) (d : Nat) : State :=
  if !bit (s.get BRG_CTL_LINK_EN) d || !s.diePowered d then s.linkLeave d 0
  else if s.link d = 3 ∧ s.on BRG_CFG_RETRAIN = false then s
  else s.linkLeave d 1

/-- LINK_FAULT (R227, R228): the link enters FAULT, and trains again at once while RETRAIN is 1. -/
def State.linkFault (s : State) (d : Nat) : State :=
  (s.count (BRG_LINK_CNT_FAULTS d)).linkLeave d (if s.on BRG_CFG_RETRAIN then 1 else 3)

/-- A reset or power-up of a stage die, with its link (R257, R226). -/
def State.stageReset (s : State) (d : Nat) : State := ((s.psReset d).evalDie d).linkRestart d

/-- A reset or power-up of the metering die, with its link (R420, R226). -/
def State.mdReset (s : State) : State := s.mdSession.linkRestart 4

/-- BRG_CTL.LINK_EN (R226, R228): a bit written 0 takes its link to DOWN; a bit written 1 takes a link in DOWN of a powered die
to TRAINING. -/
def execBrgLinkEnWrite (a : Agent) (v : Word) (s : State) : Out :=
  regCommand a BRG_CTL_LINK_EN.addr s (fun s =>
    let en := bits v.toNat 0 5
    let s := s.set BRG_CTL_LINK_EN en
    [0, 1, 2, 3, 4].foldl (fun s d =>
      if !bit en d then (if s.link d = 0 then s else s.linkLeave d 0)
      else if s.link d = 0 ∧ s.diePowered d = true then s.setLink d 1 else s) s)

/-- BRG_CTL.HB_EN (R245). -/
def execBrgHbEnWrite (a : Agent) (v : Word) (s : State) : Out :=
  regCommand a BRG_CTL_HB_EN.addr s (fun s => s.set BRG_CTL_HB_EN (bits v.toNat 8 5))

/-- BRG_CFG.RETRAIN (R228): set, it starts training of the links in FAULT. -/
def execBrgRetrainWrite (a : Agent) (v : Word) (s : State) : Out :=
  regCommand a BRG_CFG_RETRAIN.addr s (fun s =>
    let on := bit v.toNat 3
    let s := s.set BRG_CFG_RETRAIN (b2n on)
    if on then [0, 1, 2, 3, 4].foldl (fun s d => if s.link d = 3 then s.setLink d 1 else s) s else s)

/-- Training completes (R226). -/
def execLinkTrainingComplete (d : Fin 5) (s : State) : Out :=
  whenLive .brg s (fun s =>
    if s.link d = 1 then (s.setLk d { s.lk d with down := laneInit, up := laneInit, pollMiss := 0 }).setLink d 2 else s)

/-! ### Frames -/

/-- The codeword bits [127:0] of a frame (Table 7.1). -/
def Frame.bits (f : Frame) : Nat :=
  f.kind % 16 + 2 ^ 4 * (f.seq % 256) + 2 ^ 12 * (f.ack % 256) + 2 ^ 20 * (f.status % 16) + 2 ^ 24 * (f.tag % 256)
    + 2 ^ 32 * (f.off % 65536) + 2 ^ 64 * (f.data % 2 ^ 32)

/-- The frame that codeword bits [127:0] spell (Table 7.1). -/
def Frame.ofBits (v : Nat) : Frame :=
  ⟨Machine.bits v 0 4, Machine.bits v 4 8, Machine.bits v 12 8, Machine.bits v 20 4, Machine.bits v 24 8, Machine.bits v 32 16,
    Machine.bits v 64 32⟩

/-- The syndrome of a frame whose codeword bits `flips` are inverted. -/
def frameSyndrome (flips : List Nat) : Nat := flips.foldl (fun x b => x ^^^ flipSyndrome b) 0

/-- Bit `b` of the codeword is inverted, where it is a data bit. -/
def flipBit (v b : Nat) : Nat := if b < 128 then v ^^^ 2 ^ b else v

/-- The frame as its receiver uses it (R225): the bits as they arrive, the wrong one corrected; none where it is uncorrectable. -/
def frameArrives (f : Frame) (flips : List Nat) : Option Frame :=
  let v := flips.foldl flipBit f.bits
  match classify (frameSyndrome flips) with
  | .clean => some (Frame.ofBits v)
  | .corrected b => some (Frame.ofBits (flipBit v b))
  | .uncorrectable => none

/-- A sequenced frame joins a direction of a link, with the next SEQ (R227). -/
def Lane.send (l : Lane) (f : Frame) : Lane :=
  { l with frames := l.frames ++ [⟨{ f with seq := l.nextSeq }, 0⟩], nextSeq := (l.nextSeq + 1) % 256 }

/-- A frame towards the die. -/
def State.sendDown (s : State) (d : Nat) (f : Frame) : State :=
  s.setLk d { s.lk d with down := (s.lk d).down.send f }

/-- A frame towards the bridge. -/
def State.sendUp (s : State) (d : Nat) (f : Frame) : State :=
  s.setLk d { s.lk d with up := (s.lk d).up.send f }

/-- One direction of link `d`. -/
def State.side (s : State) (d : Nat) (up : Bool) : Lane := if up then (s.lk d).up else (s.lk d).down

/-- One direction of link `d` is given a state. -/
def State.setSide (s : State) (d : Nat) (up : Bool) (l : Lane) : State :=
  s.setLk d (if up then { s.lk d with up := l } else { s.lk d with down := l })

/-- The ACK that a frame of the other direction carries: the SEQ of the last frame accepted in order. -/
def Lane.ack (l : Lane) : Nat := (l.rxNext + 255) % 256

/-- How many of the oldest frames an ACK covers (R227). -/
def Lane.covered (l : Lane) (ack : Nat) : Nat :=
  match l.frames.findIdx? (fun y => y.frame.seq == ack) with
  | some i => i + 1
  | none => 0

/-- The frames an ACK covers are dropped. -/
def Lane.acked (l : Lane) (ack : Nat) : Lane :=
  { l with frames := l.frames.drop (l.covered ack), pos := l.pos - l.covered ack }

/-- The far flags of die `d` as the poll response carries them (R240). -/
def State.pollFlags (s : State) (d : Nat) : Nat := if d = 4 then s.md.flags else (s.dieSt d).flags

/-- The far flags that a poll response carried are cleared when its ACK arrives (R240). -/
def State.clearPolled (s : State) (d v : Nat) : State :=
  if d = 4 then { s with md := { s.md with flags := clearBits s.md.flags v } }
  else s.setDie d { s.dieSt d with flags := clearBits (s.dieSt d).flags v }

/-- The flags in the poll responses among the frames that an ACK covers. -/
def polledIn (l : List Sent) : Nat := l.foldl (fun m y => if y.frame.kind = 8 then orBits m y.frame.data else m) 0

/-- The word of a write part reached the bridge uncorrectable: its far die, the consumer, discards it (R24 to R26). -/
def State.partBad (s : State) (d : Nat) (f : Frame) : Bool :=
  (s.lk d).accs.any (fun x => x.tag == f.tag && x.bad.contains ((winBase d + f.off - x.addr) / 4))

/-- A far die executes a frame it accepts (Table 7.1) and sends its response. A part whose word it finds uncorrectable, or that meets
an uncorrectable codeword inside the die (`ue`), has no effect and answers FAR_UE (Table 7.3). -/
def State.dieExecutes (s : State) (d : Nat) (f : Frame) (ue : Bool) : State :=
  let reply (s : State) (kind status data : Nat) : State := s.sendUp d ⟨kind, 0, 0, status, f.tag, f.off, data⟩
  match f.kind with
  | 1 => if ue || s.partBad d f then reply s 5 4 0 else (let s := s.farWrite d f.off f.data; reply s 5 (s.farStat d) 0)
  | 2 => if ue || s.partBad d f then reply s 5 4 0 else (let s := s.farWrite d f.off f.data; reply s 5 (s.farStat d) 0)
  | 3 => if ue then reply s 4 4 0 else (let r := s.farRead d f.off; reply s 4 r.1 r.2)
  | 6 =>
    if d = 4 ∨ (s.dieSt d).hbLast = some (bits f.data 0 16) then s
    else (s.setDie d { s.dieSt d with hbLast := some (bits f.data 0 16), heldMs := 0 }).setAll [(PS_SUP_STATE d, 1), (PS_SUP_HOLD_LEFT d, 0)]
  | 7 => reply s 8 0 (s.pollFlags d)
  | _ => s

/-- FAR_EVENT_RAISE (R240): each flag of a poll response raises its event. -/
def State.raiseFar (s : State) (d v : Nat) : State :=
  (List.range 13).foldl (fun s b =>
    if !bit v b then s
    else if d = 4 then (if b < 8 then s.raise (224 + b) else s)
    else if b < 12 then s.raise (64 + 12 * d + b)
    else s.raise (112 + d)) s

/-! ### The queue of posted parts (R235) -/

/-- The parts of posted writes queued for a die (R235). -/
def State.postedParts (s : State) (d : Nat) : Nat :=
  ((s.lk d).accs.map (fun x => if x.write && x.posted then x.data.length - x.got.length else 0)).sum

/-- A posted write of `n` parts finds a place: the queue holds 16 parts; one that is longer than the queue takes an empty one. -/
def State.postedRoom (s : State) (d n : Nat) : Bool := s.postedParts d == 0 || decide (s.postedParts d + n ≤ 16)

/-- An access opens with the next tag: its parts are sent in ascending address order (R231, R232). -/
def State.openAccess (s : State) (d kind : Nat) (acc : WinAcc) : State :=
  let x := s.lk d
  let acc := { acc with tag := x.nextTag }
  let s := s.setLk d { x with accs := x.accs ++ [acc], nextTag := (x.nextTag + 1) % 256 }
  (acc.data.zipIdx).foldl (fun s p => s.sendDown d ⟨kind, 0, 0, 0, acc.tag, acc.addr - winBase d + 4 * p.2, p.1⟩) s

/-- A posted write is accepted: SEQ is assigned, it completes on the fabric, its parts are sent (R235). -/
def State.postedOpen (s : State) (d : Nat) (x : WinAcc) : State :=
  let s := (s.bump (BRG_POST_SEQ d)).answer 0
  s.openAccess d 1 { x with seq := s.get (BRG_POST_SEQ d) }

/-- Posted writes that wait take the places that have come free, oldest first (R235). -/
def State.admitWaits (s : State) (d : Nat) : List WinAcc → State
  | [] => s.setLk d { s.lk d with waits := [] }
  | x :: t =>
    if s.postedRoom d x.data.length then (s.postedOpen d x).admitWaits d t
    else s.setLk d { s.lk d with waits := x :: t }

/-- The response to a part of access `f.tag` arrives: it is kept with its access; a failed posted part is logged (R242), and a posted
access whose parts have all answered is done, which makes room for those that wait (R235). -/
def State.partResponse (s : State) (d : Nat) (f : Frame) : State :=
  match (s.lk d).accs.find? (fun x => x.tag == f.tag && decide (x.got.length < x.data.length)) with
  | none => s
  | some x =>
    let part := (winBase d + f.off - x.addr) / 4
    let x' := { x with got := x.got ++ [(f.status, f.data)] }
    let s := if x.write && x.posted && decide (f.status ≠ 0) then
        s.logPosted ⟨x.addr + 4 * part, part, idOf x.agent, x.seq, f.status, x.data.getD part 0⟩ else s
    let fin := x.write && x.posted && decide (x'.got.length = x.data.length)
    let accs := if fin then (s.lk d).accs.filter (fun y => y != x) else (s.lk d).accs.map (fun y => if y = x then x' else y)
    let s := s.setLk d { s.lk d with accs := accs }
    if (s.lk d).waits = [] then s else s.admitWaits d (s.lk d).waits

/-- The bridge takes a frame it accepts. -/
def State.brgTakes (s : State) (d : Nat) (f : Frame) : State :=
  match f.kind with
  | 8 => (s.setLk d { s.lk d with pollMiss := 0 }).raiseFar d f.data
  | 4 => s.partResponse d f
  | 5 => s.partResponse d f
  | _ => s

/-- WORD_CODE_BURST (R229): sixteen uncorrectable frames on one link within 1 ms. A burst uses its sixteen frames up: they do not
count towards the next one (DESIGN CHOICE, see the log). -/
def State.countUe (s : State) (d t : Nat) : State :=
  let l := ((s.lk d).ueTimes ++ [t]).filter (fun x => decide (t < x + 1000))
  if 16 ≤ l.length then
    { (s.setLk d { s.lk d with ueTimes := [] }).count (BRG_LINK_CNT_BURSTS d) with bursts := s.bursts + 1 }
  else s.setLk d { s.lk d with ueTimes := l }

/-- A transmission of the kept frame number `i` of one direction has failed: its sender starts again at the oldest frame, and the
fourth failure of one frame takes the link to FAULT (R227). With no such frame there is nothing to repeat. -/
def State.resend (s : State) (d : Nat) (up : Bool) (i : Nat) : State :=
  let l := s.side d up
  match l.frames[i]? with
  | none => s
  | some y =>
    if 3 ≤ y.fails then s.linkFault d
    else (s.count (BRG_LINK_CNT_RETRY d)).setSide d up { l with frames := l.frames.set i { y with fails := y.fails + 1 }, pos := 0 }

/-- The frame that a direction transmits next, with the ACK of the moment: the kept frame at its place, or an idle frame (Table 7.1). -/
def State.nextFrame (s : State) (d : Nat) (up : Bool) : Frame :=
  let ack := (s.side d (!up)).ack
  match (s.side d up).frames[(s.side d up).pos]? with
  | some y => { y.frame with ack := ack }
  | none => ⟨9, 0, ack, 0, 0, 0, 0⟩

/-- The receiver accepts sequenced frames only in SEQ order, each once (R227). -/
def Lane.takes (l : Lane) (f : Frame) : Bool := decide (1 ≤ f.kind) && decide (f.kind ≤ 8) && f.seq == l.rxNext

/-- A sequenced frame is accepted and has its effect at the receiver. -/
def State.accept (s : State) (d : Nat) (up : Bool) (f : Frame) (ue : Bool) : State :=
  if !(s.side d up).takes f then s
  else
    let s := s.setSide d up { s.side d up with rxNext := ((s.side d up).rxNext + 1) % 256 }
    if up then s.brgTakes d f else s.dieExecutes d f ue

/-- A frame arrives, clean or corrected: its ACK covers frames of the other direction; a sequenced one is accepted in its turn. -/
def State.frameIn (s : State) (d : Nat) (up : Bool) (f : Frame) (ue : Bool) : State :=
  let other := s.side d (!up)
  let polled := if up then 0 else polledIn (other.frames.take (other.covered f.ack))
  let s := s.setSide d (!up) (other.acked f.ack)
  let s := if polled = 0 then s else s.clearPolled d polled
  s.accept d up f ue

/-- STAGE_FRAME_RECEIVE (R225, R227, R229): the next frame of a direction is transmitted and arrives with `flips` inverted. A frame has
no address in memory: WCE_ADDR holds the base of its die's window, and the unit is 0x19 (DESIGN CHOICE, see the log). -/
def execStageFrameReceive (d : Fin 5) (up : Bool) (flips : List Nat) (x : FrameCome) (s : State) : Out :=
  whenLive .brg s (fun s =>
    if !s.linkUp d || !s.diePowered d then s
    else
      let f := s.nextFrame d up
      let i := (s.side d up).pos
      let s := s.codeReport (winBase d) 0x19 (frameSyndrome flips)
      match frameArrives f flips with
      | none =>
        let s := if up then s.count (BRG_LINK_WCE_UE d) else s
        (s.countUe d x.time).resend d up i
      | some g =>
        let s := if up && frameSyndrome flips != 0 then s.count (BRG_LINK_WCE_CE d) else s
        let l := s.side d up
        (s.setSide d up (if l.pos < l.frames.length then { l with pos := l.pos + 1 } else l)).frameIn d up g x.farUe)

/-- No ACK in time (R227): the transmission of the oldest frame has failed. -/
def execStageRetransmitTimeout (d : Fin 5) (up : Bool) (s : State) : Out :=
  whenLive .brg s (fun s => if s.linkUp d then s.resend d up 0 else s)

/-- The frames queued towards a die reach it before an access that is accepted later (R232). -/
def State.drainDown (s : State) (d : Nat) : State :=
  if !s.linkUp d then s
  else
    let s := (s.side d false).frames.foldl (fun (t : State) y => t.accept d false y.frame false) s
    s.setSide d false { s.side d false with pos := (s.side d false).frames.length }

/-! ### Window accesses (R230 to R235) -/

/-- The die whose window holds an address. -/
def dieOf (addr : Nat) : Option Nat :=
  if 0x50000000 ≤ addr ∧ addr < 0x50040000 then some ((addr - 0x50000000) / 0x10000)
  else if 0x50080000 ≤ addr ∧ addr < 0x50090000 then some 4
  else none

/-- Why a window access is refused before any frame is sent: `some true` from the Normal world (R230), `some false` for an
unpowered die (R230) or a shape the window does not take (R231); `none` where it is accepted. -/
def State.windowRefused (s : State) (a : Agent) (d addr len : Nat) : Option Bool :=
  if isNormal a s then some true
  else if !s.diePowered d then some false
  else if addr % 4 ≠ 0 ∨ len % 4 ≠ 0 ∨ len = 0 ∨ winBase d + 0x10000 < addr + len then some false
  else none

/-- The initiator's window writes are non-posted (R234). -/
def State.nonPosted (s : State) (a : Agent) : Bool :=
  a == .lcc || (portOf a == 0 && s.on BRG_CFG_NP_SG0) || (portOf a == 1 && s.on BRG_CFG_NP_SG1)
    || (portOf a == 7 && s.on BRG_CFG_NP_KEY)

/-- A read through the window (R230 to R233); `flips` are the bits its response loses on the fabric. -/
def State.windowRead (s : State) (a : Agent) (addr len : Nat) (flips : List Flip) : State :=
  match dieOf addr with
  | none => s
  | some d =>
    match s.windowRefused a d addr len with
    | some n => s.windowError a addr false n
    | none =>
      if !s.linkUp d then s.windowError a addr false false
      else s.openAccess d 3 ⟨0, a, addr, false, false, 0, List.replicate (len / 4) 0, [], [], flips, .plain⟩

/-- A write through the window, non-posted or posted as R234 says (R230 to R235). A posted one that finds no place in its queue waits
at T9, behind those that wait already. `bad` are the parts whose word the bridge finds uncorrectable. -/
def State.windowWrite (s : State) (a : Agent) (addr len : Nat) (data : List Word) (bad : List Nat) : State :=
  match dieOf addr with
  | none => s
  | some d =>
    match s.windowRefused a d addr len with
    | some n => s.windowError a addr true n
    | none =>
      let np := s.nonPosted a
      let x : WinAcc := ⟨0, a, addr, true, !np, 0, (data.take (len / 4)).map BitVec.toNat, [], bad, [], .plain⟩
      if np then (if s.linkUp d then s.openAccess d 2 x else s.windowError a addr true false)
      else if !s.linkUp d then s.postedDown d x
      else if (s.lk d).waits = [] ∧ s.postedRoom d x.data.length = true then s.postedOpen d x
      else s.setLk d { s.lk d with waits := (s.lk d).waits ++ [x] }

/-- A posted write to `addr` would wait at T9. -/
def State.windowFull (s : State) (a : Agent) (addr n : Nat) : Bool :=
  match dieOf addr with
  | some d => !s.nonPosted a && s.diePowered d && s.linkUp d && !((s.lk d).waits == [] && s.postedRoom d n)
  | none => false

/-- A row of the window: its access is granted at T9 (R32). -/
def windowRow (a : Agent) (addr len : Nat) (s : State) (act : State → State) : Out :=
  if s.fabStalls || s.islandStalls (islandOf a) then .next s else whenLive .brg s (fun s => act (s.grantsAt a addr len))

/-- WINDOW_READ (R230 to R233). -/
def execWindowRead (a : Agent) (addr len : Nat) (s : State) : Out :=
  windowRow a addr len s (fun s => s.windowRead a addr len [])

/-- WINDOW_NONPOSTED_WRITE (R234). -/
def execWindowNonpostedWrite (a : Agent) (addr len : Nat) (data : List Word) (s : State) : Out :=
  windowRow a addr len s (fun s =>
    if !s.nonPosted a && (dieOf addr).all (fun d => s.windowRefused a d addr len == none) then s
    else s.windowWrite a addr len data [])

/-- WINDOW_POSTED_WRITE (R235). -/
def execWindowPostedWrite (a : Agent) (addr len : Nat) (data : List Word) (s : State) : Out :=
  windowRow a addr len s (fun s =>
    if s.nonPosted a && (dieOf addr).all (fun d => s.windowRefused a d addr len == none) then s
    else s.windowWrite a addr len data [])

/-- The words of a read, the first least significant. -/
def joinWords : List (Nat × Nat) → Nat
  | [] => 0
  | p :: t => p.2 + 2 ^ 32 * joinWords t

/-- The oldest open read or non-posted write of which every part has its response, but those that a DMA channel or DBG takes. -/
def State.answeredAcc (s : State) (d : Nat) : Option WinAcc :=
  (s.lk d).accs.find? (fun x => !(x.write && x.posted) && decide (x.got.length = x.data.length) && !s.tagTaken d x.tag)

/-- An access leaves the bridge. -/
def State.dropAcc (s : State) (d tag : Nat) : State :=
  s.setLk d { s.lk d with accs := (s.lk d).accs.filter (fun y => y.tag != tag) }

/-- Some part of the access failed. -/
def WinAcc.failed (x : WinAcc) : Bool := x.got.any (fun g => g.1 != 0)

/-- The answer to an access all of whose parts have their responses (R233, R234): the data, which the initiator checks as their
consumer (R24, R26), or an error response, counted in BRG_NP_ERR (R242). -/
def State.accAnswer (s : State) (x : WinAcc) : State :=
  if x.failed then (s.answerErr).count BRG_NP_ERR
  else if x.write then s.answer 0
  else if x.flips = [] then s.answer (joinWords x.got)
  else
    let c := s.consumeAll (portOf x.agent) x.addr (leBytes (4 * x.got.length) (joinWords x.got)) (fun _ => 0) x.flips
    if c.1 then c.2.2.answerUe else c.2.2.answer (leNat c.2.1)

/-- 10 µs after a strobe the writer reads SMP_SEQ to SMP_V (R429). A read that fails, or one that gives the SEQ of the previous
record, writes no record and is captured with cause 0x3. -/
def execMbufRead (s : State) : Out :=
  whenBus .sns s (fun s =>
    if !s.sns.strobeDue || !s.on (SNS_BUF_HI_EN 1) || !s.on SNS_CTL_MD_EN then s
    else
      let s := s.drainDown 4
      let s := { s with sns := { s.sns with strobeDue := false } }
      let seq := s.get MD_SMP_SEQ
      if !s.linkUp 4 || !s.pwr.mdOn then (s.count BRG_NP_ERR).snsError 3
      else if seq == s.get (SNS_BUF_WI 1) then s.snsError 3
      else
        s.putRecord 1 seq .mdBuf
          (leBytes 8 s.sns.strobeTime ++ leBytes 2 s.sns.strobeEpoch ++ leBytes 2 0 ++ leBytes 4 seq
            ++ leBytes 4 (s.get MD_SMP_I0) ++ leBytes 4 (s.get MD_SMP_I1) ++ leBytes 4 (s.get MD_SMP_V)
            ++ leBytes 4 (s.plainWord rowsMd 0x50080004)))

/-! ### Polls, heartbeats, log -/

/-- A poll frame to each UP link; three polls in a row without an answer raise event 60 (R240, R241). -/
def execPollSend (s : State) : Out :=
  whenLive .brg s (fun s =>
    [0, 1, 2, 3, 4].foldl (fun s d =>
      if s.linkUp d then
        let m := (s.lk d).pollMiss
        let s := s.raiseIf (decide (m = 3)) 60
        (s.setLk d { s.lk d with pollMiss := m + 1 }).sendDown d ⟨7, 0, 0, 0, 0, 0, 0⟩
      else s) s)

/-- HEARTBEAT_SEND: a heartbeat frame to each die whose heartbeat runs; the count is common and increments with each period (R244). -/
def execHeartbeatSend (s : State) : Out :=
  whenLive .brg s (fun s =>
    if [0, 1, 2, 3, 4].any (fun d => s.hbRuns d) then
      let s := s.bump BRG_HB_CNT
      [0, 1, 2, 3, 4].foldl (fun s d => if s.hbRuns d then s.sendDown d ⟨6, 0, 0, 0, 0, 0, s.get BRG_HB_CNT⟩ else s) s
    else s)

/-- BRG_PERR_CTL.POP (R242). -/
def execBrgPerrPop (a : Agent) (s : State) : Out :=
  regCommand a BRG_PERR_CTL_POP.addr s (fun s => ({ s with perr := s.perr.tail }).perrShow)

/-- BRG_PERR_CTL.CLR_CNT (R249): LOST, BRG_NP_ERR and all link counters. -/
def execBrgClrCnt (a : Agent) (s : State) : Out :=
  regCommand a BRG_PERR_CTL_CLR_CNT.addr s (fun s =>
    [0, 1, 2, 3, 4].foldl (fun s d => s.setAll [(BRG_LINK_CNT_RETRY d, 0), (BRG_LINK_CNT_FAULTS d, 0), (BRG_LINK_CNT_BURSTS d, 0),
      (BRG_LINK_WCE_UE d, 0), (BRG_LINK_WCE_CE d, 0)]) ((s.set BRG_PERR_STAT_LOST 0).set BRG_NP_ERR 0))

end Sys2Proof.Machine
end

