-- ==== Sys2Proof/Machine/Formats.lean ====
section
/-! DEFINITION. What makes a descriptor well-formed, engine by engine (R193, R195, R204, R298, R324, R325, R372, R378, R480). -/

namespace Sys2Proof.Machine

/-- Bits of a descriptor. -/
def dbits (d : List Byte) (lo w : Nat) : Nat := bits (leNat d) lo w

/-- The bits from `lo` to `hi` inclusive are zero. -/
def dzero (d : List Byte) (lo hi : Nat) : Bool := dbits d lo (hi + 1 - lo) == 0

/-- OP, TAG and NOCPL of the common header (Table 6.1). -/
def dOp (d : List Byte) : Nat := dbits d 0 8
/-- GEN of the common header. -/
def dGen (d : List Byte) : Nat := dbits d 8 8
/-- TAG of the common header. -/
def dTag (d : List Byte) : Nat := dbits d 16 16
/-- NOCPL of the common header. -/
def dNocpl (d : List Byte) : Bool := dbits d 32 1 == 1

/-- An address lies in targets T1 to T6 (R190). -/
def inT1to6 (addr len : Nat) : Bool :=
  match targetOfRange addr len with
  | some t => decide (1 ≤ t) && decide (t ≤ 6)
  | none => false

/-- An address lies in targets T0 to T6. -/
def inT0to6 (addr len : Nat) : Bool :=
  match targetOfRange addr len with
  | some t => decide (t ≤ 6)
  | none => false

/-! ### DMA (Table 6.8) -/

/-- The address pattern of one side of a COPY (R203): address, mode, the element of a FIXED side, the size of a CIRC buffer. -/
structure DmaSide where
  addr : Nat
  mode : Nat
  elem : Nat
  circ : Nat
deriving DecidableEq, Repr

/-- The source side of a COPY. -/
def dmaSrc (d : List Byte) : DmaSide :=
  ⟨dbits d 64 40, dbits d 104 2, if dbits d 108 1 = 1 then 16 else 4, 2 ^ (8 + dbits d 112 4)⟩

/-- The destination side of a COPY. -/
def dmaDst (d : List Byte) : DmaSide :=
  ⟨dbits d 128 40, dbits d 106 2, if dbits d 108 1 = 1 then 16 else 4, 2 ^ (8 + dbits d 116 4)⟩

/-- LENGTH of a COPY. -/
def dmaLen (d : List Byte) : Nat := dbits d 208 32

/-- The start of the buffer of a CIRC side (R203). -/
def DmaSide.base (x : DmaSide) : Nat := x.addr / x.circ * x.circ

/-- The address of byte `k` of a side (R203). -/
def DmaSide.at (x : DmaSide) (k : Nat) : Nat :=
  if x.mode = 0 then x.addr + k
  else if x.mode = 1 then x.addr + k % x.elem
  else x.base + (x.addr - x.base + k) % x.circ

/-- How many bytes from byte `k` on lie at consecutive addresses. -/
def DmaSide.run (x : DmaSide) (k n : Nat) : Nat :=
  if x.mode = 0 then n
  else if x.mode = 1 then min n (x.elem - k % x.elem)
  else min n (x.circ - (x.addr - x.base + k) % x.circ)

/-- An address range lies in the stage bridge window: those of the four stage dies, which adjoin, or that of the metering die. -/
def inWindow (addr len : Nat) : Bool :=
  (decide (0x50000000 ≤ addr) && decide (addr + len ≤ 0x50040000)) || (decide (0x50080000 ≤ addr) && decide (addr + len ≤ 0x50090000))

/-- The addresses that a side of a COPY of `len` bytes reaches, as ranges (R203, R206). -/
def DmaSide.reach (x : DmaSide) (len : Nat) : List (Nat × Nat) :=
  let o := x.addr - x.base
  if x.mode = 0 then [(x.addr, len)]
  else if x.mode = 1 then [(x.addr, min len x.elem)]
  else if x.circ ≤ len then [(x.base, x.circ)]
  else if o + len ≤ x.circ then [(x.addr, len)]
  else [(x.addr, x.circ - o), (x.base, o + len - x.circ)]

/-- A COPY of `len` bytes reaches byte address `b` of a side. -/
def DmaSide.reaches (x : DmaSide) (len b : Nat) : Bool := (x.reach len).any (fun r => decide (r.1 ≤ b) && decide (b < r.1 + r.2))

/-- A side of a COPY of `len` bytes keeps the rules of R203 and R204. -/
def DmaSide.ok (x : DmaSide) (len : Nat) : Bool :=
  if x.mode = 0 then inT0to6 x.addr len || (inWindow x.addr len && x.addr % 4 == 0 && len % 4 == 0)
  else if x.mode = 1 then x.addr % x.elem == 0 && len % x.elem == 0 && (x.elem == 4 || inT0to6 x.addr 16)
  else x.mode == 2 && inT0to6 x.base x.circ

/-- A DMA descriptor is well-formed (Table 6.8, R204). -/
def dmaFormatOk (d : List Byte) : Bool :=
  decide (dOp d ≤ 1) && dzero d 35 63 && dzero d 109 111 && dzero d 120 127 && dzero d 240 255
    && (dbits d 34 1 == 0 || dzero d 168 172)
    && (dOp d == 0 || (dmaLen d != 0 && (dmaSrc d).ok (dmaLen d) && (dmaDst d).ok (dmaLen d)))

/-! ### LCC (Table 9.2) -/

/-- A limit class that a channel's native class allows (R299), the channel by its module number. -/
def lccClassOk (n v : Nat) : Bool := v == 0 || (v == 1 && decide (n % 12 < 2)) || (v == 2 && decide (n % 12 < 6))

/-- An LCC descriptor is well-formed (R298). -/
def lccFormatOk (d : List Byte) : Bool :=
  dzero d 33 63 && match dOp d with
    | 0 => dzero d 64 255
    | 1 => dzero d 112 127 && dzero d 176 255
    | 2 => dzero d 88 255 && (List.range 8).all (fun b => dbits d (72 + 2 * b) 2 != 3)
    | 3 => dzero d 112 255
    | 4 => dzero d 112 127 && dzero d 224 255 && (List.range 48).all (fun n => lccClassOk n (dbits d (128 + 2 * n) 2))
    | 5 => dzero d 64 127 && dzero d 168 255 && dzero d 128 133 && inT1to6 (dbits d 128 40) 512
    | 6 => dzero d 113 115 && dzero d 120 255
    | _ => false

/-! ### Ethernet (Table 10.2, R325) -/

/-- A SEND descriptor of the Ethernet engine is well-formed; `vf` for the limits of R324. -/
def sendFormatOk (d : List Byte) (vf : Bool) : Bool :=
  let dport := dbits d 120 4
  let onestep := dbits d 34 2
  let tsreq := dbits d 33 1
  let vtag := dbits d 36 1
  let len := dbits d 104 14
  dOp d == 1 && dzero d 37 63 && decide (14 ≤ len) && decide (len ≤ 1518) && dzero d 118 119 && dzero d 124 127
    && dzero d 143 191 && (decide (dport ≤ 7) || dport == 15) && onestep != 3
    && (decide (dport ≤ 7) || (tsreq == 0 && onestep == 0))
    && (onestep == 2 || dzero d 192 255)
    && (vtag == 0 || (decide (1 ≤ dbits d 128 12) && decide (dbits d 128 12 ≤ 4094)))
    && (!vf || (dport == 15 && onestep == 0 && vtag == 0))

/-- A RECV descriptor of the Ethernet engine is well-formed (R325). -/
def ethRecvFormatOk (d : List Byte) : Bool :=
  dOp d == 2 && dzero d 33 63 && dzero d 64 67 && decide (1552 ≤ dbits d 104 16) && dzero d 120 255

/-! ### CAN gateway (Tables 11.4, R378) -/

/-- A data length a CAN frame of its format can have (Table 11.4). -/
def canLenOk (fd : Bool) (len : Nat) : Bool :=
  decide (len ≤ 8) || (fd && [12, 16, 20, 24, 32, 48, 64].contains len)

/-- A SEND or CANCEL descriptor of the gateway is well-formed (R372). -/
def canTxFormatOk (d : List Byte) : Bool :=
  if dOp d = 1 then
    let fdf := dbits d 94 1
    let len := dbits d 104 7
    dzero d 34 63 && !dNocpl d && (dbits d 93 1 == 1 || dzero d 75 92) && (fdf == 1 || dbits d 95 1 == 0)
      && (fdf == 0 || dbits d 96 1 == 0) && dzero d 98 103 && dzero d 111 111 && dzero d 124 127 && dzero d 168 191
      && (canLenOk (fdf == 1) len || (dbits d 97 1 == 1 && decide (len ≤ 64)))
      && (if len ≤ 8 then dzero d 128 167 else dzero d 128 131 && dzero d 192 255)
  else dOp d == 2 && dzero d 33 63 && !dNocpl d && dzero d 80 255

/-- A RECV descriptor of the gateway is well-formed (R378). -/
def canRecvFormatOk (d : List Byte) : Bool :=
  dOp d == 3 && dzero d 33 63 && dzero d 64 67 && decide (80 ≤ dbits d 104 16) && dzero d 120 255

/-! ### Crypto (Table 15.20) -/

/-- A crypto descriptor is well-formed (R480). -/
def cryFormatOk (d : List Byte) : Bool :=
  let op := dOp d
  dzero d 33 63 && decide (op ≤ 4)
    && (op == 0 || (dzero d 108 111 && dzero d 232 255 && (op != 4 || dzero d 104 107)
      && (if op = 1 ∨ op = 2 then decide (dbits d 136 16 ≤ dbits d 112 24) && dzero d 192 195
          else dzero d 136 151 && dzero d 192 231)))
    && (op != 0 || dzero d 64 255)

end Sys2Proof.Machine
end

