-- ==== Sys2Proof/Machine/Recorder.lean ====
section
/-! DEFINITION. The event recorder: logbook and ledger, puts and requests, statements, clears, snapshots, start-up (Event
Recorder, R433 to R452). -/

namespace Sys2Proof.Machine

/-! ### Bytes of a record -/

/-- One bit of the CRC-8 of R436. -/
def crcBit (c : Nat) : Nat := if c < 128 then 2 * c else (2 * c) % 256 ^^^ 7

/-- CRC-8, polynomial 0x07, initial value `c` (R436). -/
def crc8 : Nat → List Byte → Nat
  | c, [] => c
  | c, b :: t =>
    let x := c ^^^ b.toNat
    crc8 (crcBit (crcBit (crcBit (crcBit (crcBit (crcBit (crcBit (crcBit x)))))))) t

/-- A record without its last two bytes gets its mark: 0x5A and the CRC-8 (R436, Table 14.6). -/
def marked (body : List Byte) : List Byte := body ++ [0x5A, BitVec.ofNat 8 (crc8 0 body)]

/-- A record as read shows a valid mark (R436). -/
def markOk (l : List Byte) : Bool := decide (2 ≤ l.length) && (l == marked (l.take (l.length - 2)))

/-- Zero bytes up to a multiple of 16. -/
def pad16 (l : List Byte) : List Byte := fitBytes ((l.length + 15) / 16 * 16) l

/-- A logbook record without its mark (Table 14.2). -/
def lbBody (seq : Nat) (e : RecEntry) : List Byte :=
  leBytes 4 seq ++ leBytes 2 e.req.code ++ leBytes 1 e.req.source ++ leBytes 1 (e.low + 16 * e.req.flags)
    ++ leBytes 8 e.time ++ leBytes 2 e.epoch ++ leBytes 4 e.req.p0 ++ leBytes 4 e.req.p1 ++ leBytes 4 e.req.p2

/-- The header of a ledger record and its padded payload (Table 14.5). -/
def lgFront (seq : Nat) (e : RecEntry) : List Byte :=
  leBytes 4 seq ++ leBytes 8 e.time ++ leBytes 2 e.epoch
    ++ leBytes 2 (e.req.payload.length % 4096 + 4096 * e.req.code) ++ pad16 e.req.payload

/-- The chain value of the next ledger record (R439). -/
def chainNext (h front : List Byte) : List Byte := fitBytes 48 (Config.sha384 (h ++ front))

/-! ### The logs in MRAM -/

/-- The first address of a log (Table 14.1). -/
def logBase (ledger : Bool) : Nat := if ledger then 0x10D00000 else 0x10C00000

/-- The size of a log in bytes. -/
def logSize (ledger : Bool) : Nat := if ledger then 0x200000 else 0x100000

/-- Whole codewords are written into a log from offset `off`, wrapping at its end (R438). -/
def State.putWords (s : State) (ledger : Bool) (off : Nat) (bytes : List Byte) : State :=
  (List.range (bytes.length / 16)).foldl (fun s i =>
    (s.writeMem (logBase ledger + (off + 16 * i) % logSize ledger) 0x11 ((bytes.drop (16 * i)).take 16)).2) s

/-- `len` bytes of a log from offset `off`, wrapping at its end. -/
def State.logBytes (s : State) (ledger : Bool) (off len : Nat) : List Byte :=
  (List.range len).map (fun i => s.readByte (logBase ledger + (off + i) % logSize ledger))

/-- The two logs. -/
def State.recLog (s : State) (ledger : Bool) : RecLog := if ledger then s.recArea.lg else s.recArea.lb

/-- One log of the state area is updated. -/
def State.setLog (s : State) (ledger : Bool) (l : RecLog) : State :=
  if ledger then { s with recArea := { s.recArea with lg := l } } else { s with recArea := { s.recArea with lb := l } }

/-- The recorder's own data is updated. -/
def State.setRec (s : State) (r : RecSt) : State := { s with recorder := r }

/-- The REC capture (R452): the first error after REARM; event 236. -/
def State.recError (s : State) (cause : Nat) : State :=
  if s.on REC_ERR_INFO_VALID then s else (s.setAll [(REC_ERR_INFO_VALID, 1), (REC_ERR_INFO_CAUSE, cause)]).raise 236

/-- The oldest ledger records that a write of `len` bytes would overwrite leave the valid range (R441). -/
def State.dropOldest (s : State) (len : Nat) : Nat → State
  | 0 => s
  | n + 1 =>
    let l := s.recArea.lg
    if l.old = l.next ∨ (l.nextOff + 0x200000 - l.oldOff) % 0x200000 + len ≤ 0x200000 then s
    else
      let size := 32 + (fieldAt (s.logBytes true l.oldOff 16) 14 2 % 4096 + 15) / 16 * 16
      (s.setLog true { l with old := (l.old + 1) % 2 ^ 32, oldOff := (l.oldOff + size) % 0x200000 }).dropOldest len n

/-- The oldest logbook record leaves the valid range where its slot is taken (R435, R441). -/
def State.dropSlot (s : State) : State :=
  let l := s.recArea.lb
  if (l.next + 2 ^ 32 - l.old) % 2 ^ 32 = 32768 then s.setLog false { l with old := (l.old + 1) % 2 ^ 32 } else s

/-- The state update after a record is valid (R441), and of a clear whose record is valid (R447). -/
def State.recFinish (s : State) (p : InProg) : State :=
  let l := s.recLog p.ledger
  let l := { l with next := (p.seq + 1) % 2 ^ 32, nextOff := (p.off + p.len) % logSize p.ledger }
  let l := match p.clr with
    | some c => { l with old := p.seq, oldOff := p.off, clr := c }
    | none => l
  let s := s.setLog p.ledger l
  { s with recArea := { s.recArea with chain := if p.ledger then p.link else s.recArea.chain, busy := none } }

/-- One record is written in the three steps of R441, of which `upTo` are done. -/
def State.recWrite (s : State) (e : RecEntry) (clr : Option Nat) (upTo : Nat) : State :=
  let ledger := e.req.ledger
  let seq := (s.recLog ledger).next
  let front := lgFront seq e
  let link := chainNext s.recArea.chain front
  let body := if ledger then front ++ link.take 14 else lbBody seq e
  let len := body.length + 2
  let s := if ledger then s.dropOldest len (len / 32 + 1) else s.dropSlot
  let p : InProg := ⟨ledger, seq, if ledger then s.recArea.lg.nextOff else seq % 32768 * 32, len, link, clr⟩
  let s := { s with recArea := { s.recArea with busy := some p } }
  let last := len - 16
  let s := if 1 ≤ upTo then s.putWords ledger (p.off + last) (body.drop last ++ [0, 0]) else s
  let s := if 2 ≤ upTo then s.putWords ledger p.off (body.take last) else s
  if 3 ≤ upTo then (s.putWords ledger (p.off + last) ((marked body).drop last)).recFinish p else s

/-! ### Queues (R442, R443) -/

/-- UNTRUSTED as the recorder finds it when it takes TIME (R437). -/
def State.untrusted (s : State) : Bool :=
  s.on REC_CTL_UNTRUSTED || (s.get TIME_STAT_STATE != 2 && s.get TIME_STAT_STATE != 4)

/-- A request as it reaches the recorder, with its TIME (R435, R440). -/
def State.stamped (s : State) (r : RecReq) (firmware normal : Bool) : RecEntry :=
  ⟨r, firmware, b2n s.untrusted + 2 * b2n normal, (r.stamp.getD (s.zone, s.epoch)).1, (r.stamp.getD (s.zone, s.epoch)).2⟩

/-- A record is lost (R442): counted, event 235, and a record 0x0003 is owed. -/
def State.recLoss (s : State) (ledger : Bool) : State :=
  let r := s.recorder
  ((s.setRec (if ledger then { r with lostLg := r.lostLg + 1 } else { r with lostLb := r.lostLb + 1 })).count REC_LOST).raise 235

/-- The firmware records in the logbook queue. -/
def State.fwQueued (s : State) : Nat := (s.recorder.lbQ.filter (·.firmware)).length

/-- A record of a hardware source reaches the recorder (R442). -/
def State.recAccept (s : State) (r : RecReq) : State :=
  let e := s.stamped r false false
  if s.on REC_STAT_CLOSED then s
  else if r.ledger then
    (if s.recorder.lgQ.length < 8 then s.setRec { s.recorder with lgQ := s.recorder.lgQ ++ [e] } else s.recLoss true)
  else if s.recorder.lbQ.length < 32 then s.setRec { s.recorder with lbQ := s.recorder.lbQ ++ [e] }
  else s.recLoss false

/-- A logbook record of a hardware source becomes due. -/
def State.logDue (s : State) (source code flags p0 p1 p2 : Nat) : State :=
  s.setRec { s.recorder with due := s.recorder.due ++ [⟨false, code, source, flags, p0, p1, p2, [], none⟩] }

/-- A ledger record becomes due. -/
def State.ledgerDue (s : State) (typ : Nat) (payload : List Byte) (stamp : Option (Nat × Nat)) : State :=
  s.setRec { s.recorder with due := s.recorder.due ++ [⟨true, typ, 0, 0, 0, 0, 0, payload, stamp⟩] }

/-- The record 0x0003 for the losses of one log (R442). -/
def lossReq (n : Nat) (ledger : Bool) : RecReq := ⟨false, 3, 0, 0, n, b2n ledger, 0, [], none⟩

/-- After a place has freed: a waiting put takes it, and the losses are entered (R442). -/
def State.recRefill (s : State) : State :=
  let s := match s.recorder.waiting with
    | e :: t => if s.fwQueued < 24 then s.setRec { s.recorder with waiting := t, lbQ := s.recorder.lbQ ++ [e] } else s
    | [] => s
  let s := if s.recorder.lostLb ≠ 0 ∧ s.recorder.lbQ.length < 32 then
      s.setRec { s.recorder with
        lostLb := 0, lbQ := s.recorder.lbQ ++ [s.stamped (lossReq s.recorder.lostLb false) false false] }
    else s
  if s.recorder.lostLg ≠ 0 ∧ s.recorder.lbQ.length < 32 then
    s.setRec { s.recorder with
      lostLg := 0, lbQ := s.recorder.lbQ ++ [s.stamped (lossReq s.recorder.lostLg true) false false] }
  else s

/-- REC_LB_PUT (R443): a put of the writer's staged parameters. A Normal put while NPUT is 0 is ignored and counted in
REC_LOST; one that finds the 24 firmware places full waits. -/
def execRecLbPut (a : Agent) (v : Word) (s : State) : Out :=
  let addr := REC_LB_PUT_CODE.addr
  match s.refuse a addr true with
  | some s' => done (if isNormal a s && s.awake then (s'.count REC_LOST).raise 235 else s')
  | none =>
    if s.on REC_STAT_CLOSED then done (s.answer 0)
    else
      let id := idOf a
      let p (i : Nat) : Nat := look s.recorder.stage (4 * id + i) 0
      let e := s.stamped ⟨false, bits v.toNat 16 16, 0x10 + id, bits v.toNat 12 4, p 0, p 1, p 2, [], none⟩ true (isNormal a s)
      done ((if s.fwQueued < 24 ∧ s.recorder.lbQ.length < 32 then s.setRec { s.recorder with lbQ := s.recorder.lbQ ++ [e] }
        else s.setRec { s.recorder with waiting := s.recorder.waiting ++ [e] }).answer 0)

/-- A hardware source hands over its record (R442). -/
def execRecRecordRequest (s : State) : Out :=
  whenAwake s (fun s =>
    match s.recorder.due with
    | [] => s
    | r :: t => (s.setRec { s.recorder with due := t }).recAccept r)

/-- The next record of a log is written (R441). Records wait for READY, and for a record in progress. -/
def execRecRecordWrite (ledger : Bool) (upTo : Fin 4) (s : State) : Out :=
  whenLive .recorder s (fun s =>
    if !s.on REC_STAT_READY || s.recArea.busy.isSome then s
    else if ledger then
      match s.recorder.lgQ with
      | [] => s
      | e :: t => ((s.setRec { s.recorder with lgQ := t }).recWrite e none upTo.val).recRefill
    else
      match s.recorder.lbQ with
      | [] => s
      | e :: t => ((s.setRec { s.recorder with lbQ := t }).recWrite e none upTo.val).recRefill)

/-! ### Energy statements (R445, R446, R474) -/

/-- The metering fields of a statement (Table 15.15 from 0x20 to 0x4F), from MD_LATCH and the reads that follow it; with the die
not reached every field is zero and MD_STAT bit 31 is set. -/
def State.stmtFields (s : State) : List Byte × State :=
  if s.linkUp 4 && s.pwr.mdOn then
    let s := s.mdWrite 0xC 1
    (leBytes 4 (s.get MD_SESSION) ++ leBytes 4 (s.get MD_L_SEQ) ++ leBytes 4 (s.get MD_L_EDIS_LO) ++ leBytes 4 (s.get MD_L_EDIS_HI)
      ++ leBytes 4 (s.get MD_L_ECHG_LO) ++ leBytes 4 (s.get MD_L_ECHG_HI) ++ leBytes 4 (s.get MD_L_I0) ++ leBytes 4 (s.get MD_L_V)
      ++ leBytes 4 (s.plainWord rowsMd 0x50080004) ++ leBytes 2 s.md.shunt ++ leBytes 2 (s.get MD_L_CALCNT) ++ leBytes 8 0, s)
  else (leBytes 32 0 ++ leBytes 4 (2 ^ 31) ++ leBytes 12 0, s.recError 4)

/-- The key manager is done with an operation of `k`, if that is what it runs (R465). -/
def KeySt.endFor (q : KeySt) (k : KeyAsk) : KeySt := if q.run = some k then { q with run := none, step := 0 } else q

/-- The key manager works on the request of REC (R465). -/
def State.recTurn (s : State) : Bool := s.keys.run == some .recorder

/-- The request of REC to the key manager has ended. -/
def State.recTurnEnd (s : State) : State := { s with keys := s.keys.endFor .recorder }

/-- A statement in progress ends without a record of its own: a record 0x0004 names the SEQ it would have had (R446). -/
def State.stmtAbandon (s : State) : State :=
  ((s.recTurnEnd.set REC_STAT_STMT_BUSY 0).setRec { s.recorder with stmt := [] }).recAccept
    ⟨false, 4, 0, 0, s.recArea.lg.next, 0, 0, [], none⟩

/-- A statement begins, unless one or a clear is in progress (R445). -/
def State.stmtBegin (s : State) : State :=
  if s.on REC_STAT_STMT_BUSY || s.on REC_STAT_CLR_BUSY || s.on REC_STAT_CLOSED then s
  else
    let r := s.stmtFields
    (r.2.setRec { r.2.recorder with stmt := r.1 }).set REC_STAT_STMT_BUSY 1

/-- STMT_PER minutes have passed; STMT_PER 0 asks for none (R445). -/
def execEnergyStatementDue (s : State) : Out :=
  whenLive .recorder s (fun s => if s.get REC_CTL_STMT_PER = 0 then s else s.stmtBegin)

/-- REC_CMD.STMT (R445). -/
def execRecStmt (a : Agent) (s : State) : Out := regCommand a REC_CMD_STMT.addr s State.stmtBegin

/-- MODULE_ID (R453): bytes 0 to 15 of the hash of the two identity public keys; zero while no root is written. -/
def State.moduleId (s : State) : List Byte :=
  match s.otp.root with
  | none => List.replicate 16 0
  | some r => fitBytes 16 (Config.sha384 (Config.publicKey 0 r ++ Config.publicKey 1 r))

/-- HMAC-SHA-384 (R456, R474). -/
def hmac384 (key text : List Byte) : List Byte :=
  let k := fitBytes 128 (if 128 < key.length then Config.sha384 key else key)
  fitBytes 48 (Config.sha384 (k.map (· ^^^ 0x5C) ++ fitBytes 48 (Config.sha384 (k.map (· ^^^ 0x36) ++ text))))

/-- The lifecycle state (Table 15.1). -/
def State.lifecycle (s : State) : Nat :=
  if !s.otp.pFuse then 0
  else if s.otp.dFuse then 4
  else if s.otp.lcGen = 0 then 1
  else if s.otp.lcGen % 2 = 1 then 2
  else 3

/-- The reaches that are active (R495, Tables 16.4 and 16.5): an active STEER brings its WATCH with it. -/
def State.reaches (s : State) : Nat :=
  let fw := s.get DBG_GRANT
  let g := match s.lifecycle with
    | 0 => 15
    | 1 => fw
    | 3 => fw
    | _ => orBits (fw % 8) (s.get DBG_STAT_TOKEN)
  orBits g (g / 4)

/-- Event 250 where the set of active reaches is no longer `old` (Table 16.7). -/
def State.reachesMoved (s : State) (old : Nat) : State := s.raiseIf (s.reaches != old) 250

/-- A Brirum statement (Table 15.14): in RAW it carries no signature. -/
def State.statement (s : State) (typ : Nat) (body sig : List Byte) : List Byte :=
  let raw := s.lifecycle == 0
  let hmac := s.keys.ledgerKey.isSome && !raw
  let m := leBytes 4 0x52495242 ++ leBytes 2 1 ++ leBytes 1 typ ++ leBytes 1 (b2n s.untrusted + 2 * b2n hmac)
    ++ leBytes 2 body.length ++ leBytes 2 (if raw then 0 else 96) ++ leBytes 2 (if raw then 0 else 3309)
    ++ leBytes 2 (if hmac then 48 else 0) ++ (if raw then List.replicate 16 0 else s.moduleId) ++ body
  m ++ (if raw then [] else fitBytes 3405 sig) ++ (match s.keys.ledgerKey with
    | some k => if raw then [] else hmac384 k m
    | none => [])

/-- The first 32 bytes of a statement body (Table 15.15). -/
def State.stmtHead (s : State) (seq : Nat) : List Byte :=
  leBytes 8 s.zone ++ leBytes 2 s.epoch ++ leBytes 1 s.lifecycle ++ leBytes 1 0 ++ leBytes 4 (s.plainWord rowsSys 0x40000000)
    ++ leBytes 4 (s.plainWord rowsSys 0x40000040) ++ leBytes 2 s.otp.lcGen ++ leBytes 2 0 ++ leBytes 4 (s.get SYS_KEYCNT_COUNT)
    ++ leBytes 4 seq

/-- The ledger signer completes the statement (R445): with the ledger queue empty its record is written, and event 232 raised. -/
def execEnergyStatementSigned (sig : List Byte) (upTo : Fin 4) (s : State) : Out :=
  whenLive .recorder s (fun s =>
    if !s.on REC_STAT_STMT_BUSY || !s.recTurn || !s.on REC_STAT_READY || s.recArea.busy.isSome || s.recorder.lgQ ≠ [] then s
    else
      let seq := s.recArea.lg.next
      let st := s.statement 2 (s.stmtHead seq ++ s.recorder.stmt ++ s.recArea.chain) sig
      let s := s.recWrite (s.stamped ⟨true, 2, 0, 0, 0, 0, 0, st, none⟩ false false) none upTo.val
      if s.recArea.busy.isSome then s
      else (((s.recTurnEnd.set REC_STAT_STMT_BUSY 0).set REC_STMT_LAST seq).raise 232).setRec { s.recorder with stmt := [] })

/-- RECORDER_ACCEPT_STOP (R446): a statement being signed is abandoned with a record 0x0004, then accepting stops. -/
def State.recStop (s : State) : State :=
  (if s.on REC_STAT_STMT_BUSY then s.stmtAbandon else s).set REC_STAT_CLOSED 1

/-! ### Clears (R447, R448) -/

/-- The address of the clear message. -/
def State.clrAddr (s : State) : Nat := 16 * s.get REC_CLR_ADDR_LO + 2 ^ 32 * s.get REC_CLR_ADDR_HI

/-- REC_CLR_RESULT is written, with event 233 (R447). -/
def State.clrResult (s : State) (r : Nat) : State := (s.set REC_CLR_RESULT r).raise 233

/-- REC_CMD.CLEAR (R447): refused with 0x5 while a clear or a statement is in progress (R448). -/
def execRecClear (a : Agent) (s : State) : Out :=
  regCommand a REC_CMD_CLEAR.addr s (fun s =>
    if s.on REC_STAT_CLR_BUSY || s.on REC_STAT_STMT_BUSY then s.clrResult 5 else s.set REC_STAT_CLR_BUSY 1)

/-- The zero fields and fixed values of the envelope of Table 15.8. -/
def msgFormat (m : List Byte) (command bodyLen : Nat) : Bool :=
  fieldAt m 0 4 == 0x4D554B51 && fieldAt m 4 2 == 1 && fieldAt m 6 1 == command && fieldAt m 7 1 == 0
    && fieldAt m 0xC 2 == bodyLen && fieldAt m 0xE 2 == 0

/-- The result of the checks of a clear message (R447, R466): 0 where all pass. -/
def State.clrCheck (s : State) (m : List Byte) (sigOk : Bool) : Nat :=
  let log := fieldAt m 0x20 1
  if !msgFormat m 4 16 || !(log == 1 || log == 2) || !allZero ((m.drop 0x21).take 15) then 6
  else if (m.drop 0x10).take 16 ≠ s.moduleId then 3
  else if !sigOk || s.lifecycle == 0 then 2
  else if fieldAt m 8 4 ≤ (s.recLog (log == 2)).clr then 4
  else 0

/-- The clear record of a log, and for the ledger the record of the clear in the logbook (R447). -/
def State.clearLog (s : State) (m : List Byte) (upTo : Nat) : State :=
  let counter := fieldAt m 8 4
  let ledger := fieldAt m 0x20 1 == 2
  let l := s.recLog ledger
  let newest := (l.next + 2 ^ 32 - 1) % 2 ^ 32
  if ledger then
    let s := s.recWrite (s.stamped ⟨true, 1, 0, 0, 0, 0, 0, leBytes 4 counter ++ leBytes 4 newest ++ leBytes 4 l.old ++ leBytes 4 0,
      none⟩ false false) (some counter) upTo
    if s.recArea.busy.isSome then s else s.recAccept ⟨false, 1, 0, 2, counter, newest, 0, [], none⟩
  else
    s.recWrite (s.stamped ⟨false, 1, 0, 0, counter, newest, (l.next + 2 ^ 32 - l.old) % 2 ^ 32, [], none⟩ false false)
      (some counter) upTo

/-- The key manager's check of the clear message ends (R447). -/
def execRecClearVerified (sigOk : Bool) (upTo : Fin 4) (s : State) : Out :=
  whenLive .recorder s (fun s =>
    if !s.on REC_STAT_CLR_BUSY || !s.recTurn || !s.on REC_STAT_READY || s.recArea.busy.isSome then s
    else
      let r := s.busRead .keyMgr s.clrAddr 3461
      match r.1 with
      | .ok m =>
        let c := s.clrCheck m sigOk
        if c ≠ 0 then (r.2.recTurnEnd.set REC_STAT_CLR_BUSY 0).clrResult c
        else
          let s := r.2.clearLog m upTo.val
          if s.recArea.busy.isSome then s else (s.recTurnEnd.set REC_STAT_CLR_BUSY 0).clrResult 1
      | _ => (r.2.recTurnEnd.set REC_STAT_CLR_BUSY 0).clrResult 7)

/-! ### Snapshots and counters -/

/-- REC_CMD.SNAP (R449). -/
def execRecSnap (a : Agent) (s : State) : Out :=
  regCommand a REC_CMD_SNAP.addr s (fun s =>
    let lb := s.recArea.lb
    let lg := s.recArea.lg
    let n := (look s.recorder.snaps (idOf a) ⟨0, 0, 0, 0, 0, 0, 0, 0⟩).num
    s.setRec { s.recorder with
      snaps := ins s.recorder.snaps (idOf a) ⟨lb.old, (lb.next + 2 ^ 32 - 1) % 2 ^ 32, lg.old, (lg.next + 2 ^ 32 - 1) % 2 ^ 32,
        lg.oldOff, lb.clr, lg.clr, (n + 1) % 2 ^ 16⟩ })

/-- REC_CMD.REARM (R452). -/
def execRecRearm (a : Agent) (s : State) : Out := regCommand a REC_CMD_REARM.addr s (fun s => s.set REC_ERR_INFO_VALID 0)

/-- REC_CMD.CLR_CNT (R452). -/
def execRecClrCnt (a : Agent) (s : State) : Out :=
  regCommand a REC_CMD_CLR_CNT.addr s (fun s => s.setAll [(REC_TORN_LB, 0), (REC_TORN_LG, 0), (REC_LOST, 0)])

/-! ### Start-up (R450) -/

/-- Sequence number `a` comes after `b` (R434). -/
def seqAfter (a b : Nat) : Bool := let d := (a + 2 ^ 32 - b) % 2 ^ 32; decide (0 < d ∧ d < 2 ^ 31)

/-- The valid records of a log, as (SEQ, offset, length): each place of the log whose bytes carry a valid mark. -/
def State.validRecords (s : State) (ledger : Bool) : List (Nat × Nat × Nat) :=
  let unit := if ledger then 16 else 32
  (List.range (logSize ledger / unit)).filterMap (fun i =>
    let off := unit * i
    let len := if ledger then 32 + (fieldAt (s.logBytes true off 16) 14 2 % 4096 + 15) / 16 * 16 else 32
    let rec0 := s.logBytes ledger off len
    if markOk rec0 then some (fieldAt rec0 0 4, off, len) else none)

/-- One log rebuilt from its valid records (R450): the highest sequence and the lowest one. -/
def State.rebuildLog (s : State) (ledger : Bool) : State :=
  let l := s.recLog ledger
  match s.validRecords ledger with
  | [] => s
  | r :: t =>
    let newest := t.foldl (fun b x => if seqAfter x.1 b.1 then x else b) r
    let oldest := t.foldl (fun b x => if seqAfter b.1 x.1 then x else b) r
    s.setLog ledger { l with
      old := oldest.1, oldOff := oldest.2.1, next := (newest.1 + 1) % 2 ^ 32,
      nextOff := (newest.2.1 + newest.2.2) % logSize ledger }

/-- H recomputed over the ledger from offset `off`, over `n` records (R450). -/
def State.rechain (s : State) : Nat → Nat → List Byte → List Byte
  | 0, _, h => h
  | n + 1, off, h =>
    let len := 16 + (fieldAt (s.logBytes true off 16) 14 2 % 4096 + 15) / 16 * 16
    s.rechain n ((off + len + 16) % 0x200000) (chainNext h (s.logBytes true off len))

/-- REC_STATE_REBUILD (R450). The chain value in front of the oldest record is 48 zero bytes where that record is the first of
the module; otherwise the spec does not say where the recorder takes it from, and it is a free value. -/
def State.recRebuild (s : State) : State :=
  let s := (s.rebuildLog false).rebuildLog true
  let d := s.draw 384
  let h := if s.recArea.lg.old = 0 then List.replicate 48 0 else leBytes 48 d.1
  let lg := s.recArea.lg
  let s := { d.2 with
    recArea := { s.recArea with chain := s.rechain ((lg.next + 2 ^ 32 - lg.old) % 2 ^ 32) lg.oldOff h, busy := none } }
  ({ s with syn := delRange s.syn (0x10F00000 / 16) (0x10F01000 / 16) }).recError 3

/-- The in-progress record is completed, or skipped as torn (R450); a ledger clear that is completed is entered in the logbook
(R447). -/
def State.recSettle (s : State) : State :=
  match s.recArea.busy with
  | none => s
  | some p =>
    if markOk (s.logBytes p.ledger p.off p.len) then
      (match p.clr with
        | some c => if p.ledger then (s.recFinish p).recAccept ⟨false, 1, 0, 2, c, (p.seq + 2 ^ 32 - 1) % 2 ^ 32, 0, [], none⟩
          else s.recFinish p
        | none => s.recFinish p)
    else
      let l := s.recLog p.ledger
      let s := s.setLog p.ledger { l with next := (p.seq + 1) % 2 ^ 32, nextOff := (p.off + p.len) % logSize p.ledger }
      let s := { s with recArea := { s.recArea with busy := none } }
      ((s.count (if p.ledger then REC_TORN_LG else REC_TORN_LB)).raise 234).recAccept
        ⟨false, 2, 0, 0, p.seq, b2n p.ledger, 0, [], none⟩

/-- REC_STARTUP_RECOVERY (R450). -/
def execRecStartupRecovery (s : State) : Out :=
  whenLive .recorder s (fun s =>
    if s.on REC_STAT_READY then s
    else
      let s := s.checkWords 0x10F00000 0x1000 (portOf .recorder)
      let s := if s.anyBad 0x10F00000 0x1000 then s.recRebuild else s.recSettle
      (s.set REC_STAT_READY 1).raise 237)

end Sys2Proof.Machine
end

