-- ==== Sys2Proof/Machine/Testing.lean ====
section
/-! DEFINITION. How an in-service test ends, and the tests of idle resources that firmware collides with (R149 to R154). -/

namespace Sys2Proof.Machine

/-- The duration of a test in µs, by item (R149, Table 4.7). -/
def testTime (item : Nat) : Nat := if item < 3 then 4000 else if item = 3 then 25 else if item = 4 then 15 else 8

/-- The item under test ends with an outcome, 1 pass, 2 fail, 3 incomplete (R153, R154): IST_RESULT, event 28 or 29, the
logbook record, and nothing under test. -/
def State.istEnd (s : State) (outcome detail : Nat) : State :=
  let item := s.get IST_STAT_ITEM
  let unit := s.get IST_STAT_UNIT
  let s := s.setAll [(IST_RESULT_VALID, 1), (IST_RESULT_OUTCOME, outcome), (IST_RESULT_ITEM, item), (IST_RESULT_UNIT, unit),
    (IST_RESULT_DETAIL, if outcome = 1 then 0 else detail), (IST_STAT_ITEM, 0), (IST_STAT_UNIT, 0)]
  let s := if item = 3 then
      (s.set (DMA_CH_STAT_TESTING (unit / 8) (unit % 8)) 0).clrBits (DMA_STAT_TESTING (unit / 8)) (2 ^ (unit % 8))
    else s
  let s := s.count (if outcome = 1 then IST_COUNT_PASS else if outcome = 2 then IST_COUNT_FAIL else IST_COUNT_INC)
  let s := if outcome ≠ 2 then s
    else if item = 3 then s.setBits IST_FAILMAP_DMA (2 ^ unit)
    else if item = 4 then s.setBits IST_FAILMAP_FIFO (2 ^ unit)
    else if item = 5 then s.setBits IST_FAIL_CKB (2 ^ unit)
    else s
  (s.raise (if outcome = 2 then 29 else 28)).logDue 1 (0x40F + outcome) 0 (item * 256 + unit)
    (if outcome = 1 then testTime item else detail) 0

/-- IDLE_RESOURCE_TEST_ABORT (R152): a firmware action on a DMA channel (item 3) or FIFO (item 4) under test ends the test as
incomplete, and the action then takes effect. -/
def State.istYield (s : State) (item unit : Nat) : State :=
  if s.get IST_STAT_ITEM = item ∧ s.get IST_STAT_UNIT = unit then s.istEnd 3 2 else s

end Sys2Proof.Machine
end

