-- ==== Sys2Proof/Machine/Rings.lean ====
section
/-! DEFINITION. The ring pairs: indices, doorbells, fetch, completion, write-back, stops, and the address windows of the virtual
functions (Descriptor Rings, R190 to R201; R166, R172 to R175). -/

namespace Sys2Proof

/-- The address of the ring set of a ring pair (Tables 6.9, 9.12, 10.7, 11.9, 15.24, 5.2). -/
def Ring.base : Ring → Nat
  | .dma m n => 0x40030100 + 0x1000 * m.val + 0x40 * n.val
  | .lcc => 0x40050100
  | .eth r => 0x40060100 + 0x20 * r.val
  | .cgw r => 0x40090100 + 0x20 * r.val
  | .cry r => 0x400D1100 + 0x20 * r.val
  | .ethVf v r => 0x41000100 + 0x1000 * v.val + 0x20 * r.val
  | .canVf v r => 0x41100100 + 0x1000 * v.val + 0x20 * r.val
  | .cryVf v => 0x41180100 + 0x1000 * v.val

/-- The address of the submission doorbell of a ring pair; the completion doorbell is 4 above it. -/
def Ring.doorbell : Ring → Nat
  | .dma m n => 0x40030040 + 0x1000 * m.val + 8 * n.val
  | .lcc => 0x40050040
  | .eth r => 0x40060040 + 8 * r.val
  | .cgw r => 0x40090080 + 8 * r.val
  | .cry r => 0x400D1040 + 8 * r.val
  | .ethVf v r => 0x41000000 + 0x1000 * v.val + 8 * r.val
  | .canVf v r => 0x41100000 + 0x1000 * v.val + 8 * r.val
  | .cryVf v => 0x41180000 + 0x1000 * v.val

/-- The function number of a VF's ring pair (Table 5.1). -/
def Ring.fn : Ring → Option Nat
  | .ethVf v _ => some v.val
  | .canVf v _ => some (16 + v.val)
  | .cryVf v => some (24 + v.val)
  | _ => none

/-- The number of the ring pair within its engine or function. -/
def Ring.num : Ring → Nat
  | .dma _ n => n.val
  | .lcc => 0
  | .eth r => r.val
  | .cgw r => r.val
  | .cry r => r.val
  | .ethVf _ r => r.val
  | .canVf _ r => r.val
  | .cryVf _ => 0

/-- The initiator the ring pair's accesses come from (Tables 1.5 and 16.1). -/
def Ring.agent : Ring → Agent
  | .dma m _ => .dma m
  | .lcc => .lcc
  | .eth r => if r.val < 8 then .ethPf else .ethSec
  | .cgw r => if r.val < 4 then .cgwPf else .cgwSec
  | .cry r => if r.val < 4 then .cryPf else .crySec
  | .ethVf _ _ => .ethVf
  | .canVf _ _ => .cgwVf
  | .cryVf _ => .cryVf

/-- The ring pair belongs to frames the engine receives (R323, R369, Table 5.1). -/
def Ring.isRx : Ring → Bool
  | .eth r => (decide (4 ≤ r.val) && decide (r.val < 8)) || decide (10 ≤ r.val)
  | .cgw r => r.val == 2 || r.val == 3 || r.val == 6 || r.val == 7
  | .ethVf _ r => decide (2 ≤ r.val)
  | .canVf _ r => r.val == 1
  | _ => false

/-- The ring pair is a DMA channel. -/
def Ring.isDma : Ring → Bool
  | .dma _ _ => true
  | _ => false

/-- The ring pair writes its completions as its frames finish, in any order (R372). -/
def Ring.anyOrder : Ring → Bool
  | .cgw r => !(Ring.cgw r).isRx
  | .canVf v r => !(Ring.canVf v r).isRx
  | _ => false

end Sys2Proof

namespace Sys2Proof.Machine

/-- The ring pairs of VF `f` (Table 5.1). -/
def ringsOf (f : Nat) : List Ring :=
  if h : f < 16 then [.ethVf ⟨f, h⟩ 0, .ethVf ⟨f, h⟩ 1, .ethVf ⟨f, h⟩ 2, .ethVf ⟨f, h⟩ 3]
  else if h : f - 16 < 8 then [.canVf ⟨f - 16, h⟩ 0, .canVf ⟨f - 16, h⟩ 1]
  else if h : f - 24 < 8 then [.cryVf ⟨f - 24, h⟩]
  else []

/-- A ring pair with every index 0. -/
def ringInit : RingSt := ⟨0, 0, 0, [], []⟩

/-- The indices and descriptors of a ring pair. -/
def State.ring (s : State) (r : Ring) : RingSt := look s.rings r.base ringInit

/-- A ring pair is given indices and descriptors. -/
def State.setRing (s : State) (r : Ring) (x : RingSt) : State := { s with rings := ins s.rings r.base x }

/-- SQ_CI of a ring pair. -/
def State.sqCi (s : State) (r : Ring) : Nat := s.get (RING_STAT_SQ_CI r.base)

/-- The block of the engine of a ring pair. -/
def ringBlock : Ring → Block
  | .dma m _ => if m.val = 0 then .dma0 else .dma1
  | .lcc => .lcc
  | .eth _ => .eth
  | .cgw _ => .cgw
  | .cry _ => .cry
  | .ethVf _ _ => .eth
  | .canVf _ _ => .cgw
  | .cryVf _ => .cry

/-- The engine of a ring pair works: its block does, and its own enable is set. -/
def State.engineOn (s : State) (r : Ring) : Bool :=
  (ringBlock r).live s && match ringBlock r with
    | .cgw => s.on CGW_CTL_EN
    | .cry => s.on CRY_CTL
    | .eth => s.on ETH_CTL_SW_EN
    | _ => true

/-- The state of VF `f` (Table 5.3). -/
def State.vfState (s : State) (f : Nat) : Nat := s.get (VFM_VF_STATE_STATE f)

/-- The generation of a ring pair (R193): RING_GEN, or the GEN of its VF. -/
def State.ringGen (s : State) (r : Ring) : Nat :=
  match r.fn with
  | some f => s.get (VFM_VF_STATE_GEN f)
  | none => s.get (RING_CFG_GEN r.base)

/-- A local event of VF `f` is set (Table 5.4). -/
def State.vfEvent (s : State) (f b : Nat) : State := s.setBits (VFP_VF_EVT_PEND f) (2 ^ b)

/-- The VFM capture (R188): the first error after REARM. -/
def State.vfmError (s : State) (f cause addr : Nat) : State :=
  if s.on VFM_ERR_INFO_VALID then s
  else s.setAll [(VFM_ERR_INFO_VALID, 1), (VFM_ERR_INFO_CAUSE, cause), (VFM_ERR_INFO_FN, f), (VFM_ERR_ADDR_LO, addr),
    (VFM_ERR_ADDR_HI, addr / 2 ^ 32)]

/-- The physical address of an access of VF `f` (R166): through the lowest-numbered enabled window that contains the address,
wholly; `none` where no window takes it. -/
def State.vfMap (s : State) (f addr len : Nat) : Option Nat :=
  let inWin (w a : Nat) : Bool := s.on (VFM_WIN_CTL_EN f w) && decide (s.get (VFM_WIN_GBASE f w) * 2 ^ 21 ≤ a)
    && decide (a < (s.get (VFM_WIN_GBASE f w) + s.get (VFM_WIN_CTL_SIZE f w)) * 2 ^ 21)
  match [0, 1, 2, 3].find? (fun w => inWin w addr) with
  | none => none
  | some w => if inWin w (addr + len - 1) then
      some (s.get (VFM_WIN_HBASE f w) * 2 ^ 21 + (addr - s.get (VFM_WIN_GBASE f w) * 2 ^ 21)) else none

/-- Where an access of a ring pair goes: a VF's guest address through its windows (R166). -/
def State.ringPhys (s : State) (r : Ring) (addr len : Nat) : Option Nat :=
  match r.fn with
  | none => some addr
  | some f => s.vfMap f addr len

/-- An engine reads through the stage bridge (R31, R230 to R233); its access has its turn behind the frames queued towards the die, and
ends within the engine's own command (DESIGN CHOICE, see the log). -/
def State.farGet (s : State) (a : Agent) (d addr len : Nat) : BusRes × State :=
  match s.windowRefused a d addr len with
  | some n => (.err, { s.windowError a addr false n with resp := s.resp })
  | none =>
    if !s.linkUp d then (.err, s.count BRG_NP_ERR)
    else
      let t := s.drainDown d
      let got := (List.range (len / 4)).map (fun i => t.farRead d (addr - winBase d + 4 * i))
      if got.any (fun g => g.1 != 0) then (.err, t.count BRG_NP_ERR) else (.ok (leBytes len (joinWords got)), t)

/-- An engine writes through the stage bridge (R31, R230 to R235): posted, or behind the queued frames where its writes are not. -/
def State.farPut (s : State) (a : Agent) (d addr : Nat) (data : List Byte) : BusRes × State :=
  match s.windowRefused a d addr data.length with
  | some n => (.err, { s.windowError a addr true n with resp := s.resp })
  | none =>
    let words := (List.range (data.length / 4)).map (fun i => BitVec.ofNat 32 (fieldAt data (4 * i) 4))
    if !s.nonPosted a then (.ok [], { s.windowWrite a addr data.length words [] with resp := s.resp })
    else if !s.linkUp d then (.err, s.count BRG_NP_ERR)
    else
      let r := (words.zipIdx).foldl (fun (r : Bool × State) w =>
        let t := r.2.farWrite d (addr - winBase d + 4 * w.2) w.1.toNat
        (r.1 && t.farStat d == 0, t)) (true, s.drainDown d)
      if r.1 then (.ok [], r.2) else (.err, r.2.count BRG_NP_ERR)

/-- An engine's data access: memory, or the stage window. An engine moves codewords, which register space answers with an error
response (R4), as `busRead` does. -/
def State.engineRead (s : State) (a : Agent) (addr len : Nat) : BusRes × State :=
  match (if Block.brg.live s && inWindow addr len && len != 0 then dieOf addr else none) with
  | some d => (s.grantsAt a addr len).farGet a d addr len
  | none => s.busRead a addr len

/-- An engine's data write, as `engineRead`. -/
def State.engineWrite (s : State) (a : Agent) (addr : Nat) (data : List Byte) : BusRes × State :=
  match (if Block.brg.live s && inWindow addr data.length && data != [] then dieOf addr else none) with
  | some d => (s.grantsAt a addr data.length).farPut a d addr data
  | none => s.busWrite a addr data

/-- A ring pair's engine reads memory, at a guest address for a VF (R166). -/
def State.ringRead (s : State) (r : Ring) (addr len : Nat) : BusRes × State :=
  match r.fn with
  | none => s.engineRead r.agent addr len
  | some f =>
    if len = 0 then (.ok [], s)
    else match s.vfMap f addr len with
    | none => (.fault, s)
    | some p => s.busRead r.agent p len

/-- A ring pair's engine writes memory, at a guest address for a VF (R166). -/
def State.ringWrite (s : State) (r : Ring) (addr : Nat) (data : List Byte) : BusRes × State :=
  match r.fn with
  | none => s.engineWrite r.agent addr data
  | some f =>
    if data = [] then (.ok [], s)
    else match s.vfMap f addr data.length with
    | none => (.fault, s)
    | some p => s.busWrite r.agent p data

/-! ### Write-back, events, stops -/

/-- The consumer-index write-back as the indices stand (Table 6.4). -/
def State.ciwbBytes (s : State) (r : Ring) : List Byte :=
  leBytes 2 (s.sqCi r) ++ leBytes 2 (s.ring r).cqPi ++ leBytes 1 (s.ringGen r)
    ++ leBytes 1 (s.get (RING_STAT_STOPPED r.base) + 16 * s.get (RING_STAT_CAUSE r.base)) ++ leBytes 10 0

/-- The address of the write-back (Table 6.7). -/
def State.ciwbAddr (s : State) (r : Ring) : Nat := 16 * s.get (RING_CIWB_LO r.base) + 2 ^ 32 * s.get (RING_CIWB_HI r.base)

/-- The write-back is written, while EN is 1 (R197). -/
def State.writeBack (s : State) (r : Ring) : BusRes × State :=
  if s.on (RING_CFG_EN r.base) then s.ringWrite r (s.ciwbAddr r) (s.ciwbBytes r) else (.ok [], s)

/-- The event a ring pair raises when it completes or stops (R211, Tables 10.6, 11.10, 15.21); the LCC owns none (R301), and a
VF has local events. -/
def ringEvent : Ring → Option Nat
  | .dma m n => some (32 + 8 * m.val + n.val)
  | .eth r => some (if r.val < 8 then 128 else 129)
  | .cgw r => some (if r.val < 4 then 192 else 193)
  | .cry r => some (if r.val < 4 then 245 else 246)
  | _ => none

/-- The event of a ring pair is raised. -/
def State.ringRaise (s : State) (r : Ring) : State :=
  match ringEvent r with
  | some e => s.raise e
  | none => s

/-- The ETH capture (R353): the first error after REARM; event 134. -/
def State.ethError (s : State) (cause port addr : Nat) : State :=
  if s.on ETH_ERR_INFO_VALID then s
  else (s.setAll [(ETH_ERR_INFO_VALID, 1), (ETH_ERR_INFO_CAUSE, cause), (ETH_ERR_INFO_PORT, port), (ETH_ERR_ADDR_LO, addr),
    (ETH_ERR_ADDR_HI, addr / 2 ^ 32)]).raise 134

/-- The CGW capture (Table 11.9): the first error after REARM; event 198. -/
def State.cgwError (s : State) (cause ring addr : Nat) : State :=
  if s.on CGW_ERR_INFO_VALID then s
  else (s.setAll [(CGW_ERR_INFO_VALID, 1), (CGW_ERR_INFO_CAUSE, cause), (CGW_ERR_INFO_RING, ring), (CGW_ERR_ADDR_LO, addr),
    (CGW_ERR_ADDR_HI, addr / 2 ^ 32)]).raise 198

/-- The CRY capture (R485): the first error after REARM; event 247. -/
def State.cryError (s : State) (cause fn addr : Nat) : State :=
  if s.on CRY_ERR_INFO_VALID then s
  else (s.setAll [(CRY_ERR_INFO_VALID, 1), (CRY_ERR_INFO_CAUSE, cause), (CRY_ERR_INFO_FN, fn), (CRY_ERR_ADDR_LO, addr),
    (CRY_ERR_ADDR_HI, addr / 2 ^ 32)]).raise 247

/-- The DMA capture (R212): the first error after REARM, with the channel's start and the addresses concerned. -/
def State.dmaError (s : State) (m n cause idx desc tgt : Nat) : State :=
  if s.on (DMA_ERR_INFO_VALID m) then s
  else s.setAll [(DMA_ERR_INFO_VALID m, 1), (DMA_ERR_INFO_CAUSE m, cause), (DMA_ERR_INFO_CH m, n), (DMA_ERR_INFO_SQ_IDX m, idx),
    (DMA_ERR_DESC_LO m, desc), (DMA_ERR_DESC_HI m, desc / 2 ^ 32), (DMA_ERR_TGT_LO m, tgt), (DMA_ERR_TGT_HI m, tgt / 2 ^ 32)]

/-- The function number a crypto capture reports (Table 15.24). -/
def cryFn : Ring → Nat
  | .cry r => if r.val < 4 then 0 else 1
  | .cryVf v => 0x18 + v.val
  | _ => 0

/-- What the engine of a ring pair captures of a failed access of its own at `addr`: an uncorrectable codeword (cause 0x2) or an
error response (0x6), where its chapter has a capture for it. -/
def State.engineCapture (s : State) (r : Ring) (cause addr : Nat) : State :=
  match ringBlock r with
  | .eth => if cause = 2 then s.ethError 2 (match r with
      | .eth n => if n.val < 8 then 8 else 9
      | _ => 8) addr else s
  | .cgw => if cause = 2 ∨ cause = 6 then s.cgwError (if cause = 2 then 1 else 2) (match r with
      | .cgw n => n.val
      | _ => 0xF) addr else s
  | .cry => if cause = 2 ∨ cause = 6 then s.cryError (if cause = 2 then 1 else 2) (cryFn r) addr else s
  | _ => s

/-- The address of ring slot `i` in the submission ring. -/
def State.slotAddr (s : State) (r : Ring) (i : Nat) : Nat :=
  64 * s.get (RING_SQ_BASE_LO r.base) + 2 ^ 32 * s.get (RING_SQ_BASE_HI r.base) + i % 2 ^ s.get (RING_CFG_SQ_LOG2 r.base) * 32

/-- RING_STOP (R200): STOPPED and CAUSE, the write-back, the event; a VF raises its local event and event 254, with the VFM
capture. `addr` is the address concerned. -/
def State.ringStop (s : State) (r : Ring) (cause addr : Nat) : State :=
  let s := (s.set (RING_STAT_STOPPED r.base) 1).set (RING_STAT_CAUSE r.base) cause
  let s := match r with
    | .dma m n => (s.setBits (DMA_STAT_STOPPED m) (2 ^ n.val)).dmaError m n cause (s.sqCi r) (s.slotAddr r (s.sqCi r)) addr
    | _ => s
  let s := (s.engineCapture r cause addr).writeBack r |>.2
  match r.fn with
  | none => s.ringRaise r
  | some f => ((s.vfmError f (if cause = 1 ∨ cause = 2 then cause else 3) addr).vfEvent f 4).raise 254

/-! ### Completions (R194 to R196, R199) -/

/-- Room for a completion (R199). -/
def State.cqRoom (s : State) (r : Ring) : Bool :=
  let x := s.ring r
  decide ((x.cqPi + 2 ^ 16 - x.head) % 2 ^ 16 < 2 ^ s.get (RING_CFG_CQ_LOG2 r.base))

/-- A completion entry (Table 6.2). -/
def State.entryBytes (s : State) (r : Ring) (it : Item) (status result : Nat) : List Byte :=
  let pi := (s.ring r).cqPi
  let phase := 1 - pi / 2 ^ s.get (RING_CFG_CQ_LOG2 r.base) % 2
  leBytes 2 it.idx ++ leBytes 1 it.gen ++ leBytes 1 status ++ leBytes 2 (dTag it.desc) ++ leBytes 2 (phase * 2 ^ 15)
    ++ leBytes 8 result

/-- The address of the next completion entry. -/
def State.entryAddr (s : State) (r : Ring) : Nat :=
  64 * s.get (RING_CQ_BASE_LO r.base) + 2 ^ 32 * s.get (RING_CQ_BASE_HI r.base)
    + (s.ring r).cqPi % 2 ^ s.get (RING_CFG_CQ_LOG2 r.base) * 16

/-- The DMA capture of an error of the start of `it`, if it is not captured yet (R212). For a completion write that fails, the address
of the descriptor is that of the start's ring slot, chained or not (DESIGN CHOICE, see the log). -/
def State.dmaCapture (s : State) (r : Ring) (it : Item) (cause tgt : Nat) : State :=
  match r with
  | .dma m n => s.dmaError m n cause it.idx (s.slotAddr r it.idx) tgt
  | _ => s

/-- The completion is written (R196): the entry, then the write-back, then the event. A failed entry is lost, its index counts
all the same, and the ring stops (R200); so it does for the cause the item brings. -/
def State.putEntry (s : State) (r : Ring) (it : Item) (status result cause : Nat) : State :=
  let addr := s.entryAddr r
  let w := s.ringWrite r addr (s.entryBytes r it status result)
  let s := w.2.setRing r { w.2.ring r with cqPi := ((w.2.ring r).cqPi + 1) % 2 ^ 16 }
  let s := match r.fn with
    | some f => s.vfEvent f r.num
    | none => s
  if w.1.cause ≠ 0 then (s.dmaCapture r it w.1.cause addr).ringStop r w.1.cause addr
  else if cause ≠ 0 then (s.dmaCapture r it cause 0).ringStop r cause addr
  else
    let wb := s.writeBack r
    if wb.1.cause ≠ 0 then wb.2.ringStop r wb.1.cause (s.ciwbAddr r)
    else match r with
      | .dma _ _ => if dbits it.desc 33 1 = 1 then wb.2.ringRaise r else wb.2
      | _ => wb.2.ringRaise r

/-- The descriptor that completes next: an executed one, the oldest of the ring unless its completions come in any order. -/
def State.nextDone (s : State) (r : Ring) : Option Item :=
  match (if r.anyOrder then (s.ring r).items.filter (·.fin.isSome) else (s.ring r).items) with
  | it :: _ => if it.fin.isSome then some it else none
  | [] => none

/-- A descriptor leaves the ring. -/
def State.dropItem (s : State) (r : Ring) (idx : Nat) : State :=
  s.setRing r { s.ring r with items := (s.ring r).items.filter (fun x => x.idx != idx) }

/-- An executed descriptor completes, if the completion ring has room (R196, R199). NOCPL leaves out the entry of an OK (Table
6.1); the engine's event is raised all the same, but for a DMA channel (R211). -/
def State.ringComplete (s : State) (r : Ring) : State :=
  match s.nextDone r with
  | none => s
  | some it =>
    match it.fin with
    | none => s
    | some (status, result, cause) =>
      if dNocpl it.desc && status == 0 then
        match r with
        | .dma _ _ => s.dropItem r it.idx
        | _ => (s.dropItem r it.idx).ringRaise r
      else if s.cqRoom r then (s.dropItem r it.idx).putEntry r it status result cause
      else s

/-- A descriptor has been executed with a status, a RESULT and a stop cause. -/
def State.finish (s : State) (r : Ring) (idx status result cause : Nat) : State :=
  s.setRing r { s.ring r with items := (s.ring r).items.map (fun x =>
    if x.idx = idx then { x with fin := some (status, result, cause) } else x) }

/-- Work on a descriptor has started (R178). -/
def State.startItem (s : State) (r : Ring) (idx : Nat) : State :=
  s.setRing r { s.ring r with items := (s.ring r).items.map (fun x => if x.idx = idx then { x with started := true } else x) }

/-- The oldest descriptor of a ring that has not been executed. -/
def State.nextItem (s : State) (r : Ring) : Option Item := (s.ring r).items.find? (fun x => x.fin.isNone)

/-- The contents of a destination become free values (R195: undefined after a partly executed descriptor), codeword by codeword, where
the ring may write them at all. -/
def State.smear (s : State) (r : Ring) (addr n : Nat) : State :=
  (wordsOf addr n).foldl (fun s w =>
    let lo := max addr (16 * w)
    let k := min (addr + n) (16 * w + 16) - lo
    match s.ringPhys r lo k with
    | some p => s.smearWord r.agent p k
    | none => s) s

/-- A data access of a descriptor has failed (Table 6.3): the status, the stop cause, the captures; its destination, `n` bytes at
`dst`, is undefined. -/
def State.dataFail (s : State) (r : Ring) (idx : Nat) (e : BusRes) (addr dst n : Nat) : State :=
  let s := (s.smear r dst n).engineCapture r e.cause addr
  let s := match r.fn with
    | some f => s.vfmError f (if e.cause = 6 then 3 else e.cause) addr
    | none => s
  s.finish r idx (if e.cause = 1 then 3 else if e.cause = 2 then 4 else 5) 0 e.cause

/-! ### Fetch (R193) -/

/-- A descriptor is well-formed for its ring. -/
def formatOk (r : Ring) (d : List Byte) : Bool :=
  match r with
  | .dma _ _ => dmaFormatOk d
  | .lcc => lccFormatOk d
  | .eth _ => if r.isRx then ethRecvFormatOk d else sendFormatOk d false
  | .ethVf _ _ => if r.isRx then ethRecvFormatOk d else sendFormatOk d true
  | .cgw _ => if r.isRx then canRecvFormatOk d else canTxFormatOk d
  | .canVf _ _ => if r.isRx then canRecvFormatOk d else canTxFormatOk d
  | .cry _ => cryFormatOk d
  | .cryVf _ => cryFormatOk d

/-- How many descriptors the engine holds of a ring: one for a DMA channel and the LCC (R202, R297), 16 for Ethernet, 64 for the
gateway and crypto (R185). -/
def fetchLimit : Ring → Nat
  | .dma _ _ => 1
  | .lcc => 1
  | .eth _ => 16
  | .ethVf _ _ => 16
  | _ => 64

/-- The descriptors a VF has in its engine or on its pending lists (R185). -/
def State.vfHeld (s : State) (f : Nat) : Nat := ((ringsOf f).map (fun r => (s.ring r).items.length + (s.ring r).again.length)).sum

/-- The frames in the message slots of all channels. -/
def State.loadedFrames (s : State) : List GwFrame := (s.can.chans.map (fun p => p.2.slots.map (·.2))).flatten

/-- The gateway slots a source occupies: a frame keeps its slot until it is finished, since it may be withdrawn to it (R368). -/
def State.gwUsed (s : State) (src : GwSrc) : Nat :=
  (s.can.wait.filter (fun f => f.src == src)).length + (s.loadedFrames.filter (fun f => f.src == src)).length

/-- The gateway slots of a source (Table 11.3). -/
def gwSlots : GwSrc → Nat
  | .routed => 128
  | _ => 64

/-- A source has a free gateway slot. -/
def State.gwRoom (s : State) (src : GwSrc) : Bool := decide (s.gwUsed src < gwSlots src)

/-- A start of the channel runs, or an aborted one has not reached its transfer boundary yet (R210). -/
def State.dmaRuns (s : State) (r : Ring) : Bool :=
  match r with
  | .dma m n => s.dma.any (fun p => p.1 == 8 * m.val + n.val)
  | _ => false

/-- The ring pair may fetch: its engine works, EN is 1, it has not stopped, there is a descriptor, the completion ring has room
(R199), the engine has a place, a VF is in RUN and holds no generation step (R173, R180), a CAN VF has a gateway slot left for its
TX ring (R170), a DMA channel has no start that runs. A descriptor that is read again has its place already (R185). -/
def State.mayFetch (s : State) (r : Ring) : Bool :=
  s.engineOn r && s.on (RING_CFG_EN r.base) && !s.on (RING_STAT_STOPPED r.base)
    && ((s.ring r).again != [] || (s.ring r).tail != s.sqCi r) && s.cqRoom r
    && decide ((s.ring r).items.length < fetchLimit r)
    && (match r.fn with
      | some f => s.vfState f == 1 && !s.on (VFM_VF_STATE_RST_HELD f) && ((s.ring r).again != [] || decide (s.vfHeld f < 64))
      | none => true)
    && (match r with
      | .canVf v _ => r.isRx || s.gwRoom (.vf v)
      | _ => true)
    && !s.dmaRuns r

/-- A descriptor fetch returns and its header is checked (R193, R195). One that is not executed completes at once; that of a DMA
channel with DESCRIPTOR_COMPLETE, since its completion write may be abandoned (R209). -/
def State.fetchOne (s : State) (r : Ring) : State :=
  let again := (s.ring r).again
  let idx := again.headD (s.sqCi r)
  let addr := s.slotAddr r idx
  let f := s.ringRead r addr 32
  match f.1 with
  | .ok d =>
    let s := f.2
    let gen := s.ringGen r
    let fin := if dGen d ≠ gen then some (1, 0, 0) else if formatOk r d then none else some (2, 0, 5)
    let x := s.ring r
    let s := s.setRing r { x with items := x.items ++ [⟨idx, d, gen, false, fin⟩], again := again.tail }
    let s := if again = [] then s.set (RING_STAT_SQ_CI r.base) (s.sqCi r + 1) else s
    let wb := s.writeBack r
    let it : Item := ⟨idx, d, gen, false, fin⟩
    let s := if wb.1.cause ≠ 0 then (wb.2.dmaCapture r it wb.1.cause (s.ciwbAddr r)).ringStop r wb.1.cause (s.ciwbAddr r) else wb.2
    if fin.isSome && !r.isDma then s.ringComplete r else s
  | e => f.2.ringStop r e.cause addr

/-- A DMA channel that has fetched a descriptor begins a start (R208). -/
def State.beginDma (s : State) (r : Ring) : State :=
  match r with
  | .dma m n =>
    match s.nextItem r with
    | some it =>
      let s := { s with dma := ins s.dma (8 * m.val + n.val) ⟨it.desc, s.slotAddr r it.idx, 0, 0, false, 0, [], none, none, false, []⟩ }
      ((s.startItem r it.idx).set (DMA_CH_STAT_BUSY m n) 1).setBits (DMA_STAT_BUSY m) (2 ^ n.val) |>.set (DMA_CH_STAT_DESCS m n) 0
    | none => s
  | _ => s

/-- DESCRIPTOR_FETCHED. A start whose own fetch's write-back has failed, and stopped the ring, is begun all the same: its descriptor is
fetched (DESIGN CHOICE, see the log). -/
def execDescriptorFetched (r : Ring) (s : State) : Out :=
  if s.mayFetch r then done ((s.fetchOne r).beginDma r) else .next s

/-- DESCRIPTOR_COMPLETE; the LCC has a command of its own for it. -/
def execDescriptorComplete (r : Ring) (s : State) : Out :=
  if (ringBlock r).live s then done (s.ringComplete r) else .next s

/-! ### Doorbells (R198) -/

/-- The LCC capture (R314): each new capture increments NUM; every error counts. -/
def State.lccError (s : State) (cause die addr : Nat) : State :=
  let s := s.count LCC_ERR_CNT
  if s.on LCC_ERR_INFO_VALID then s
  else (s.bump LCC_ERR_INFO_NUM).setAll [(LCC_ERR_INFO_VALID, 1), (LCC_ERR_INFO_CAUSE, cause), (LCC_ERR_INFO_DIE, die),
    (LCC_ERR_ADDR_LO, addr), (LCC_ERR_ADDR_HI, addr / 2 ^ 32)]

/-- A DMA channel under test is freed for an enable or a doorbell (R152, Table 4.7). -/
def State.freeDma (s : State) (r : Ring) : State :=
  match r with
  | .dma m n => s.istYield 3 (8 * m.val + n.val)
  | _ => s

/-- A register write to an engine: the LCC takes it from SG0 only, others are ignored and captured with cause 0x6 (R296). -/
def engineCommand (a : Agent) (r : Ring) (addr : Nat) (s : State) (act : State → State) : Out :=
  regCommand a addr s (fun s =>
    match r with
    | .lcc => if idOf a ≤ 2 then act s else s.lccError 6 0 addr
    | _ => act s)

/-- A doorbell with a generation that is not the ring's is ignored (R198, R173, R296). -/
def State.staleDoorbell (s : State) (r : Ring) (addr : Nat) : State :=
  match r with
  | .dma m _ => s.count (DMA_DB_IGN m)
  | .lcc => s.lccError 7 0 addr
  | _ => match r.fn with
    | some f => ((s.count (VFM_VF_DROP_DB_STALE f)).count VFM_DB_STALE).raise 253
    | none => s

/-- What stands between a doorbell and its ring: a VF compares the generation first, and takes nothing in OFF (R173); a disabled
or stopped ring ignores it; other engines compare the generation then (R198). -/
def State.ringBell (s : State) (r : Ring) (addr v : Nat) (act : State → State) : State :=
  let stale := bits v 16 8 != s.ringGen r
  match r.fn with
  | some f =>
    if stale || s.vfState f == 0 then s.staleDoorbell r addr
    else if s.on (RING_CFG_EN r.base) && !s.on (RING_STAT_STOPPED r.base) then act s else s
  | none =>
    if s.on (RING_CFG_EN r.base) && !s.on (RING_STAT_STOPPED r.base) then
      (if stale then s.staleDoorbell r addr else act s)
    else s

/-- SQ_DOORBELL (Table 6.6a). -/
def execSqDoorbell (a : Agent) (r : Ring) (v : Word) (s : State) : Out :=
  let addr := r.doorbell
  engineCommand a r addr s (fun s => (s.freeDma r).ringBell r addr v.toNat (fun s =>
    let t := bits v.toNat 0 16
    let d := (t + 2 ^ 16 - (s.ring r).tail) % 2 ^ 16
    if d = 0 ∨ 2 ^ 15 ≤ d then s
    else if (t + 2 ^ 16 - s.sqCi r) % 2 ^ 16 ≤ 2 ^ s.get (RING_CFG_SQ_LOG2 r.base) then s.setRing r { s.ring r with tail := t }
    else s.ringStop r 4 addr))

/-- CQ_DOORBELL (Table 6.6a). -/
def execCqDoorbell (a : Agent) (r : Ring) (v : Word) (s : State) : Out :=
  let addr := r.doorbell + 4
  engineCommand a r addr s (fun s => (s.freeDma r).ringBell r addr v.toNat (fun s =>
    let h := bits v.toNat 0 16
    let x := s.ring r
    let e := (h + 2 ^ 16 - x.head) % 2 ^ 16
    if e = 0 ∨ 2 ^ 15 ≤ e then s
    else if e ≤ (x.cqPi + 2 ^ 16 - x.head) % 2 ^ 16 then s.setRing r { x with head := h }
    else s.ringStop r 4 addr))

/-! ### Enable and disable (R172, R191, R200) -/

/-- The fields a RING_CFG write carries: sizes, and GEN but for a VF. -/
def State.ringCfg (s : State) (r : Ring) (v : Nat) : State :=
  let s := (s.set (RING_CFG_SQ_LOG2 r.base) (bits v 0 4)).set (RING_CFG_CQ_LOG2 r.base) (bits v 8 4)
  if r.fn.isNone then s.set (RING_CFG_GEN r.base) (bits v 16 8) else s

/-- RING_ENABLE: EN from 0 to 1 takes the sizes and GEN with it, zeroes the four indices and checks the sizes; with EN already 1
the write changes nothing. A VF in OFF has no rings (Table 5.3). -/
def execRingEnable (a : Agent) (r : Ring) (v : Word) (s : State) : Out :=
  engineCommand a r (r.base + 0x18) s (fun s =>
    if !bit v.toNat 31 || s.on (RING_CFG_EN r.base) || (match r.fn with
      | some f => s.vfState f == 0
      | none => false) then s
    else
      let s := (((s.freeDma r).ringCfg r v.toNat).set (RING_CFG_EN r.base) 1).set (RING_STAT_SQ_CI r.base) 0
      let s := s.setRing r ringInit
      let ok (l : Nat) : Bool := decide (4 ≤ l) && decide (l ≤ 12)
      if ok (bits v.toNat 0 4) && ok (bits v.toNat 8 4) then s else s.ringStop r 3 (r.base + 0x18))

/-- RING_DISABLE: EN 0 clears STOPPED and CAUSE and takes every field the write carries; a DMA start that runs aborts at its next
transfer boundary (R210). -/
def execRingDisable (a : Agent) (r : Ring) (v : Word) (s : State) : Out :=
  engineCommand a r (r.base + 0x18) s (fun s =>
    if bit v.toNat 31 then s
    else
      let s := ((s.ringCfg r v.toNat).set (RING_CFG_EN r.base) 0).setAll
        [(RING_STAT_STOPPED r.base, 0), (RING_STAT_CAUSE r.base, 0)]
      let s := s.setRing r { s.ring r with items := [], again := [] }
      match r with
      | .dma m n =>
        let k := 8 * m.val + n.val
        let s := s.clrBits (DMA_STAT_STOPPED m) (2 ^ n.val)
        { s with dma := s.dma.map (fun p => if p.1 = k then (k, { p.2 with aborting := true }) else p) }
      | _ => s)

end Sys2Proof.Machine
end

