-- ==== Sys2Proof/Machine/Lcc.lean ====
section
/-! DEFINITION. The load channel controller: load timers, command ring, snapshots, load sum (Load Channel Control and
Diagnostics, R293 to R306, R314). -/

namespace Sys2Proof.Machine

/-! ### Load timers -/

/-- A load-timer output that has never been enabled. -/
def ltInit : LtSt := ⟨0, 0, 0, 0, 0⟩

/-- Load-timer output `n`. -/
def State.lt (s : State) (n : Nat) : LtSt := look s.lcc.lt n ltInit

/-- The level of a load-timer output (R293). -/
def LtSt.level (x : LtSt) : Bool := x.period != 0 && decide (x.count < x.high)

/-- A control line takes a level, and the dies that are powered follow it (R288, R289). -/
def State.lineSet (s : State) (n : Nat) (high : Bool) : State :=
  let s := { s with lines := putBit s.lines n high }
  if s.psPowered then s.evalAll else s

/-- Output `n` is given a state and drives its line, low while EN is 0 (R294). -/
def State.setLt (s : State) (n : Nat) (x : LtSt) : State :=
  ({ s with lcc := { s.lcc with lt := ins s.lcc.lt n x } }).lineSet n (s.on (LCC_LT_CFG_EN n) && x.level)

/-- The values that wait for the next wrap take effect (R294). -/
def State.ltTake (s : State) (n count : Nat) : LtSt :=
  ⟨count, s.get (LCC_LT_TIME_HIGH n), s.get (LCC_LT_TIME_PERIOD n), s.get (LCC_LT_PHASE n), s.get (LCC_LT_CFG_PRESC n)⟩

/-- The counter is loaded with PHASE mod PERIOD (R294, R295), waiting values taken first. -/
def State.ltLoad (s : State) (n : Nat) : State :=
  s.setLt n (s.ltTake n (s.get (LCC_LT_PHASE n) % s.get (LCC_LT_TIME_PERIOD n)))

/-- The fields of LT_CFG. -/
def State.ltCfg (s : State) (n v : Nat) : State :=
  s.setAll [(LCC_LT_CFG_EN n, bits v 31 1), (LCC_LT_CFG_PRESC n, bits v 8 2), (LCC_LT_CFG_RS_EN n, bits v 4 1),
    (LCC_LT_CFG_TCU n, bits v 0 4)]

/-- LT_CFG written with EN 1 (R294): from 0 it loads the counter; a further write changes the other fields only. -/
def execLtEnable (a : Agent) (n : Fin 24) (v : Word) (s : State) : Out :=
  engineCommand a .lcc (LCC_LT_CFG_EN n).addr s (fun s =>
    if !bit v.toNat 31 then s
    else if s.on (LCC_LT_CFG_EN n) then s.ltCfg n v.toNat
    else (s.ltCfg n v.toNat).ltLoad n)

/-- LT_CFG written with EN 0 (R294): the output is low at once. -/
def execLtDisable (a : Agent) (n : Fin 24) (v : Word) (s : State) : Out :=
  engineCommand a .lcc (LCC_LT_CFG_EN n).addr s (fun s =>
    if bit v.toNat 31 then s else (s.ltCfg n v.toNat).lineSet n false)

/-- The counter wraps (R293, R294). -/
def execLoadTimerWrap (n : Fin 24) (s : State) : Out :=
  whenLive .lcc s (fun s => if s.on (LCC_LT_CFG_EN n) then s.setLt n (s.ltTake n 0) else s)

/-- An event of time compare unit `u` reloads the outputs that resynchronise by it (R295). -/
def State.ltResync (s : State) (u : Nat) : State :=
  if !Block.lcc.live s then s
  else (List.range 24).foldl (fun s n =>
    if s.on (LCC_LT_CFG_EN n) && s.on (LCC_LT_CFG_RS_EN n) && s.get (LCC_LT_CFG_TCU n) == u then s.ltLoad n else s) s

/-- LCC_CTL.LT_RUN (R290). -/
def execLtRunWrite (a : Agent) (v : Word) (s : State) : Out :=
  engineCommand a .lcc LCC_CTL_LT_RUN.addr s (fun s =>
    let s := s.set LCC_CTL_LT_RUN (bits v.toNat 8 1)
    if s.psPowered then s.evalAll else s)

/-! ### The dies as the LCC reaches them -/

/-- Why the LCC does not reach a die (Table 9.12): 0x3 not in DIES, 0x2 its link not UP or the die unpowered; 0 it is
reached. -/
def State.lccMiss (s : State) (d : Nat) : Nat :=
  if !bit (s.get LCC_CTL_DIES) d then 3 else if !s.linkUp d || !s.diePowered d then 2 else 0

/-- An access that the bridge answers with an error response, the link not being UP or the die unpowered (R228, R230, R242). -/
def State.lccMissed (s : State) (c : Nat) : State := if c = 2 then s.count BRG_NP_ERR else s

/-- The LCC has, or has not, had an answer of die `d` (LCC_STAT.DIE_OK). -/
def State.dieOk (s : State) (d : Nat) (ok : Bool) : State := s.set LCC_STAT_DIE_OK (putBit (s.get LCC_STAT_DIE_OK) d ok)

/-- What the LCC has found while it executes a descriptor: DIE_FAIL by die, and whether a clear was refused. -/
structure LccRun where
  s : State
  fail : Nat
  refused : Bool

/-- One far write of the LCC (R297): a die not reached, or one that answers with an error, is captured and counts in DIE_FAIL. A
CLEAR that is refused is no error of the die (Table 9.4). Frames queued for the die before it go first (R232), and each error response
counts in BRG_NP_ERR (R242). -/
def LccRun.write (x : LccRun) (d off v : Nat) : LccRun :=
  let addr := winBase d + off
  let c := x.s.lccMiss d
  if c = 3 then ⟨x.s.lccError c d addr, orBits x.fail (2 ^ d), x.refused⟩
  else if c ≠ 0 then ⟨((x.s.lccMissed c).lccError c d addr).dieOk d false, orBits x.fail (2 ^ d), x.refused⟩
  else
    let s := (x.s.drainDown d).psWrite d off v
    let st := s.farStat d
    if st = 0 then ⟨s.dieOk d true, x.fail, x.refused⟩
    else
      let s := s.count BRG_NP_ERR
      if off = 0x28 ∧ st = 2 then ⟨s.dieOk d true, x.fail, true⟩
      else ⟨(s.lccError 1 d addr).dieOk d false, orBits x.fail (2 ^ d), x.refused⟩

/-- The addressed channels of die `d` in a 48-bit mask. -/
def dieMask (m d : Nat) : Nat := bits m (12 * d) 12

/-- The far writes of a descriptor (R297 to R299), die by die. -/
def lccWrites (x : LccRun) (desc : List Byte) (d : Nat) : LccRun :=
  let m := dieMask (dbits desc 64 48) d
  match dOp desc with
  | 1 => if m = 0 then x else x.write d 0x20 (m * 2 ^ 16 + dieMask (dbits desc 128 48) d)
  | 2 =>
    let p := dbits desc (64 + 2 * d) 2
    if p = 0 then x else x.write d 0x2C (p * 256 + dbits desc (72 + 4 * d) 4)
  | 3 => if m = 0 then x else x.write d 0x28 m
  | 4 =>
    if m = 0 then x
    else x.write d 0x34 ((List.range 12).foldl (fun v k =>
      v + (if bit m k then dbits desc (128 + 24 * d + 2 * k) 2 else bits (x.s.get (PS_CH_LIM d)) (2 * k) 2) * 4 ^ k) 0)
  | 6 =>
    let die := dbits desc (116 + d) 1
    if m = 0 ∧ die = 0 then x else x.write d 0x38 (m + dbits desc 112 1 * 2 ^ 13 + die * 2 ^ 16)
  | _ => x

/-- The addressed channels that are LATCHED, on the dies reached (Table 9.3). -/
def State.latchedOf (s : State) (mask fail : Nat) : Nat :=
  (List.range 48).foldl (fun v n =>
    if bit mask n && !bit fail (n / 12) && s.chState (n / 12) (n % 12) == 6 then v + 2 ^ n else v) 0

/-- The head descriptor of the LCC ring, where it has OP `op` and no snapshot is in progress. -/
def State.lccHead (s : State) (op : Nat) : Option Item :=
  match s.nextItem .lcc with
  | some it => if dOp it.desc = op ∧ s.lcc.snap = none then some it else none
  | none => none

/-- Status and RESULT of an executed descriptor (Tables 9.3 and 9.4). -/
def State.lccFinish (x : LccRun) (it : Item) : State :=
  let op := dOp it.desc
  let latched := if op = 1 ∨ op = 3 ∨ op = 4 then x.s.latchedOf (dbits it.desc 64 48) x.fail else 0
  let status := if x.fail ≠ 0 then 0x10 else if x.refused then 0x11 else 0
  x.s.finish .lcc it.idx status (latched + x.fail * 2 ^ 48) 0

/-- The head descriptor, of OP `op`, is executed on its dies. -/
def State.lccExec (s : State) (op : Nat) : State :=
  match s.lccHead op with
  | none => s
  | some it =>
    let s := (s.startItem .lcc it.idx).set LCC_STAT_BUSY 1
    State.lccFinish ([0, 1, 2, 3].foldl (fun x d => lccWrites x it.desc d) ⟨s, 0, false⟩) it

/-- LCC_NOP. -/
def execLccNop (s : State) : Out := whenLive .lcc s (fun s => s.lccExec 0)

/-- LCC_REQ: command requests (R297). -/
def execLccReq (s : State) : Out := whenLive .lcc s (fun s => s.lccExec 1)

/-- LCC_BRIDGE: directions (R299). -/
def execLccBridge (s : State) : Out := whenLive .lcc s (fun s => s.lccExec 2)

/-- LCC_CLEAR: clears of LATCHED channels (R264). -/
def execLccClear (s : State) : Out := whenLive .lcc s (fun s => s.lccExec 3)

/-- LCC_LIMIT: limit classes (R299). -/
def execLccLimit (s : State) : Out := whenLive .lcc s (fun s => s.lccExec 4)

/-- LCC_CLRINFO: EV_ bits, counters, die flags (R298). -/
def execLccClrinfo (s : State) : Out := whenLive .lcc s (fun s => s.lccExec 6)

/-! ### Snapshots (R303, R304) -/

/-- Every enabled die latches; the dies not reached, by number, are captured. -/
def State.latchDies (s : State) : State × Nat :=
  [0, 1, 2, 3].foldl (fun (r : State × Nat) d =>
    match r.1.lccMiss d with
    | 0 => (((r.1.drainDown d).diagLatch d).dieOk d true, r.2)
    | 3 => r
    | c => (((r.1.lccMissed c).lccError c d (winBase d + 0x3C)).dieOk d false, orBits r.2 (2 ^ d))) (s, 0)

/-- A snapshot record (Table 9.5), from the latch blocks of the dies read. -/
def State.snapBytes (s : State) (seq valid : Nat) : List Byte :=
  leBytes 8 s.zone ++ leBytes 2 s.epoch ++ leBytes 2 seq ++ leBytes 1 valid ++ leBytes 3 0
    ++ (List.range 48).flatMap (fun n =>
      if bit valid (n / 12) then leBytes 4 (s.get (PS_LATCH_DIAG (n / 12) (n % 12))) ++ leBytes 4 (s.get (PS_LATCH_STAT (n / 12) (n % 12)))
      else leBytes 8 0)
    ++ [0, 1, 2, 3].flatMap (fun d =>
      if bit valid d then leBytes 4 (s.psWord d 0x860) ++ leBytes 4 (s.psWord d 0x864) else leBytes 8 0)
    ++ leBytes 80 0

/-- The dies a snapshot reads: enabled and not missed. -/
def State.readSet (s : State) (fail : Nat) : Nat := clearBits (s.get LCC_CTL_DIES) fail

/-- A record is written, codewords 1 to 31 first and codeword 0 last (R304); a failed write is captured with cause 0x4. -/
def State.writeRecord (s : State) (addr : Nat) (bytes : List Byte) : Bool × State :=
  let w := s.busWrite .lcc (addr + 16) (bytes.drop 16)
  let z := w.2.busWrite .lcc addr (bytes.take 16)
  if w.1.cause = 0 ∧ z.1.cause = 0 then (true, z.2) else (false, z.2.lccError 4 0 addr)

/-- LCC_DIAG: one record at the descriptor's address, with its TAG in SEQ (R304). -/
def execLccDiag (s : State) : Out :=
  whenLive .lcc s (fun s =>
    match s.lccHead 5 with
    | none => s
    | some it =>
      let r := ((s.startItem .lcc it.idx).set LCC_STAT_BUSY 1).latchDies
      let w := r.1.writeRecord (dbits it.desc 128 40) (r.1.snapBytes (dTag it.desc) (r.1.readSet r.2))
      if w.1 then w.2.finish .lcc it.idx (if r.2 ≠ 0 then 0x10 else 0) (r.2 * 2 ^ 48) 0
      else w.2.finish .lcc it.idx 5 0 6)

/-- A snapshot begins: TIME and EPOCH, the latches, the reads. -/
def State.snapBegin (s : State) : State :=
  let r := (s.set LCC_STAT_BUSY 1).latchDies
  let s := if r.2 ≠ 0 then r.1.count LCC_DIAG_MISS else r.1
  { s with lcc := { s.lcc with snap := some (s.snapBytes (s.get LCC_DIAG_WI) (s.readSet r.2)), trig := false } }

/-- A descriptor is being executed. -/
def State.lccBusy (s : State) : Bool := (s.ring .lcc).items.any (·.started)

/-- A snapshot trigger (R303): skipped with cause 0x5 while the previous snapshot is unfinished; it waits for a descriptor. -/
def State.snapTrigger (s : State) : State :=
  if !s.on LCC_DIAG_CFG_EN then s
  else if s.lcc.snap.isSome || s.lcc.trig then s.lccError 5 0 0
  else if s.lccBusy then { s with lcc := { s.lcc with trig := true } }
  else s.snapBegin

/-- The periodic trigger, while TRIG is 0. -/
def execLccSnapshotTrigger (s : State) : Out :=
  whenLive .lcc s (fun s => if s.on LCC_DIAG_CFG_TRIG then s else s.snapTrigger)

/-- The trigger by an event of time compare unit `u`, while TRIG is 1 (R303). -/
def State.snapByTcu (s : State) (u : Nat) : State :=
  if Block.lcc.live s && s.on LCC_DIAG_CFG_TRIG && s.get LCC_DIAG_CFG_TCU == u then s.snapTrigger else s

/-- The descriptor's completion is written; a snapshot that waited begins (R297, R303). -/
def execLccDescriptorComplete (s : State) : Out :=
  whenLive .lcc s (fun s =>
    let s := s.ringComplete .lcc
    if s.lccBusy then s
    else if s.lcc.trig then s.snapBegin
    else s.set LCC_STAT_BUSY (b2n s.lcc.snap.isSome))

/-- The size of the snapshot buffer: LOG2 from 4 to 12, others act as 4 (Table 9.12). -/
def State.snapLog2 (s : State) : Nat :=
  let l := s.get LCC_DIAG_CFG_LOG2
  if 4 ≤ l ∧ l ≤ 12 then l else 4

/-- LCC_SNAPSHOT_COMPLETE (R303, R304). -/
def execLccSnapshotComplete (s : State) : Out :=
  whenLive .lcc s (fun s =>
    match s.lcc.snap with
    | none => s
    | some b =>
      let addr := 512 * s.get LCC_DIAG_BASE_LO + 2 ^ 32 * s.get LCC_DIAG_BASE_HI + s.get LCC_DIAG_WI % 2 ^ s.snapLog2 * 512
      let s := { (s.writeRecord addr b).2 with lcc := { s.lcc with snap := none } }
      (s.bump LCC_DIAG_WI).set LCC_STAT_BUSY 0)

/-! ### Load sum (R306) and capture -/

/-- LCC_LOAD_SUM: the mean of the last 1000 sums; sums before the first one count as zero (DEDUCED, see the log). -/
def execLccLoadSum (s : State) : Out :=
  whenLive .lcc s (fun s =>
    let s := [0, 1, 2, 3].foldl (fun s d =>
      match s.lccMiss d with
      | 0 =>
        let s := s.drainDown d
        (({ s with lcc := { s.lcc with isum := ins s.lcc.isum d (s.get (PS_ISUM d)) } } : State).dieOk d true)
      | 3 => s
      | c => ((s.lccMissed c).lccError c d (winBase d + 0x10)).dieOk d false) s
    let total := [0, 1, 2, 3].foldl (fun v d => v + look s.lcc.isum d 0) 0
    let sums := (total :: s.lcc.sums).take 1000
    let mean := min (sums.sum / 1000) (2 ^ 16 - 1)
    let s := { s with lcc := { s.lcc with sums := sums } }
    (s.set LCC_LOAD_MEAN mean).set LCC_LOAD_MAX (max mean (s.get LCC_LOAD_MAX)))

/-- LCC_ERR_CTL (R314): REARM acts only with a matching NUM. -/
def execLccRearm (a : Agent) (v : Word) (s : State) : Out :=
  engineCommand a .lcc LCC_ERR_CTL_REARM.addr s (fun s =>
    if bit v.toNat 8 && bits v.toNat 0 8 == s.get LCC_ERR_INFO_NUM then s.set LCC_ERR_INFO_VALID 0 else s)

end Sys2Proof.Machine
end

