-- ==== Sys2Proof/Machine/Time.lean ====
section
/-! DEFINITION. Zone time: the count, steps, servo and time states, time compare units (Ethernet Switch and Zone Time, R336 to
R349, R355). -/

namespace Sys2Proof.Machine

/-- The time unit is given a state. -/
def State.setTime (s : State) (t : TimeSt) : State := { s with time := t }

/-- The time unit works: ISL_NET runs, TIME is neither gated nor fenced. -/
def State.timeLive (s : State) : Bool := Block.time.live s

/-- FREQ in ppt (R342). -/
def State.freq (s : State) : Int := signed (s.get TIME_FREQ) 30

/-- A frequency within ±500 ppm (R342). -/
def clampFreq (f : Int) : Int := max (-500000000) (min 500000000 f)

/-- FREQ is set. -/
def State.setFreq (s : State) (f : Int) : State :=
  (s.set TIME_FREQ (unsigned f 30)).setTime { s.time with freqs := (f :: s.time.freqs).take 16 }

/-- One ISL_NET cycle (R336): zone time advances by 3.2 ns × (1 + FREQ), kept with a 32-bit fraction. -/
def State.tick (s : State) : State :=
  let inc : Nat := ((16 * 2 ^ 32 * ((1000000000000 : Int) + s.freq)) / 5000000000000).toNat
  let f := s.zoneFrac + inc
  { s with zone := (s.zone + f / 2 ^ 32) % 2 ^ 64, zoneFrac := f % 2 ^ 32 }

/-- What passes while no command waits: one ISL_NET cycle, where zone time counts (DESIGN CHOICE, see the log). -/
def State.idle (s : State) : State := if s.timeLive then s.tick else s

/-- The time state changes (R343), with event 137. -/
def State.timeState (s : State) (v : Nat) : State :=
  if s.get TIME_STAT_STATE = v then s else (s.set TIME_STAT_STATE v).raise 137

/-! ### Time compare units (R347 to R349) -/

/-- A unit that has never been armed. -/
def tcuInit : TcuSt := ⟨0, false, 0, none⟩

/-- Time compare unit `u`. -/
def State.tcu (s : State) (u : Nat) : TcuSt := look s.time.tcu u tcuInit

/-- Time compare unit `u` is given a state. -/
def State.setTcu (s : State) (u : Nat) (x : TcuSt) : State := s.setTime { s.time with tcu := ins s.time.tcu u x }

/-- The strobe of unit `u` (R347): the load timers, the snapshots of the LCC, and the event of units 0 to 3. The SNS converters and
the metering die take theirs as commands of their own. -/
def State.strobe (s : State) (u : Nat) : State :=
  ((s.ltResync u).snapByTcu u).raiseIf (decide (u < 4) && s.on (TIME_TCU_CFG_EVT_EN u)) (140 + u)

/-- Unit `u` fires: a periodic unit schedules its next firing by the PER in force. -/
def State.tcuFires (s : State) (u : Nat) : State :=
  let x := s.tcu u
  let per := s.get (TIME_TCU_PER u)
  (s.setTcu u { x with armed := per != 0, next := x.next + per, last := some (s.zone : Int) }).strobe u

/-- Unit `u` fires late (R349). -/
def State.tcuLate (s : State) (u : Nat) : State := ((s.tcuFires u).set (TIME_TCU_CFG_LATE u) 1).raise 139

/-- The first value CMP + k · PER above `z`. -/
def firstAfter (cmp per : Nat) (z : Nat) : Nat := if z < cmp then cmp else cmp + ((z - cmp) / per + 1) * per

/-- A unit is armed with its applied CMP (R349). -/
def State.tcuArm (s : State) (u : Nat) : State :=
  let cmp := s.get (TIME_TCU_CMP_LO u) + 2 ^ 32 * s.get (TIME_TCU_CMP_HI u)
  let per := s.get (TIME_TCU_PER u)
  let x := s.tcu u
  if per = 0 then
    let s := s.setTcu u { x with cmp := cmp, armed := true, next := cmp }
    if cmp < s.zone then s.tcuLate u else s
  else s.setTcu u { x with cmp := cmp, armed := true, next := if s.zone ≤ cmp then cmp else firstAfter cmp per (s.zone - 1) }

/-- TCU_STEP_ADJUST (R348): a step of size `d` has taken place. -/
def State.tcuStep (s : State) (u : Nat) (d : Int) : State :=
  let x := s.tcu u
  let per := s.get (TIME_TCU_PER u)
  let x := { x with last := x.last.map (· + d) }
  if !x.armed then s.setTcu u x
  else if s.on (TIME_TCU_CFG_STEP_POL u) then s.setTcu u { x with next := x.next + d }
  else if per ≠ 0 then s.setTcu u { x with next := firstAfter x.cmp per s.zone }
  else
    let s := s.setTcu u x
    if x.next < (s.zone : Int) then s.tcuLate u else s

/-- TCU_FIRE (R347, R349): a periodic firing less than PER / 2 after the previous one is skipped. -/
def execTcuFire (u : Fin 16) (s : State) : Out :=
  if !s.timeLive || !s.on (TIME_TCU_CFG_EN u) || !(s.tcu u).armed then .next s
  else
    let x := s.tcu u
    let s := if (s.zone : Int) < x.next then { s with zone := x.next.toNat, zoneFrac := 0 } else s
    let per := s.get (TIME_TCU_PER u)
    let soon := match x.last with
      | some l => per != 0 && decide (2 * ((s.zone : Int) - l) < per)
      | none => false
    if soon then done (((s.setTcu u { x with next := x.next + per }).count (TIME_TCU_MISS u)).raise 139)
    else done (s.tcuFires u)

/-- TCU_CFG written (R349): EN from 0 to 1 arms the unit, EN 0 ends it; LATE is cleared by a 1. -/
def execTcuEnable (a : Agent) (u : Fin 16) (v : Word) (s : State) : Out :=
  regCommand a (TIME_TCU_CFG_EN u).addr s (fun s =>
    let was := s.on (TIME_TCU_CFG_EN u)
    let s := s.setAll [(TIME_TCU_CFG_STEP_POL u, bits v.toNat 1 1), (TIME_TCU_CFG_EVT_EN u, if u.val < 4 then bits v.toNat 2 1 else 0),
      (TIME_TCU_CFG_EN u, bits v.toNat 0 1)]
    let s := if bit v.toNat 3 then s.set (TIME_TCU_CFG_LATE u) 0 else s
    if !bit v.toNat 0 then s.setTcu u { s.tcu u with armed := false, last := none }
    else if was then s
    else s.tcuArm u)

/-- TCU_CMP_HI written (R349): while EN is 1 the unit is armed anew. -/
def execTcuCmpHiWrite (a : Agent) (u : Fin 16) (v : Word) (s : State) : Out :=
  regCommand a (TIME_TCU_CMP_HI u).addr s (fun s =>
    let s := s.set (TIME_TCU_CMP_HI u) v.toNat
    if s.on (TIME_TCU_CFG_EN u) then s.tcuArm u else s)

/-- TCU_PER written (R349): a firing already scheduled stays in place. -/
def execTcuPerWrite (a : Agent) (u : Fin 16) (v : Word) (s : State) : Out :=
  regCommand a (TIME_TCU_PER u).addr s (fun s => s.set (TIME_TCU_PER u) v.toNat)

/-! ### CAN captures (R364, R365) -/

/-- CAN channel `c` captures its counter, `count`, with zone time and epoch: CUR becomes PREV, and SEQ counts. -/
def State.canCapture (s : State) (c count : Nat) (step : Bool) : State :=
  let s := s.setAll [(CAN_TSY_CNT c 1, s.get (CAN_TSY_CNT c 0)), (CAN_TSY_TLO c 1, s.get (CAN_TSY_TLO c 0)),
    (CAN_TSY_THI c 1, s.get (CAN_TSY_THI c 0)), (CAN_TSY_INFO_EPOCH c 1, s.get (CAN_TSY_INFO_EPOCH c 0)),
    (CAN_TSY_INFO_STEP c 1, s.get (CAN_TSY_INFO_STEP c 0)), (CAN_TSY_INFO_SEQ c 1, s.get (CAN_TSY_INFO_SEQ c 0))]
  s.setAll [(CAN_TS c, count), (CAN_TSY_CNT c 0, count), (CAN_TSY_TLO c 0, s.zone), (CAN_TSY_THI c 0, s.zone / 2 ^ 32),
    (CAN_TSY_INFO_EPOCH c 0, s.epoch), (CAN_TSY_INFO_STEP c 0, b2n step), (CAN_TSY_INFO_SEQ c 0, s.get (CAN_TSY_INFO_SEQ c 0) + 1)]

/-- The channels capture at a step. Their counters are not disciplined, and no command says what they read then: free values. -/
def State.canStepCapture (s : State) : State :=
  (List.range 12).foldl (fun s c =>
    if (Block.can c).live s then
      let d := s.draw 32
      d.2.canCapture c d.1 true
    else s) s

/-! ### Steps (R345) -/

/-- The ledger payload of a time step (Table 14.8). -/
def stepPayload (oldT oldE kind newT newE : Nat) : List Byte :=
  leBytes 8 oldT ++ leBytes 2 oldE ++ leBytes 1 kind ++ leBytes 5 0 ++ leBytes 8 newT ++ leBytes 2 newE ++ leBytes 6 0

/-- The meters of the switch's streams, moved along with a step of size `d` (R332, R345). -/
def moveMeters (d : Int) (e : EthSt) : EthSt :=
  { e with streams := e.streams.map (fun p => (p.1, { p.2 with meter := p.2.meter.map (fun m => { m with at0 := m.at0 + d }) })) }

/-- ZONE_TIME_STEP (R345): the new value, clamped to 64 bits; the epoch; the captures; event 136; the recorder; LOCKED is left;
the compare units move. `kind` is 1 servo, 2 SET, 3 ADJ. -/
def State.timeStep (s : State) (target : Int) (kind : Nat) : State :=
  let old := s.zone
  let oldE := s.epoch
  let new := (max 0 (min (2 ^ 64 - 1) target)).toNat
  let s := { s with zone := new, zoneFrac := if kind = 2 then 0 else s.zoneFrac }
  let s := (((s.set TIME_STAT_EPOCH (oldE + 1)).set64 TIME_STEP_OLD_LO TIME_STEP_OLD_HI old).set64 TIME_STEP_NEW_LO
    TIME_STEP_NEW_HI new).raise 136
  let s := s.ledgerDue 6 (stepPayload old oldE kind new s.epoch) (some (new, s.epoch))
  let s := s.setTime { s.time with epochOpen := false, good := 0, bad := 0 }
  let s := if s.get TIME_STAT_STATE = 2 then s.timeState 1 else s
  let s := { s with nmw := { s.nmw with commits := s.nmw.commits.map (fun (p : Nat × Int) => (p.1, p.2 + ((new : Int) - old))) } }
  let s := { s with eth := moveMeters ((new : Int) - old) s.eth }
  (List.range 16).foldl (fun s u => s.tcuStep u ((new : Int) - old)) s.canStepCapture

/-- TIME_CMD.SET. -/
def execTimeSet (a : Agent) (s : State) : Out :=
  regCommand a TIME_CMD_SET.addr s (fun s => s.timeStep (s.get64 TIME_SET_LO TIME_SET_HI) 2)

/-- TIME_CMD.ADJ. -/
def execTimeAdj (a : Agent) (s : State) : Out :=
  regCommand a TIME_CMD_ADJ.addr s (fun s => s.timeStep ((s.zone : Int) + signed (s.get TIME_ADJ) 32) 3)

/-- TIME_CMD.CLR_INT. -/
def execTimeClrInt (a : Agent) (s : State) : Out :=
  regCommand a TIME_CMD_CLR_INT.addr s (fun s => s.setTime { s.time with integral := 0 })

/-- TIME_CMD.CLR_CNT: TIME_SYNC_CNT and the MISS counts (Table 10.10). -/
def execTimeClrCnt (a : Agent) (s : State) : Out :=
  regCommand a TIME_CMD_CLR_CNT.addr s (fun s =>
    (List.range 16).foldl (fun s u => s.set (TIME_TCU_MISS u) 0) (s.setAll [(TIME_SYNC_CNT_USED, 0), (TIME_SYNC_CNT_REJECT, 0)]))

/-! ### Servo and time states (R341 to R343) -/

/-- The servo runs (R342). -/
def State.servoRuns (s : State) : Bool := s.on TIME_CTL_SERVO_EN && !s.on TIME_CTL_GM

/-- SERVO_UPDATE without a step (R342): the integral and FREQ, both held back by the clamp. -/
def State.servoFreq (s : State) (o : Int) : State :=
  let i := s.time.integral + o
  let f := -((s.get TIME_GAIN_KP : Int) * o + (s.get TIME_GAIN_KI : Int) * i)
  if clampFreq f = f then ((s.setTime { s.time with integral := i }).setFreq f).set TIME_STAT_CLAMP 0
  else (s.setFreq (clampFreq f)).set TIME_STAT_CLAMP 1

/-- What an accepted offset does to the time state (Table 10.4). -/
def State.offsetState (s : State) (o : Int) : State :=
  let within := decide (o.natAbs ≤ s.get TIME_LOCK_LOCK_THR)
  let good := if within then s.time.good + 1 else 0
  let bad := if within then 0 else s.time.bad + 1
  let s := s.setTime { s.time with good := good, bad := bad }
  match s.get TIME_STAT_STATE with
  | 0 => s.timeState 1
  | 3 => s.timeState 1
  | 1 => if max 1 (s.get TIME_LOCK_LOCK_N) ≤ good then s.timeState 2 else s
  | 2 => if 4 ≤ bad then s.timeState 1 else s
  | _ => s

/-- An offset as the 32-bit saturating register holds it (Table 10.10). -/
def satOffset (o : Int) : Nat := unsigned (max (-(2 ^ 31)) (min (2 ^ 31 - 1) o)) 32

/-- SYNC_OFFSET_ACCEPT and SERVO_UPDATE (R341, R342). -/
def State.acceptOffset (s : State) (o : Int) : State :=
  let s := ((s.set TIME_OFFSET (satOffset o)).count TIME_SYNC_CNT_USED).offsetState o
  if !s.servoRuns then s
  else if s.on TIME_CTL_STEP_EN && decide (s.get TIME_STEP_THR < o.natAbs) then
    (s.setTime { s.time with integral := 0 }).timeStep ((s.zone : Int) - o) 1
  else s.servoFreq o

/-- The offset of a Sync (R341), in whole nanoseconds: receive timestamp, origin in ns, correction in 2^-16 ns. -/
def State.syncOffset (s : State) (tRx origin : Nat) (corr : Int) : Int :=
  (((tRx : Int) - origin) * 65536 - corr - (s.get TIME_LINKDELAY : Int) * 4096) / 65536

/-- FOLLOW_UP_TIMEOUT (R341). -/
def execFollowUpTimeout (s : State) : Out :=
  if !s.timeLive || s.time.sync.isNone then .next s
  else done ((s.setTime { s.time with sync := none }).count TIME_SYNC_CNT_REJECT)

/-- SYNC_TIMEOUT (R343): HOLDOVER, FREQ held at the mean of its last 16 values. -/
def execSyncTimeout (s : State) : Out :=
  if !s.timeLive || !(s.get TIME_STAT_STATE == 1 || s.get TIME_STAT_STATE == 2) then .next s
  else
    let l := s.time.freqs
    let s := if s.servoRuns && l != [] then s.setFreq (l.foldl (· + ·) 0 / (l.length : Int)) else s
    done ((s.setTime { s.time with good := 0, bad := 0 }).timeState 3)

/-- TIME_CTL written (R343). While the servo does not run CLAMP reads 0 (R342: it reports the servo output only). -/
def execTimeCtlWrite (a : Agent) (v : Word) (s : State) : Out :=
  regCommand a TIME_CTL_GM.addr s (fun s =>
    let s := s.setAll [(TIME_CTL_SYNC_TO, bits v.toNat 8 8), (TIME_CTL_SLAVE_PORT, bits v.toNat 4 4),
      (TIME_CTL_STEP_EN, bits v.toNat 2 1), (TIME_CTL_SERVO_EN, bits v.toNat 1 1), (TIME_CTL_GM, bits v.toNat 0 1)]
    let st := s.get TIME_STAT_STATE
    let s := if bit v.toNat 0 then s.timeState 4
      else if st = 4 then s.timeState 0
      else if !bit v.toNat 1 && (st == 1 || st == 2 || st == 3) then s.timeState 0
      else s
    let s := if s.get TIME_STAT_STATE = st then s else s.setTime { s.time with good := 0, bad := 0 }
    if s.servoRuns then s else s.set TIME_STAT_CLAMP 0)

/-- TIME_FREQ written (R342): ignored while the servo runs, clamped otherwise. -/
def execTimeFreqWrite (a : Agent) (v : Word) (s : State) : Out :=
  regCommand a TIME_FREQ.addr s (fun s =>
    if s.servoRuns then s else s.setFreq (clampFreq (signed (bits v.toNat 0 30) 30)))

/-- TIME_EPOCH_INIT written (R337, R6): it locks; the epoch counter is loaded only by the first write after a reset of ISL_NET,
before any step. -/
def execEpochInitWrite (a : Agent) (v : Word) (s : State) : Out :=
  regCommand a TIME_EPOCH_INIT.addr s (fun s =>
    if s.locks.contains TIME_EPOCH_INIT.addr then s
    else
      let e := bits v.toNat 0 16
      let s := { s.set TIME_EPOCH_INIT e with locks := s.locks ++ [TIME_EPOCH_INIT.addr] }
      if s.time.epochOpen then (s.set TIME_STAT_EPOCH e).setTime { s.time with epochOpen := false } else s)

end Sys2Proof.Machine
end

