-- ==== Sys2Proof/Machine/Ethernet.lean ====
section
/-! DEFINITION. The Ethernet switch: classification, filtering, forwarding, queues, shaping, replication and elimination, MACsec,
one-step timestamps, and the host ring pairs (R315 to R335, R339 to R341, R353, R354). -/

namespace Sys2Proof.Machine

/-- The switch is given a state. -/
def State.setEth (s : State) (e : EthSt) : State := { s with eth := e }

/-- A port with nothing scheduled and nothing sent. -/
def ePortInit : EPortSt := ⟨none, none, none, []⟩

/-- Switch port `p` beside its registers. -/
def State.ePort (s : State) (p : Nat) : EPortSt := look s.eth.ports p ePortInit

/-- Switch port `p` is given a state. -/
def State.setEPort (s : State) (p : Nat) (x : EPortSt) : State := s.setEth { s.eth with ports := ins s.eth.ports p x }

/-- The bit of port `p` in a port map (R354): P9 is bit 8, the PF on P8 is bit 9. -/
def portBit (p : Nat) : Nat := if p = 8 then 9 else if p = 9 then 8 else p

/-- The bytes of a frame without FCS, with its tags. -/
def EFrame.len (f : EFrame) : Nat := 12 + f.body.length + (if f.tagged then 4 else 0) + (if f.rtag.isSome then 6 else 0)

/-- The bytes of a frame without FCS; `tag` says whether it carries its C-tag. An R-TAG stands behind it. -/
def EFrame.bytes (f : EFrame) (tag : Bool) : List Byte :=
  beBytes 6 f.dst ++ beBytes 6 f.src
    ++ (if tag then beBytes 2 0x8100 ++ beBytes 2 (f.pcp * 8192 + b2n f.dei * 4096 + f.vid) else [])
    ++ (match f.rtag with
      | some n => beBytes 2 0xF1C1 ++ beBytes 2 0 ++ beBytes 2 n
      | none => [])
    ++ f.body

/-! ### Tables -/

/-- The key of an FDB entry. -/
def fdbKey (mac vid : Nat) : Nat := mac * 4096 + vid

/-- The FDB entry of an address and VID, with its index. -/
def State.fdbFind (s : State) (mac vid : Nat) : Option (Nat × FdbEnt) :=
  s.eth.fdb.find? (fun p => p.2.mac == mac && p.2.vid == vid)

/-- A new FDB entry is placed by its key; `none` where its bucket is full. -/
def State.fdbPlace (s : State) (e : FdbEnt) : Option Nat :=
  let i := Config.fdbSlot (fdbKey e.mac e.vid) (s.eth.fdb.map (·.1)) % 4096
  if s.eth.fdb.any (fun p => p.1 == i) then none else some i

/-- The FDB holds `e` at index `i`. -/
def State.fdbPut (s : State) (i : Nat) (e : FdbEnt) : State := s.setEth { s.eth with fdb := ins s.eth.fdb i e }

/-- The members of a VLAN; a VID without a valid entry has none. -/
def State.vlanOf (s : State) (vid : Nat) : VlanEnt := look s.eth.vlan vid ⟨0, 0⟩

/-- A group address. -/
def isGroup (mac : Nat) : Bool := bit mac 40

/-- The broadcast address. -/
def broadcast : Nat := 2 ^ 48 - 1

/-- The switch learns a source address (R318): never over a static entry, and only where its bucket has room. -/
def State.learn (s : State) (p : Nat) (f : EFrame) : State :=
  if !s.on (PORT_CFG_LEARN p) || decide (7 < p) || isGroup f.src then s
  else match s.fdbFind f.src f.vid with
    | some (i, e) => if e.static then s else s.fdbPut i { e with dest := 2 ^ p }
    | none =>
      let e : FdbEnt := ⟨f.src, f.vid, false, 2 ^ p⟩
      match s.fdbPlace e with
      | some i => s.fdbPut i e
      | none => s

/-! ### Virtual functions at P8 (R321, R322) -/

/-- The VLAN of Ethernet VF `v`. -/
def State.vfVid (s : State) (v : Nat) : Nat :=
  if s.get (ETH_VF_CFG_VID v) = 0 then s.get (PORT_CFG_PVID 8) else s.get (ETH_VF_CFG_VID v)

/-- An enabled VF_MAC entry of VF `v` is `mac`. -/
def State.vfHasMac (s : State) (v mac : Nat) : Bool :=
  [0, 1, 2, 3].any (fun i => s.on (ETH_VF_MAC_HI_EN v i)
    && (s.get (ETH_VF_MAC_LO v i) + 2 ^ 32 * s.get (ETH_VF_MAC_HI_MAC v i) == mac))

/-- A frame reaches VF `v` (R321). -/
def State.vfTakes (s : State) (f : EFrame) (v : Nat) : Bool :=
  let here := s.vfVid v == f.vid
  if isGroup f.dst then
    (here && f.dst == broadcast && s.on (ETH_VF_CFG_BCAST v))
      || (f.dst != broadcast && ((here && s.on (ETH_VF_CFG_MCAST_ALL v)) || (match s.fdbFind f.dst f.vid with
        | some (_, e) => e.static && bit e.dest (10 + v)
        | none => false)))
  else here && s.vfHasMac v f.dst

/-- A frame of an Ethernet VF is dropped for queue memory or while the VF is frozen (R169, R182). -/
def State.vfQdrop (s : State) (v : Nat) : State := (s.count (VFM_VF_QDROP v)).vfEvent v 6

/-! ### Queue memory (R169, R320) -/

/-- The egress queue `q` of port `p`. -/
def State.eQueue (s : State) (p q : Nat) : List EFrame := look s.eth.queues (8 * p + q) []

/-- The egress queue `q` of port `p` becomes `l`. -/
def State.setEQueue (s : State) (p q : Nat) (l : List EFrame) : State :=
  s.setEth { s.eth with queues := ins s.eth.queues (8 * p + q) l }

/-- The frames that wait for an RX ring pair. -/
def State.hostQueue (s : State) (r : Ring) : List EFrame := look s.eth.host r.base []

/-- The frames that wait for an RX ring pair become `l`. -/
def State.setHostQueue (s : State) (r : Ring) (l : List EFrame) : State :=
  s.setEth { s.eth with host := ins s.eth.host r.base l }

/-- The bytes of a list of frames. -/
def frameBytes (l : List EFrame) : Nat := (l.map EFrame.len).sum

/-- The frames that wait at an egress port: in the queues of P0 to P7, for the PF, and at P9. -/
def State.heldFrames (s : State) : List EFrame :=
  (s.eth.queues.map (·.2)).flatten ++ ((s.eth.host.filter (fun p => decide (p.1 < 0x41000000))).map (·.2)).flatten ++ s.eth.toGw

/-- The bytes of the pool in use: frames that are neither from nor for a VF. -/
def State.poolUsed (s : State) : Nat := frameBytes (s.heldFrames.filter (·.vf.isNone))

/-- The queue memory that VF `v` uses: what it has sent, until it leaves its egress port, and what waits for it. -/
def State.vfUsed (s : State) (v : Nat) : Nat :=
  frameBytes (s.heldFrames.filter (fun f => f.vf == some v))
    + frameBytes ((s.eth.host.filter (fun p => decide (0x41000000 ≤ p.1) && (p.1 - 0x41000000) / 4096 == v)).map (·.2)).flatten

/-- A pool queue takes a frame of `n` bytes (R320). -/
def State.poolRoom (s : State) (l : List EFrame) (n : Nat) : Bool :=
  decide (frameBytes l + n ≤ 32768) && decide (s.poolUsed + n ≤ 2 ^ 20)

/-- Queue memory has room for a frame behind the queue `l`: in the memory of the VF that sent it, else in the pool (R169, R320). -/
def State.memRoom (s : State) (l : List EFrame) (f : EFrame) : Bool :=
  match f.vf with
  | some v => decide (s.vfUsed v + f.len ≤ 65536)
  | none => s.poolRoom l f.len

/-- A frame that queue memory has no room for is dropped: counted for the VF that sent it alone, else at its egress port. -/
def State.memDrop (s : State) (p : Nat) (f : EFrame) : State :=
  match f.vf with
  | some v => s.vfQdrop v
  | none => s.count (PORT_TX_DROP p)

/-- A frame enters the egress queue of port `p` (R320, R169). -/
def State.toPort (s : State) (p : Nat) (f : EFrame) : State :=
  let l := s.eQueue p f.pcp
  if s.memRoom l f then s.setEQueue p f.pcp (l ++ [f]) else s.memDrop p f

/-- A frame waits for an RX ring pair of the PF or of P9. -/
def State.toHost (s : State) (p : Nat) (r : Ring) (f : EFrame) : State :=
  let l := s.hostQueue r
  if s.memRoom l f then s.setHostQueue r (l ++ [f]) else s.memDrop p f

/-- A frame arrives for VF `v` (R321, R182): steered by PCP (R168), dropped while the VF freezes or is frozen. -/
def State.toVf (s : State) (v : Fin 16) (f : EFrame) : State :=
  let st := s.vfState v
  if st = 0 then s
  else if st ≠ 1 then s.vfQdrop v
  else
    let r : Ring := .ethVf v (if f.tagged && decide (4 ≤ f.pcp) then 3 else 2)
    if s.vfUsed v + f.len ≤ 65536 then s.setHostQueue r (s.hostQueue r ++ [f]) else s.vfQdrop v

/-- The receive entry of the gateway's stream table that a frame at P9 matches (R381): Ethertype 0x22F0, subtype 0x82. The
gateway's stream entries are six words by index. -/
def gwStream (streams : List (Nat × List Nat)) (f : EFrame) : Option Nat :=
  if beAt f.body 0 2 ≠ 0x22F0 ∨ beAt f.body 2 1 ≠ 0x82 then none
  else (streams.find? (fun e => bit (e.2.getD 3 0) 31 && bit (e.2.getD 4 0) 0
    && (e.2.getD 0 0 + 2 ^ 32 * e.2.getD 1 0 == beAt f.body 6 8))).map (·.1)

/-- A frame reaches P9: the gateway takes it, or the P9 rings do, by PCP (R168, R381). -/
def State.toP9 (s : State) (f : EFrame) : State :=
  if s.on CGW_CTL_P9_EN && s.on CGW_CTL_EN && (gwStream s.can.streams f).isSome then
    if s.memRoom s.eth.toGw f then s.setEth { s.eth with toGw := s.eth.toGw ++ [f] } else s.memDrop 9 f
  else s.toHost 9 (if f.tagged && decide (4 ≤ f.pcp) then .eth 11 else .eth 10) f

/-- A frame reaches the PF on P8 (R323). -/
def State.toPf (s : State) (f : EFrame) : State := s.toHost 8 (.eth (Fin.ofNat 12 (4 + f.pcp / 2))) f

/-- The segment of port `p` (Table 12.1). -/
def portSeg (p : Nat) : Nat := if p < 6 then 14 + p else 6 + p

/-- NMW isolates the segment of port `p` (R402). -/
def State.portIso (s : State) (p : Nat) : Bool := s.on (SEG_STAT_ISO (portSeg p))

/-- The destination map of a frame that entered at port `p`, from VF `v` where one sent it (R318, R321). A frame goes back neither
to its port nor to its function; a frame that is flooded leaves P8 out where it came from there. -/
def State.destMap (s : State) (p : Nat) (f : EFrame) : Nat :=
  let vfs := ((List.range 16).filter (fun v => s.vfTakes f v && f.vf != some v)).map (fun v => 2 ^ (10 + v)) |>.sum
  let members := (s.vlanOf f.vid).member
  let ports := match s.fdbFind f.dst f.vid with
    | some (_, e) => if p = 8 ∧ f.vf.isSome then e.dest % 1024 &&& members
        else clearBits (e.dest % 1024 &&& members) (2 ^ portBit p)
    | none => if !isGroup f.dst && (List.range 16).any (fun v => s.vfVid v == f.vid && s.vfHasMac v f.dst) then 0
        else clearBits ((List.range 8).foldl (fun m q => if s.portIso q then clearBits m (2 ^ q) else m) members) (2 ^ portBit p)
  ports + vfs

/-- The transceiver of a segment sleeps, or its link is pending (Table 12.4). -/
def State.segDown (s : State) (seg : Nat) : Bool := decide (3 ≤ s.get (SEG_STAT_STATE seg))

/-- A frame has been routed into an isolated segment (R403). -/
def State.routedInto (s : State) (seg : Nat) : State := { s with nmw := { s.nmw with routed := putBit s.nmw.routed seg true } }

/-- A frame that the switch forwards to port `p`: one that did not come from a host ring is dropped while NMW isolates the segment
(R402). -/
def State.forwardPort (s : State) (p : Nat) (f : EFrame) : State :=
  if s.portIso p && !f.fromRing then (s.count (PORT_TX_DROP p)).routedInto (portSeg p) else s.toPort p f

/-- A frame goes to every destination of a map; a port whose EN is 0 takes none. With an R-TAG to give, its copies for P0 and P1
carry it (R333). -/
def State.forward (s : State) (f : EFrame) (dest : Nat) (rtag : Option Nat) : State :=
  let s := (List.range 8).foldl (fun s p =>
    if bit dest p && s.on (PORT_CFG_EN p) then s.forwardPort p (if p < 2 ∧ rtag.isSome then { f with rtag := rtag } else f) else s) s
  let s := if bit dest 8 && s.on (PORT_CFG_EN 9) then s.toP9 f else s
  let s := if bit dest 9 && s.on (PORT_CFG_EN 8) then s.toPf f else s
  (List.range 16).foldl (fun s v => if bit dest (10 + v) && s.on (PORT_CFG_EN 8) then s.toVf (Fin.ofNat 16 v) f else s) s

/-! ### Streams (R331 to R333) -/

/-- A dropped frame is counted at its ingress port. -/
def State.rxDrop (s : State) (p : Nat) : State := s.count (PORT_RX_DROP p)

/-- Stream entry `i` is given contents. -/
def State.setStream (s : State) (i : Nat) (e : StreamEnt) : State := s.setEth { s.eth with streams := ins s.eth.streams i e }

/-- The first valid entry that a frame entering port `p` matches. -/
def State.streamOf (s : State) (p : Nat) (f : EFrame) : Option (Nat × StreamEnt) :=
  if !s.on (PORT_CFG_PSFP_EN p) then none
  else s.eth.streams.find? (fun x => bit x.2.w1 31 && bit x.2.w2 (portBit p) && (bits x.2.w1 16 12 == f.vid)
    && (x.2.w0 + 2 ^ 32 * bits x.2.w1 0 16 == (if bit x.2.w1 28 then f.src else f.dst)))

/-- FRER applies: FRER_EN of both backbone ports is 1. -/
def State.frerOn (s : State) : Bool := s.on (PORT_CFG_FRER_EN 0) && s.on (PORT_CFG_FRER_EN 1)

/-- The vector recovery algorithm (R333, IEEE 802.1CB) over `h` frames: whether a frame passes, whether it is a duplicate, and the
recovery's new state. A sequence number outside the history is discarded. -/
def recoverSeq (h : Nat) (st : Option (Nat × Nat)) (seq : Nat) : Bool × Bool × Option (Nat × Nat) :=
  match st with
  | none => (true, false, some (seq, 1))
  | some (last, hist) =>
    let d := (seq + 65536 - last) % 65536
    if d < 32768 ∧ 0 < d then
      (if h ≤ d then (false, false, st) else (true, false, some (seq, (hist * 2 ^ d + 1) % 2 ^ h)))
    else
      let b := (65536 - d) % 65536
      if h ≤ b then (false, false, st)
      else if bit hist b then (false, true, st)
      else (true, false, some (last, hist ||| 2 ^ b))

/-- What filtering and policing do with a frame: dropped, or passed on. -/
structure Policed where
  pass : Bool
  frame : EFrame
  gen : Option Nat
deriving DecidableEq, Repr

/-- A stream entry drops a frame. -/
def State.streamDrop (s : State) (p i : Nat) (e : StreamEnt) (f : EFrame) : Policed × State :=
  (⟨false, f, none⟩, (s.setStream i { e with drop := satInc e.drop 16 }).rxDrop p)

/-- A bucket of `had` that fills at `rate` · 64 kbit/s for `dt` ns, up to `cap` · 64 bytes, in units of 8 · 10⁻⁶ byte (R332). -/
def bucketFill (rate cap had dt : Nat) : Nat := min (8000000 * cap) (had + rate * dt)

/-- The colour the meter of entry `e` finds for a frame of `n` bytes at zone time `now`, 0 green, 1 yellow, 2 red, and the entry
after it: green takes from the committed bucket, yellow from the excess bucket, red from neither (R332, IEEE 802.1Q; PRESUMED:
no coupling, and the FCS counts). An entry without METER finds green. -/
def meterFrame (now : Nat) (e : StreamEnt) (n : Nat) : Nat × StreamEnt :=
  if !bit e.w5 0 then (0, e)
  else
    let cbs := bits e.w3 20 12
    let ebs := bits e.w4 20 12
    let m := e.meter.getD ⟨8000000 * cbs, 8000000 * ebs, now⟩
    let dt := ((now : Int) - m.at0).toNat
    let ct := bucketFill (bits e.w3 0 20) cbs m.ct dt
    let et := bucketFill (bits e.w4 0 20) ebs m.et dt
    let need := 125000 * n
    if need ≤ ct then (0, { e with meter := some ⟨ct - need, et, now⟩ })
    else if need ≤ et then (1, { e with meter := some ⟨ct, et - need, now⟩ })
    else (2, { e with meter := some ⟨ct, et, now⟩ })

/-- Filtering, policing and recovery of a frame that enters port `p` (R331, R332, R333). -/
def State.police (s : State) (p : Nat) (f : EFrame) : Policed × State :=
  match s.streamOf p f with
  | none => (⟨true, f, none⟩, s)
  | some (i, e) =>
    if bit e.w5 3 then s.streamDrop p i e f
    else if bits e.w2 16 16 ≠ 0 ∧ bits e.w2 16 16 < f.len then
      (if bit e.w5 2 then (s.raise 132).streamDrop p i { e with w5 := orBits e.w5 8 } f else s.streamDrop p i e f)
    else
      let m := meterFrame s.zone e (f.len + 4)
      let colour := m.1
      let e := m.2
      if colour == 2 || (colour == 1 && bit e.w5 1) then s.streamDrop p i e f
      else
      let f := if colour == 1 then { f with dei := true } else f
      match (if bit e.w5 5 && decide (p < 2) && s.frerOn then f.rtag else none) with
      | some n =>
        let r := recoverSeq (bits e.w5 8 5 + 1) e.recov n
        (⟨r.1, { f with rtag := none }, none⟩,
          s.setStream i { e with recov := r.2.2, elim := if r.2.1 then satInc e.elim 16 else e.elim })
      | none => (⟨true, f, if bit e.w5 4 && decide (8 ≤ p) && s.frerOn then some i else none⟩,
          if bit e.w5 0 then s.setStream i e else s)

/-- FRER_RECOVERY_RESET (R333). -/
def execFrerRecoveryReset (i : Fin 512) (s : State) : Out :=
  match s.eth.streams.find? (fun x => x.1 == i.val) with
  | some (_, e) =>
    if Block.eth.live s && bit e.w1 31 && bit e.w5 5 && e.recov.isSome then
      done ((s.setStream i { e with recov := none }).raise 131)
    else .next s
  | none => .next s

/-! ### Ingress (R317 to R319) -/

/-- A frame of the switch from the bytes behind its FCS check: addresses, C-tag, R-TAG where `frer`. -/
def parseFrame (d : List Byte) (frer : Bool) : EFrame :=
  let tag := beAt d 12 2 == 0x8100
  let rest := d.drop (if tag then 16 else 12)
  let tci := beAt d 14 2
  let r := frer && (beAt rest 0 2 == 0xF1C1)
  ⟨beAt d 0 6, beAt d 6 6, tag, if tag then tci % 4096 else 0, if tag then tci / 8192 else 0, tag && bit tci 12,
    if r then some (beAt rest 4 2) else none, if r then rest.drop 6 else rest, 0, 0, 0, false, none, false, false, [], 0, false, none⟩

/-- Classification at port `p` (R319): an untagged frame takes PVID and DEF_PCP, a priority-tagged one the PVID. -/
def State.ethClassify (s : State) (p : Nat) (f : EFrame) : EFrame :=
  if !f.tagged then { f with vid := s.get (PORT_CFG_PVID p), pcp := s.get (PORT_CFG_DEF_PCP p) }
  else if f.vid = 0 then { f with vid := s.get (PORT_CFG_PVID p) }
  else f

/-- ACCEPT of port `p` takes the frame's type; `vid` is the VID it arrived with. -/
def State.acceptsType (s : State) (p : Nat) (f : EFrame) : Bool :=
  match s.get (PORT_CFG_ACCEPT p) with
  | 1 => f.tagged && f.vid != 0
  | 2 => !f.tagged || f.vid == 0
  | _ => true

/-- A frame enters the switch at port `p`: classified, filtered, policed, learned and forwarded. Answers whether it was taken. -/
def State.ethIngress (s : State) (p : Nat) (f : EFrame) : Bool × State :=
  let g := s.ethClassify p f
  if beAt f.body 0 2 = 0x88A8 ∨ !s.acceptsType p f then (false, s.rxDrop p)
  else if !bit (s.vlanOf g.vid).member (portBit p) then (false, s.rxDrop p)
  else
    let q := s.police p g
    if !q.1.pass then (false, q.2)
    else
      let s := q.2.learn p q.1.frame
      let dest := s.destMap p q.1.frame
      match q.1.gen with
      | some i =>
        if bit dest 0 || bit dest 1 then
          let e := look s.eth.streams i ⟨0, 0, 0, 0, 0, 0, 0, 0, 0, none, none⟩
          (true, (s.setStream i { e with seq := (e.seq + 1) % 65536 }).forward q.1.frame (dest ||| 3) (some e.seq))
        else (true, s.forward q.1.frame dest none)
      | none => (true, s.forward q.1.frame dest none)

/-! ### MACsec (R334, R335) -/

/-- The cipher suite of port `p` is one of the XPN suites. -/
def State.xpn (s : State) (p : Nat) : Bool := bit (s.get (PORT_SEC_CFG_CIPHER p)) 1

/-- Receive slot i = 2c + s of port `p` for an SCI and AN: a receive SC with that SCI, a slot with a key of that AN. -/
def State.rxSlot (s : State) (p : Nat) (t : SecTag) : Option Nat :=
  (List.range 8).find? (fun i => bit (s.get (PORT_SEC_STAT_RXKEY p)) i
    && (s.get (PORT_SEC_RXSCI_LO p (i / 2)) + 2 ^ 32 * s.get (PORT_SEC_RXSCI_HI p (i / 2)) == t.sci)
    && ((look s.eth.sa (16 * p + 2 + i) ⟨[], 0, 0, []⟩).an == t.an))

/-- Validation of a received frame: `none` where it fails. The lowest acceptable PN follows the window. -/
def State.secValidate (s : State) (p : Nat) (t : SecTag) : Option State :=
  match s.rxSlot p t with
  | none => none
  | some i =>
    let low := s.get64 (PORT_SEC_RXPN_LO p i) (PORT_SEC_RXPN_HI p i)
    if !t.icvOk || (s.on (PORT_SEC_CFG_REPLAY p) && decide (t.pn < low)) then none
    else some (s.set64 (PORT_SEC_RXPN_LO p i) (PORT_SEC_RXPN_HI p i) (max low (t.pn + 1 - s.get (PORT_SEC_CFG_REPLAY_WIN p))))

/-- The active transmit SA of port `p` may send: it has a key and its PN is not exhausted. -/
def State.txKeyed (s : State) (p : Nat) : Bool :=
  let a := s.get (PORT_SEC_CFG_TX_SA p)
  bit (s.get (PORT_SEC_STAT_TXKEY p)) a && (s.get64 (PORT_SEC_TXPN_LO p a) (PORT_SEC_TXPN_HI p a) != 0)

/-- A frame has been sent under the active SA: its PN counts on; PN_THR and PN_EXH with event 130 (R335). An exhausted PN reads
0. -/
def State.txPn (s : State) (p : Nat) : State :=
  let a := s.get (PORT_SEC_CFG_TX_SA p)
  let pn := s.get64 (PORT_SEC_TXPN_LO p a) (PORT_SEC_TXPN_HI p a)
  let next := (pn + 1) % (if s.xpn p then 2 ^ 64 else 2 ^ 32)
  let thr := if s.xpn p then 2 ^ 62 else 0xC0000000
  let s := s.set64 (PORT_SEC_TXPN_LO p a) (PORT_SEC_TXPN_HI p a) next
  let s := if pn = thr then (s.set (PORT_SEC_STAT_PN_THR p) 1).raise 130 else s
  if next = 0 then (s.set (PORT_SEC_STAT_PN_EXH p) 1).raise 130 else s

/-- The IV of a protected frame: SCI and PN, or for an XPN suite SSCI and PN under the salt (PRESUMED, IEEE 802.1AE). -/
def State.secIv (s : State) (p pn : Nat) (k : SaKey) (sci : List Byte) : List Byte :=
  if s.xpn p then ((beBytes 4 k.ssci ++ beBytes 8 pn).zip (fitBytes 12 k.salt)).map (fun x => x.1 ^^^ x.2)
  else sci ++ beBytes 4 pn

/-- The SecTAG of a frame (PRESUMED, IEEE 802.1AE): with SCI, E and C as CONF says, AN, the short length, the low 32 bits of PN. -/
def secTag (conf : Bool) (an pn len : Nat) (sci : List Byte) : List Byte :=
  beBytes 2 0x88E5 ++ beBytes 1 (32 + (if conf then 12 else 0) + an % 4) ++ beBytes 1 (if len < 48 then len else 0) ++ beBytes 4 pn ++ sci

/-- A frame as port `p` protects it under its active transmit SA (R334, R335): addresses, SecTAG, the rest in clear or, with CONF,
encrypted from its first byte on, ICV. CIPHER gives the key's size. -/
def State.protect (s : State) (p pn : Nat) (raw : List Byte) : List Byte :=
  let k := look s.eth.sa (16 * p + s.get (PORT_SEC_CFG_TX_SA p)) ⟨[], 0, 0, []⟩
  let conf := s.on (PORT_SEC_CFG_CONF p)
  let sci := beBytes 8 (s.get (PORT_SEC_TXSCI_LO p) + 2 ^ 32 * s.get (PORT_SEC_TXSCI_HI p))
  let data := raw.drop 12
  let head := raw.take 12 ++ secTag conf k.an pn data.length sci
  let key := fitBytes (if bit (s.get (PORT_SEC_CFG_CIPHER p)) 0 then 32 else 16) k.key
  let c := if conf then Config.gcmEnc key (s.secIv p pn k sci) head data
    else Config.gcmEnc key (s.secIv p pn k sci) (head ++ data) []
  head ++ (if conf then fitBytes data.length c.1 else data) ++ fitBytes 16 c.2

/-! ### PTP (R340, R341) -/

/-- Where the PTP header of a frame's body begins, and where its UDP header begins if it has one. -/
def ptpAt (b : List Byte) : Option (Nat × Option Nat) :=
  let udp (o : Nat) : Option (Nat × Option Nat) :=
    if beAt b (o + 2) 2 = 319 ∧ o + 8 + 34 ≤ b.length then some (o + 8, some o) else none
  match beAt b 0 2 with
  | 0x88F7 => if 2 + 34 ≤ b.length then some (2, none) else none
  | 0x0800 => if beAt b 11 1 = 17 then udp (2 + 4 * (beAt b 2 1 % 16)) else none
  | 0x86DD => if beAt b 8 1 = 17 then udp 42 else none
  | _ => none

/-- A PTP event message in a body. -/
def ptpEvent (b : List Byte) : Option (Nat × Option Nat) :=
  match ptpAt b with
  | some (o, u) => if beAt b o 1 % 16 < 4 ∧ o + 44 ≤ b.length then some (o, u) else none
  | none => none

/-- One's-complement addition of 16-bit words. -/
def onesAdd (a b : Nat) : Nat := let t := a + b; t % 65536 + t / 65536

/-- The 16-bit words of `n` bytes at offset `o`. -/
def words16 (b : List Byte) (o n : Nat) : List Nat := (List.range (n / 2)).map (fun i => beAt b (o + 2 * i) 2)

/-- A UDP checksum after the bytes `p` have replaced those at `o`, by one's-complement increment. -/
def udpFix (old new : List Byte) (o n c : Nat) : Nat :=
  let sum := ((words16 old o n).map (65535 - ·)).foldl onesAdd ((words16 new o n).foldl onesAdd (65535 - c))
  if 65535 - sum = 0 then 65535 else 65535 - sum

/-- A body with `p` written at `o` and its UDP checksum brought up to date; a zero checksum stays zero. -/
def patchPtp (b : List Byte) (o : Nat) (p : List Byte) (u : Option Nat) : List Byte :=
  let new := patch b o p
  match u with
  | none => new
  | some k =>
    let c := beAt b (k + 6) 2
    if c = 0 then new else patch new (k + 6) (beBytes 2 (udpFix b new o p.length c))

/-- One-step insertion at zone time `t` (R340): `none` where no PTP header is found. -/
def oneStep (mode tIn t : Nat) (b : List Byte) : Option (List Byte) :=
  if mode = 0 then some b
  else match ptpEvent b with
    | none => none
    | some (o, u) =>
      if mode = 1 then some (patchPtp b (o + 34) (beBytes 6 (t / 1000000000) ++ beBytes 4 (t % 1000000000)) u)
      else some (patchPtp b (o + 8)
        (beBytes 8 (unsigned (signed (beAt b (o + 8) 8) 64 + ((t : Int) - tIn) * 65536) 64)) u)

/-- The time unit sees a frame of SLAVE_PORT (R341): a Sync, or the Follow_Up of the Sync that waits. -/
def State.seeSync (s : State) (p : Nat) (f : EFrame) : State :=
  let b := f.body
  if !s.timeLive || s.get TIME_CTL_SLAVE_PORT != p || decide (5 < p) || beAt b 0 2 != 0x88F7 || decide (b.length < 46)
      || beAt b 2 1 / 16 != 1 || beAt b 6 1 != 0 then s
  else
    let seqId := beAt b 32 2
    let corr := signed (beAt b 10 8) 64
    let origin := beAt b 36 6 * 1000000000 + beAt b 42 4
    match beAt b 2 1 % 16 with
    | 0 =>
      if bit (beAt b 8 1) 1 then s.setTime { s.time with sync := some ⟨seqId, f.ts, corr⟩ }
      else s.acceptOffset (s.syncOffset f.ts origin corr)
    | 8 =>
      match s.time.sync with
      | some w => if w.seqId = seqId then
            (s.setTime { s.time with sync := none }).acceptOffset (s.syncOffset w.tRx origin (w.corr + corr))
          else s
      | none => s
    | _ => s

/-! ### Reception -/

/-- Port `p` counts a frame it has received (Table 10.8). -/
def State.countRx (s : State) (p : Nat) : State :=
  s.set64 (PORT_RX_FRAMES_LO p) (PORT_RX_FRAMES_HI p) (min (s.get64 (PORT_RX_FRAMES_LO p) (PORT_RX_FRAMES_HI p) + 1) (2 ^ 64 - 1))

/-- Port `p` counts a frame it has sent. -/
def State.countTx (s : State) (p : Nat) : State :=
  s.set64 (PORT_TX_FRAMES_LO p) (PORT_TX_FRAMES_HI p) (min (s.get64 (PORT_TX_FRAMES_LO p) (PORT_TX_FRAMES_HI p) + 1) (2 ^ 64 - 1))

/-- A lantern on an Ethernet or 10BASE-T1S segment (R395). -/
def State.isLantern (s : State) (f : EFrame) : Bool :=
  f.dst == s.get NMW_LANT_DMAC_LO + 2 ^ 32 * s.get NMW_LANT_DMAC_HI && beAt f.body 0 2 == s.get NMW_LANT_ETYPE

/-- A segment that NMW manages. -/
def State.managed (s : State) (seg : Nat) : Bool := s.on NMW_CTL_EN && s.on (SEG_CTL_MANAGED seg) && Block.nmw.live s

/-- A lantern of port `p` goes to NMW and to no port; the frame passed MACsec validation or did not (R395, R396). -/
def State.lanternIn (s : State) (p : Nat) (f : EFrame) : State :=
  if !s.managed (portSeg p) then s
  else
    let b := f.body.drop 2
    let l : Lantern := ⟨portSeg p, beAt b 1 1 % 32, beAt b 2 1 % 16, bit (beAt b 3 1) 0, beAt b 0 1 == 1,
      !s.on (SEG_CTL_LANT_AUTH (portSeg p)) || f.secured⟩
    { s with nmw := { s.nmw with lanterns := s.nmw.lanterns ++ [l] } }

/-- ETH_FRAME_RECEIVE (R317 to R321, R331 to R335): the checks in the order size and FCS, MACsec, then forwarding. -/
def execEthFrameReceive (p : Fin 8) (data : List Byte) (fcsOk : Bool) (sec : Option SecTag) (s : State) : Out :=
  whenLive .eth s (fun s =>
    if !s.on (PORT_CFG_EN p) || !s.on (PORT_STAT_LINK p) then s
    else
      let frer := decide (p.val < 2) && s.frerOn
      let f := parseFrame data frer
      let n := data.length - (if f.rtag.isSome then 6 else 0)
      if !fcsOk || decide (n < 60) || decide (1518 < n) then s.rxDrop p
      else
        let secOn := s.on (PORT_SEC_CFG_EN p) && decide (p.val ≤ 5)
        let v := if !secOn then some s else match sec with
          | some t => s.secValidate p t
          | none => none
        match v with
        | none => s.count (PORT_SEC_BAD p)
        | some s =>
          let f := { f with ts := s.zone, epoch := s.epoch, port := p.val, secured := secOn }
          let s := (s.countRx p).seeSync p f
          if s.isLantern f then s.lanternIn p f
          else if s.on ETH_CTL_SW_EN then (s.ethIngress p f).2 else s)

/-- FDB_AGE_OUT (R318). -/
def execFdbAgeOut (i : Fin 4096) (s : State) : Out :=
  whenLive .eth s (fun s =>
    if s.get ETH_CTL_AGE = 0 ∨ (look s.eth.fdb i ⟨0, 0, true, 0⟩).static then s
    else s.setEth { s.eth with fdb := del s.eth.fdb i })

/-- The link of port `p` comes up or goes down: PORT_STAT, ETH_STAT, event 120 + p. -/
def State.portLink (s : State) (p : Nat) (up : Bool) (sqi : Nat) (plca : Bool) : State :=
  let s := s.setAll [(PORT_STAT_SQI p, if up ∧ p ≤ 5 then sqi else 0), (PORT_STAT_PLCA_ACT p, b2n (up && plca && decide (6 ≤ p)))]
  if s.on (PORT_STAT_LINK p) = up then s
  else ((s.set (PORT_STAT_LINK p) (b2n up)).set ETH_STAT (putBit (s.get ETH_STAT) p up)).raise (120 + p)

/-- PORT_LINK_CHANGE (R316): a link comes up only on an enabled port whose PHY is not held in reset (R48). -/
def execPortLinkChange (p : Fin 8) (up : Bool) (sqi : Fin 8) (plca : Bool) (s : State) : Out :=
  whenLive .eth s (fun s =>
    if up && (!s.on (PORT_CFG_EN p) || s.pwr.phyHold) then s else s.portLink p up sqi plca)

/-! ### Gates (R328 to R330) -/

/-- The entries of a schedule in list `bank` of port `p`, cut or stretched to its cycle. -/
def fitCycle : List (Nat × Nat) → Nat → List (Nat × Nat)
  | [], _ => []
  | [(g, _)], left => if left = 0 then [] else [(g, left)]
  | (g, d) :: t, left => if left ≤ d then (if left = 0 then [] else [(g, left)]) else (g, d) :: fitCycle t (left - d)

/-- One cycle of a schedule: gate states and durations. -/
def State.cycleOf (s : State) (p bank : Nat) (q : Qbv) : List (Nat × Nat) :=
  fitCycle ((List.range (q.len + 1)).map (fun e => look s.eth.gcl (512 * p + 256 * bank + e) (0, 0))) q.cycle

/-- What is left of a list of intervals after `t` ns. -/
def afterNs : List (Nat × Nat) → Nat → List (Nat × Nat)
  | [], _ => []
  | (g, d) :: l, t => if t < d then (g, d - t) :: l else afterNs l (t - d)

/-- The first `t` ns of a list of intervals. -/
def uptoNs : List (Nat × Nat) → Nat → List (Nat × Nat)
  | [], _ => []
  | (g, d) :: l, t => if t ≤ d then (if t = 0 then [] else [(g, t)]) else (g, d) :: uptoNs l (t - d)

/-- The intervals of port `p` from now on, for at least a cycle; `none` where no schedule runs and the gates follow DEF_GATES. A
last cycle that would end less than QBV_EXT before a pending change is extended to it (R329). -/
def State.gatePlan (s : State) (p : Nat) : Option (List (Nat × Nat)) :=
  let x := s.ePort p
  let bank := s.get (PORT_STAT_QBV_BANK p)
  match (if s.on (PORT_CFG_QBV_EN p) then x.oper else none) with
  | none => none
  | some o =>
    if s.zone < o.base ∨ o.cycle = 0 then none
    else
      let cyc := s.cycleOf p bank o
      let k := (s.zone - o.base) / o.cycle
      let start := o.base + k * o.cycle
      match x.pend with
      | none => some (afterNs cyc (s.zone - start) ++ cyc)
      | some n =>
        let left := n.start - s.zone
        let last := (cyc.getLastD (0, 0)).1
        let old := if k ≠ 0 ∧ start < n.start ∧ n.start - start < n.ext then [(last, left)]
          else uptoNs (afterNs cyc (s.zone - start) ++ cyc) left
        some (old ++ (let c := s.cycleOf p (1 - bank) n; c ++ c))

/-- The gates of port `p` now. -/
def State.gates (s : State) (p : Nat) : Nat :=
  match s.gatePlan p with
  | some ((g, _) :: _) => g
  | _ => s.get (PORT_QBV_CTL_DEF_GATES p)

/-- How long queue `q` of port `p` stays open from now; `none` where it does not close. -/
def State.openFor (s : State) (p q : Nat) : Option Nat :=
  match s.gatePlan p with
  | none => none
  | some l => if l.all (fun e => bit e.1 q) then none else some ((l.takeWhile (fun e => bit e.1 q)).map (·.2)).sum

/-- The longest run of open time of queue `q` in a list of intervals. -/
def longestOpen (q : Nat) : List (Nat × Nat) → Nat → Nat
  | [], run => run
  | (g, d) :: l, run => if bit g q then longestOpen q l (run + d) else max run (longestOpen q l 0)

/-- A frame of `n` ns can never be sent: it is longer than every open window of its queue in the operational list. -/
def State.neverFits (s : State) (p q n : Nat) : Bool :=
  match s.gatePlan p, (s.ePort p).oper with
  | some _, some o =>
    let cyc := s.cycleOf p (s.get (PORT_STAT_QBV_BANK p)) o
    !(cyc.all (fun e => bit e.1 q)) && decide (longestOpen q (cyc ++ cyc) 0 < n)
  | _, _ => false

/-- The time in ns, rounded up, that port `p` needs for a frame of `n` bytes without FCS: preamble, FCS, padding and, with MACsec
on, SecTAG and ICV counted. -/
def State.wireNs (s : State) (p n : Nat) : Nat :=
  let bytes := max 60 (n + if s.on (PORT_SEC_CFG_EN p) ∧ p ≤ 5 then 32 else 0) + 12
  if p < 2 then (bytes * 4 + 4) / 5 else if p < 6 then bytes * 8 else bytes * 800

/-- QBV_APPLY (R329): the schedule is pending, to take over at the first cycle start at or after its base time that lies in the
future. -/
def execQbvApply (a : Agent) (p : Fin 8) (v : Word) (s : State) : Out :=
  regCommand a (PORT_QBV_CTL_APPLY p).addr s (fun s =>
    let s := s.setAll [(PORT_QBV_CTL_DEF_GATES p, bits v.toNat 24 8), (PORT_QBV_CTL_LEN p, bits v.toNat 8 8)]
    if !bit v.toNat 0 then s
    else
      let base := s.get64 (PORT_QBV_BASE_LO p) (PORT_QBV_BASE_HI p)
      let cycle := s.get (PORT_QBV_CYCLE p)
      let start := if s.zone < base then base else if cycle = 0 then s.zone else firstAfter base cycle s.zone
      (s.setEPort p { s.ePort p with pend := some ⟨base, cycle, s.get (PORT_QBV_CTL_LEN p), s.get (PORT_QBV_EXT p), start⟩ }).set
        (PORT_STAT_QBV_PEND p) 1)

/-- Zone time is at least `t`: a command that says so makes it so. -/
def State.atZone (s : State) (t : Nat) : State := if s.zone < t then { s with zone := t, zoneFrac := 0 } else s

/-- QBV_SCHEDULE_CHANGE (R329): event 133. -/
def execQbvScheduleChange (p : Fin 8) (s : State) : Out :=
  whenLive .eth s (fun s =>
    match (s.ePort p).pend with
    | some n =>
      if !s.on (PORT_CFG_QBV_EN p) then s
      else
        let s := (s.atZone n.start).setEPort p { s.ePort p with oper := some n, pend := none }
        (s.setAll [(PORT_STAT_QBV_PEND p, 0), (PORT_STAT_QBV_BANK p, 1 - s.get (PORT_STAT_QBV_BANK p))]).raise 133
    | none => s)

/-- QBV_GATE_CHANGE: the interval ends, and the gates are those of the next one. -/
def execQbvGateChange (p : Fin 8) (s : State) : Out :=
  whenLive .eth s (fun s =>
    match s.gatePlan p with
    | some ((_, d) :: _) => s.atZone (s.zone + d)
    | _ => s)

/-! ### Egress -/

/-- A descriptor whose frame ends with a status. -/
def State.jobEnd (s : State) (f : EFrame) (status result : Nat) : State :=
  match f.job with
  | some j => s.finish j.ring j.idx status result 0
  | none => s

/-- A frame has an uncorrectable codeword. -/
def EFrame.bad (f : EFrame) : Bool := f.syns.any (fun p => classify p.2 == .uncorrectable)

/-- The codewords of a frame in queue memory are checked, each on its own, at port `unit` (R27). They have no physical address there:
the capture shows 0 (DESIGN CHOICE, see the log). -/
def State.frameReport (s : State) (unit : Nat) (f : EFrame) : State := f.syns.foldl (fun s p => s.codeReport 0 unit p.2) s

/-- Port `p` sends frame `f` (R326, R327, R334, R335, R340): the MAC checks its codewords. -/
def State.sendFrame (s : State) (p : Nat) (f : EFrame) : State :=
  let s := s.frameReport 5 f
  let mode := match f.job with
    | some j => j.onestep
    | none => 0
  let tIn := match f.job with
    | some j => j.tIn
    | none => 0
  if f.bad then
    ((s.count (PORT_TX_ABORT p)).ethError 3 p 0).jobEnd f 0x12 0
  else match oneStep mode tIn s.zone f.body with
    | none => (s.ethError 4 p 0).jobEnd f 0x11 0
    | some body =>
      let secOn := s.on (PORT_SEC_CFG_EN p) && decide (p ≤ 5)
      if secOn && !s.txKeyed p then (s.count (PORT_TX_DROP p)).jobEnd f 0x10 0
      else
        let f := { f with body := body, ts := s.zone, epoch := s.epoch }
        let tag := if f.direct then f.tagged else !bit (s.vlanOf f.vid).untag p
        let plain := f.bytes tag
        let a := s.get (PORT_SEC_CFG_TX_SA p)
        let raw := if secOn then s.protect p (s.get64 (PORT_SEC_TXPN_LO p a) (PORT_SEC_TXPN_HI p a)) plain else plain
        let s := if secOn then s.txPn p else s
        let s := s.countTx p
        s.setEPort p { s.ePort p with out := fitBytes (max 60 raw.length) raw, flight := if f.job.isSome then some f else none }

/-- One look at queue `q` of port `p` (R330): its first frame is dropped where it never fits; it is sent where it fits the open gate, and
counted once where it has to wait for that. The flag says that a frame has been started. -/
def State.serveQueue (p : Nat) (r : Bool × State) (q : Nat) : Bool × State :=
  let s := r.2
  if r.1 then r
  else match s.eQueue p q with
    | [] => r
    | f :: t =>
      let n := s.wireNs p f.len
      if s.neverFits p q n then (false, ((s.setEQueue p q t).count (PORT_TX_DROP p)).jobEnd f 0x10 0)
      else if !bit (s.gates p) q then r
      else if (match s.openFor p q with
        | some w => decide (w < n)
        | none => false) then
        (false, if f.waited then s else (s.setEQueue p q ({ f with waited := true } :: t)).count (PORT_QBV_WAIT p))
      else (true, (s.setEQueue p q t).sendFrame p f)

/-- ETH_FRAME_TRANSMIT (R320): the higher queue first. -/
def execEthFrameTransmit (p : Fin 8) (s : State) : Out :=
  whenLive .eth s (fun s =>
    if !s.on (PORT_CFG_EN p) || !s.on (PORT_STAT_LINK p) || (s.ePort p).flight.isSome || s.segDown (portSeg p) then s
    else ([7, 6, 5, 4, 3, 2, 1, 0].foldl (State.serveQueue p) (false, s)).2)

/-- ETH_FRAME_SENT (R326): the completion carries the timestamp of the frame and its epoch. -/
def execEthFrameSent (p : Fin 8) (s : State) : Out :=
  whenLive .eth s (fun s =>
    match (s.ePort p).flight with
    | some f => (s.setEPort p { s.ePort p with flight := none }).jobEnd f 0 (f.ts % 2 ^ 48 + f.epoch * 2 ^ 48)
    | none => s)

/-! ### Host ring pairs (R323 to R327) -/

/-- The port at which a ring pair's frames enter and leave. -/
def ethPortOf : Ring → Nat
  | .eth r => if r.val < 8 then 8 else 9
  | _ => 8

/-- The TX rings of the same port and function that are served before a ring pair (R323, R168). -/
def servedBefore : Ring → List Ring
  | .eth 0 => [.eth 1, .eth 2, .eth 3]
  | .eth 1 => [.eth 2, .eth 3]
  | .eth 2 => [.eth 3]
  | .eth 8 => [.eth 9]
  | .ethVf v 0 => [.ethVf v 1]
  | _ => []

/-- A ring pair of the Ethernet engine. -/
def isEth : Ring → Bool
  | .eth _ => true
  | .ethVf _ _ => true
  | _ => false

/-- A ring pair has a descriptor that its engine may execute now: one that is fetched and not executed, a ring that has not stopped,
and a VF in RUN, or one that freezes and had started it. -/
def State.ringReady (s : State) (r : Ring) : Option Item :=
  if !s.engineOn r || s.on (RING_STAT_STOPPED r.base) then none
  else match s.nextItem r with
    | none => none
    | some it => match r.fn with
      | some f => if s.vfState f == 1 || (s.vfState f == 2 && it.started) then some it else none
      | none => some it

/-- The codewords of a range that are not clean, by place, with their syndromes. -/
def State.badWords (s : State) (addr len : Nat) : List (Nat × Nat) :=
  ((wordsOf addr len).zipIdx.map (fun w => (w.2, s.synOf (s.viewWord (16 * w.1) / 16)))).filter (fun p => p.2 != 0)

/-- The bytes a SEND takes from its buffer (R327): from an aligned buffer the codewords pass on as they are, and queue memory reports
what it finds in them (R25); from another the engine checks them as their consumer. -/
def State.takeFrame (s : State) (r : Ring) (buf len : Nat) : BusRes × List (Nat × Nat) × State :=
  match s.ringPhys r buf len with
  | none => (.fault, [], s)
  | some p =>
    if p % 16 ≠ 0 then
      let x := s.busRead r.agent p len
      (x.1, [], x.2)
    else match s.memGate r.agent false p len with
      | some s' => (.err, [], s')
      | none =>
        let syns := s.badWords p len
        (.ok ((List.range len).map (fun i => s.correctedByte (s.viewWord ((p + i) / 16 * 16) + (p + i) % 16))), syns,
          syns.foldl (fun s x => s.codeReport (p + 16 * x.1) 5 x.2) (s.grantsAt r.agent p len))

/-- The frame of a SEND descriptor: its bytes, or with VTAG its bytes with the tag inserted. -/
def sendFrameOf (d raw : List Byte) : EFrame :=
  let f := parseFrame raw false
  if dbits d 36 1 = 0 then f
  else { f with
    tagged := true
    vid := dbits d 128 12
    pcp := dbits d 140 3
    dei := false
    body := raw.drop 12 }

/-- The switch takes a frame of a SEND (R322, R324): the status it completes with, or none where that comes when it has left. -/
def State.sendTake (s : State) (r : Ring) (it : Item) (f : EFrame) : Option Nat × State :=
  let d := it.desc
  let dport := dbits d 120 4
  let job : EthJob := ⟨r, it.idx, dbits d 33 1 == 1, dbits d 34 2, dbits d 192 64⟩
  let wants := job.tsreq || job.onestep != 0
  if dport ≤ 7 then
    let g := s.ethClassify (ethPortOf r) { f with direct := true, job := if wants then some job else none }
    let t := s.toPort dport { g with vid := f.vid }
    let held := decide ((s.eQueue dport g.pcp).length < (t.eQueue dport g.pcp).length)
    (if !wants then some 0 else if held then none else some 0x10, t)
  else match r with
    | .ethVf v _ =>
      if f.tagged || !s.vfHasMac v f.src then (some 0x10, s)
      else
        let vid := s.get (ETH_VF_CFG_VID v)
        let f := { f with vf := some v.val }
        let f := if vid = 0 then f else { f with tagged := true, vid := vid, pcp := s.get (PORT_CFG_DEF_PCP 8) }
        let x := s.ethIngress 8 f
        (some (if x.1 then 0 else 0x10), x.2)
    | _ =>
      let x := s.ethIngress (ethPortOf r) f
      (some (if x.1 then 0 else 0x10), x.2)

/-- The function of an Ethernet ring pair at P8: its VF, or 16 for the PF. -/
def p8Fn : Ring → Nat
  | .ethVf v _ => v.val
  | _ => 16

/-- The ring pairs of function `f` at P8, to the switch or (`rx`) to the host. -/
def p8Rings (rx : Bool) (f : Nat) : List Ring :=
  if f < 16 then (ringsOf f).filter (fun r => r.isRx == rx)
  else if rx then [.eth 4, .eth 5, .eth 6, .eth 7] else [.eth 0, .eth 1, .eth 2, .eth 3]

/-- A ring pair has a descriptor whose frame may move now; to the host a frame has to wait for it. -/
def State.ethReady (s : State) (r : Ring) : Bool :=
  (match s.ringReady r with
    | some it => !it.started
    | none => false) && (!r.isRx || s.hostQueue r != [])

/-- The functions with work at P8. -/
def State.p8Work (s : State) (rx : Bool) : List Nat := (List.range 17).filter (fun f => (p8Rings rx f).any s.ethReady)

/-- The VFs among the functions with work. -/
def p8Vfs (l : List Nat) : Nat := (l.filter (fun f => decide (f < 16))).length

/-- What P8 has carried for function `f`. -/
def State.p8Count (s : State) (rx : Bool) (f : Nat) : Nat := look s.eth.turns (f + 32 * b2n rx) 0

/-- Ring pair `r` is served now (R168): P9 has no VFs; at P8 no function with work has been carried less, and the PF has to wait while
all 16 VFs have work. -/
def State.p8Turn (s : State) (r : Ring) : Bool :=
  ethPortOf r == 9 ||
    (let l := s.p8Work r.isRx
     let vfs := p8Vfs l
     (p8Fn r != 16 || decide (vfs < 16))
       && l.all (fun g => (g == 16 && vfs == 16) || decide (s.p8Count r.isRx (p8Fn r) ≤ s.p8Count r.isRx g)))

/-- P8 carries `n` bytes for ring pair `r`: the PF's count 17 to 16 − VFs, which is what the equal parts leave it (R168); a function
without work keeps no claim. -/
def State.p8Carry (s : State) (r : Ring) (n : Nat) : State :=
  if ethPortOf r == 9 then s
  else
    let l := s.p8Work r.isRx
    let f := p8Fn r
    let had := s.p8Count r.isRx f
    s.setEth { s.eth with turns := (List.range 17).foldl (fun t g =>
      ins t (g + 32 * b2n r.isRx) (if g = f then had + (if f = 16 then n * 17 / (16 - p8Vfs l) else n)
        else if l.contains g then s.p8Count r.isRx g else max had (s.p8Count r.isRx g))) s.eth.turns }

/-- ETH_SEND (R324, R326, R168). -/
def execEthSend (r : Ring) (s : State) : Out :=
  match s.ringReady r with
  | none => .next s
  | some it =>
    if !isEth r || r.isRx || (servedBefore r).any (fun q => (s.ringReady q).isSome) || !s.on (PORT_CFG_EN (ethPortOf r)) || it.started
        || !s.p8Turn r then .next s
    else
      let s := (s.p8Carry r (dbits it.desc 104 14)).startItem r it.idx
      let buf := dbits it.desc 64 40
      let len := dbits it.desc 104 14
      let x := s.takeFrame r buf len
      match x.1 with
      | .ok raw =>
        let f := { sendFrameOf it.desc raw with ts := s.zone, epoch := s.epoch, port := (ethPortOf r), fromRing := true }
        let f := { f with syns := x.2.1, srcLen := len }
        let y := (x.2.2.countRx (ethPortOf r)).sendTake r it f
        done (match y.1 with
          | some st => y.2.finish r it.idx st 0 0
          | none => y.2)
      | e => done (x.2.2.dataFail r it.idx e buf 0 0)

/-- The receive prefix of Table 10.3; `n` is the length of the frame as delivered. -/
def prefixOf (f : EFrame) (n : Nat) : List Byte :=
  leBytes 8 f.ts ++ leBytes 2 f.epoch ++ leBytes 2 n
    ++ leBytes 4 (f.port + 16 * (if f.tagged then f.vid else 0) + 2 ^ 16 * f.pcp + 2 ^ 19 * b2n f.secured)

/-- The frame as ring pair `r` gets it: a VF with a VID of its own sees no tag (R321), the others as the VLAN says. -/
def State.deliverBytes (s : State) (r : Ring) (f : EFrame) : List Byte :=
  let tag := match r with
    | .ethVf v _ => s.get (ETH_VF_CFG_VID v) == 0 && !bit (s.vlanOf f.vid).untag 9
    | r => !bit (s.vlanOf f.vid).untag (portBit (ethPortOf r))
  f.bytes tag

/-- A delivered frame whose codewords stand where they stood at its source passes them on as they are: one that was corrected on the way
keeps its error and its syndrome (R24, R327). The frame follows the 16 bytes at `buf`. -/
def State.passFrame (s : State) (r : Ring) (f : EFrame) (n buf : Nat) : State :=
  match s.ringPhys r buf (16 + n) with
  | some p => if n = f.srcLen then f.syns.foldl (fun s x => match classify x.2 with
      | .corrected b => s.flipStored (p / 16 + 1 + x.1) b
      | _ => s) s else s
  | none => s

/-- ETH_RECV (R325 to R327, R168): the receive path checks the frame's codewords; a frame with an uncorrectable one is dropped here and
captured. While ISL_APP is gated, frames for P8 wait (R351). -/
def execEthRecv (r : Ring) (s : State) : Out :=
  match s.ringReady r, s.hostQueue r with
  | some it, f :: t =>
    if !isEth r || !r.isRx || it.started || ((ethPortOf r) == 8 && s.get PWR_STATE_CUR == 2) || !s.p8Turn r then .next s
    else
      let s := (((s.p8Carry r f.len).setHostQueue r t)).frameReport 5 f
      if f.bad then done (s.ethError 1 (ethPortOf r) 0)
      else
        let s := s.startItem r it.idx
        let raw := s.deliverBytes r f
        let buf := dbits it.desc 64 40
        let w := s.ringWrite r buf (prefixOf f raw.length ++ raw)
        if w.1.cause = 0 then done (((w.2.countTx (ethPortOf r)).passFrame r f raw.length buf).finish r it.idx 0 raw.length 0)
        else done (w.2.dataFail r it.idx w.1 buf buf (16 + raw.length))
  | _, _ => .next s

/-- The switch discards the frames queued for Ethernet VF `v` at a freeze and counts them (R182). -/
def State.ethFlushVf (s : State) (v : Nat) : State :=
  let mine (k : Nat) : Bool := decide (0x41000000 ≤ k) && decide (k < 0x41010000) && ((k - 0x41000000) / 4096 == v)
  let n := ((s.eth.host.filter (fun p => mine p.1)).map (fun p => p.2.length)).sum
  (List.range n).foldl (fun s _ => s.vfQdrop v) (s.setEth { s.eth with host := s.eth.host.filter (fun p => !mine p.1) })

/-! ### Table commands (R354) -/

/-- What a table command reports. -/
def State.ethTblEnd (s : State) (index result : Nat) : State :=
  s.setAll [(ETH_TBL_STAT_INDEX, index), (ETH_TBL_STAT_RESULT, result)]

/-- The eight words of TBL_DATA are written. -/
def State.ethTblData (s : State) (l : List Nat) : State :=
  (List.range 8).foldl (fun s i => s.set (ETH_TBL_DATA i) (l.getD i 0)) s

/-- The words of an FDB entry (Table 10.9). -/
def FdbEnt.words (e : FdbEnt) : List Nat :=
  [e.mac % 2 ^ 32, e.mac / 2 ^ 32 + e.vid * 2 ^ 16 + b2n e.static * 2 ^ 29 + 2 ^ 31, e.dest]

/-- The words of a stream entry (Table 10.9). -/
def StreamEnt.words (e : StreamEnt) : List Nat := [e.w0, e.w1, e.w2, e.w3, e.w4, e.w5, e.drop + 2 ^ 16 * e.elim]

/-- The GCL key of an index: entry in [7:0], port in [11:8], list in [12], 1 for the operational one; `none` outside P0 to P7. -/
def State.gclKey (s : State) (i : Nat) : Option Nat :=
  let p := bits i 8 4
  if 7 < p then none
  else
    let oper := s.get (PORT_STAT_QBV_BANK p)
    some (512 * p + 256 * (if bit i 12 then oper else 1 - oper) + i % 256)

/-- ETH_TBL_READ. -/
def execEthTblRead (a : Agent) (table : Fin 16) (index : Fin 65536) (s : State) : Out :=
  regCommand a ETH_TBL_CMD_OP.addr s (fun s =>
    let i := index.val
    match table.val with
    | 1 => if 4096 ≤ i then s.ethTblEnd i 1 else match s.eth.fdb.find? (fun p => p.1 == i) with
      | some (_, e) => (s.ethTblData e.words).ethTblEnd i 0
      | none => (s.ethTblData []).ethTblEnd i 0
    | 2 => if i = 0 ∨ 4095 ≤ i then s.ethTblEnd i 1 else match s.eth.vlan.find? (fun p => p.1 == i) with
      | some (_, e) => (s.ethTblData [e.member + 2 ^ 16 * e.untag + 2 ^ 31]).ethTblEnd i 0
      | none => (s.ethTblData []).ethTblEnd i 0
    | 3 => match s.gclKey i with
      | some k => let e := look s.eth.gcl k (0, 0); (s.ethTblData [e.1, e.2]).ethTblEnd i 0
      | none => s.ethTblEnd i 1
    | 4 => if 512 ≤ i then s.ethTblEnd i 1 else match s.eth.streams.find? (fun p => p.1 == i) with
      | some (_, e) => (s.ethTblData e.words).ethTblEnd i 0
      | none => (s.ethTblData []).ethTblEnd i 0
    | _ => s.ethTblEnd i 1)

/-- An FDB write places the entry by its key; with VALID 0 it deletes it. -/
def State.fdbWrite (s : State) : State :=
  let w1 := s.get (ETH_TBL_DATA 1)
  let e : FdbEnt := ⟨s.get (ETH_TBL_DATA 0) + 2 ^ 32 * bits w1 0 16, bits w1 16 12, bit w1 29, bits (s.get (ETH_TBL_DATA 2)) 0 26⟩
  match s.fdbFind e.mac e.vid with
  | some (i, _) => if bit w1 31 then (s.fdbPut i e).ethTblEnd i 0
      else (s.setEth { s.eth with fdb := del s.eth.fdb i }).ethTblEnd i 0
  | none => if !bit w1 31 then s.ethTblEnd 0 3
      else match s.fdbPlace e with
        | some i => (s.fdbPut i e).ethTblEnd i 0
        | none => s.ethTblEnd 0 4

/-- A stream write (R333, R354): at most 128 entries have GEN or REC; DROP, ELIM, recovery, sequence and meter state
start anew. -/
def State.streamWrite (s : State) (i : Nat) : State :=
  let w (k : Nat) : Nat := s.get (ETH_TBL_DATA k)
  let frer (x : Nat) : Bool := bits x 4 2 != 0
  let others := (s.eth.streams.filter (fun p => p.1 != i && frer p.2.w5)).length
  if frer (w 5) && decide (128 ≤ others) then s.ethTblEnd i 2
  else (s.setStream i ⟨w 0, clearBits (w 1) 0x60000000, clearBits (w 2) 0xFC00, w 3, w 4, clearBits (w 5) 0xFF00E0C0, 0, 0, 0,
    none, none⟩).ethTblEnd i 0

/-- A GCL write: to the administrative list only, not while a change is pending (R329), with an interval of at least 20 ns. -/
def State.gclWrite (s : State) (i : Nat) : State :=
  match s.gclKey i with
  | none => s.ethTblEnd i 1
  | some k =>
    let d := bits (s.get (ETH_TBL_DATA 1)) 0 30
    if bit i 12 || s.on (PORT_STAT_QBV_PEND (bits i 8 4)) || decide (d < 20) then s.ethTblEnd i 2
    else (s.setEth { s.eth with gcl := ins s.eth.gcl k (bits (s.get (ETH_TBL_DATA 0)) 0 8, d) }).ethTblEnd i 0

/-- ETH_TBL_WRITE. -/
def execEthTblWrite (a : Agent) (table : Fin 16) (index : Fin 65536) (s : State) : Out :=
  regCommand a ETH_TBL_CMD_OP.addr s (fun s =>
    let i := index.val
    match table.val with
    | 1 => s.fdbWrite
    | 2 =>
      let w := s.get (ETH_TBL_DATA 0)
      if i = 0 ∨ 4095 ≤ i then s.ethTblEnd i 1
      else (s.setEth { s.eth with
        vlan := if bit w 31 then ins s.eth.vlan i ⟨bits w 0 10, bits w 16 10⟩ else del s.eth.vlan i }).ethTblEnd i 0
    | 3 => s.gclWrite i
    | 4 => if 512 ≤ i then s.ethTblEnd i 1 else s.streamWrite i
    | _ => s.ethTblEnd i 1)

/-- ETH_FDB_SEARCH: by the key in TBL_DATA. -/
def execEthFdbSearch (a : Agent) (s : State) : Out :=
  regCommand a ETH_TBL_CMD_OP.addr s (fun s =>
    let w1 := s.get (ETH_TBL_DATA 1)
    match s.fdbFind (s.get (ETH_TBL_DATA 0) + 2 ^ 32 * bits w1 0 16) (bits w1 16 12) with
    | some (i, e) => (s.ethTblData e.words).ethTblEnd i 0
    | none => s.ethTblEnd 0 3)

/-- ETH_ERR_CTL.REARM (R353). -/
def execEthRearm (a : Agent) (s : State) : Out :=
  regCommand a ETH_ERR_CTL.addr s (fun s => s.set ETH_ERR_INFO_VALID 0)

/-- PORT_CNT_CTL.CLR_CNT (R353). -/
def execEthPortClrCnt (a : Agent) (p : Fin 10) (s : State) : Out :=
  regCommand a (PORT_CNT_CTL p).addr s (fun s => s.setAll [(PORT_RX_FRAMES_LO p, 0), (PORT_RX_FRAMES_HI p, 0),
    (PORT_TX_FRAMES_LO p, 0), (PORT_TX_FRAMES_HI p, 0), (PORT_RX_DROP p, 0), (PORT_TX_DROP p, 0), (PORT_SEC_BAD p, 0),
    (PORT_TX_ABORT p, 0), (PORT_QBV_WAIT p, 0)])

end Sys2Proof.Machine
end

