-- ==== Sys2Proof/Machine/Fifo.lean ====
section
/-! DEFINITION. The credit FIFOs (R213 to R223). -/

namespace Sys2Proof.Machine

/-- A FIFO as it is at enable. -/
def fifoInit : FifoSt := ⟨0, 0, [], []⟩

/-- FIFO `n` beside its registers. -/
def State.fifo (s : State) (n : Nat) : FifoSt := look s.fifos n fifoInit

/-- FIFO `n` is given a state. -/
def State.setFifo (s : State) (n : Nat) (x : FifoSt) : State := { s with fifos := ins s.fifos n x }

/-- The region that FIFO_CFG names keeps the rules of R213: a size of 2^4 to 2^14 codewords, an offset that is a multiple of it, a
place inside the pool, and no overlap with an enabled FIFO. -/
def State.fifoRegionOk (s : State) (n : Nat) : Bool :=
  let size := s.fifoSize n
  let off := s.get (FIFO_CFG_OFFSET n)
  decide (4 ≤ s.get (FIFO_CFG_SIZE_LOG2 n)) && decide (s.get (FIFO_CFG_SIZE_LOG2 n) ≤ 14)
    && off % size == 0 && decide (off + size ≤ 0x4000)
    && (List.range 16).all (fun m => m == n || !s.on (FIFO_CFG_EN m)
      || decide (off + size ≤ s.get (FIFO_CFG_OFFSET m)) || decide (s.get (FIFO_CFG_OFFSET m) + s.fifoSize m ≤ off))

/-- The fields of FIFO_CFG beside EN. -/
def State.fifoCfg (s : State) (n v : Nat) : State :=
  s.setAll [(FIFO_CFG_PWORLD n, bits v 29 1), (FIFO_CFG_CWORLD n, bits v 28 1), (FIFO_CFG_SIZE_LOG2 n, bits v 16 4),
    (FIFO_CFG_OFFSET n, bits v 0 14)]

/-- FIFO `n` stands still: pushes, contents and uncommitted words are gone, CREDIT and USED read 0 (Table 6.10). -/
def State.fifoOff (s : State) (n : Nat) : State :=
  (s.setFifo n fifoInit).setAll [(FIFO_CFG_EN n, 0), (FIFO_COUNT_CREDIT n, 0), (FIFO_COUNT_USED n, 0)]

/-- FIFO_CFG written with EN 1 (R213): the fields take the values written, then the region is checked; at the enable CREDIT is set
to the region size (R216). With EN already 1 a region that keeps the rules changes the fields and nothing else, and one that
breaks them leaves EN at 0 (DESIGN CHOICE, see the log). -/
def execFifoEnable (a : Agent) (n : Fin 16) (v : Word) (s : State) : Out :=
  regCommand a (FIFO_CFG_EN n).addr s (fun s =>
    if !bit v.toNat 31 then s
    else
      let s := (s.istYield 4 n).fifoCfg n v.toNat
      if !s.fifoRegionOk n then (if s.on (FIFO_CFG_EN n) then s.fifoOff n else s).fifoError n 6
      else if s.on (FIFO_CFG_EN n) then s
      else
        ((s.setFifo n fifoInit).set (FIFO_CFG_EN n) 1).setAll [(FIFO_COUNT_CREDIT n, s.fifoSize n), (FIFO_COUNT_USED n, 0)])

/-- FIFO_CFG written with EN 0 (Table 6.10): pushes, contents and uncommitted words are gone, CREDIT and USED read 0. -/
def execFifoDisable (a : Agent) (n : Fin 16) (v : Word) (s : State) : Out :=
  regCommand a (FIFO_CFG_EN n).addr s (fun s =>
    if bit v.toNat 31 then s
    else (s.fifoCfg n v.toNat).fifoOff n)

/-- A push reaches the FIFO (R216): it reserves its credits, or is dropped whole where they are too few. -/
def State.fifoReach (s : State) (n : Nat) (p : Push) : State :=
  let credit := s.get (FIFO_COUNT_CREDIT n)
  if !p.bad && decide (credit < p.words) then s.fifoError n 1
  else if s.on (FIFO_CFG_EN n) then
    (s.set (FIFO_COUNT_CREDIT n) (if p.bad then credit else credit - p.words)).setFifo n
      { s.fifo n with pushes := (s.fifo n).pushes ++ [p] }
  else s

/-- The pushes that wait at the target reach the FIFO, oldest first, while it has a queue place (R215); one that is dropped for want
of credit takes none. -/
def State.fifoAdmit (s : State) (n : Nat) : List Push → State
  | [] => s.setFifo n { s.fifo n with waiting := [] }
  | q :: w =>
    if 4 ≤ (s.fifo n).pushes.length then s.setFifo n { s.fifo n with waiting := q :: w }
    else (s.fifoReach n q).fifoAdmit n w

/-- FIFO_PUSH_HI written (R215, R220): from another world than PWORLD it is ignored and captured; with four pushes queued it waits
at the target. -/
def execFifoPush (a : Agent) (n : Fin 16) (v : Word) (s : State) : Out :=
  regCommand a (FIFO_PUSH_HI_WORDS n).addr s (fun s =>
    if isNormal a s == s.on (FIFO_CFG_PWORLD n) then s.fifoError n 5
    else
      let s := s.istYield 4 n
      let p : Push := ⟨16 * s.get (FIFO_PUSH_LO n) + 2 ^ 32 * bits v.toNat 0 8, bits v.toNat 8 8, bit v.toNat 31, bit v.toNat 30⟩
      if 4 ≤ (s.fifo n).pushes.length then s.setFifo n { s.fifo n with waiting := (s.fifo n).waiting ++ [p] }
      else s.fifoReach n p)

/-- The uncommitted words of the packet are taken back and their credits returned (R217). -/
def State.fifoRewind (s : State) (n extra : Nat) : State :=
  let x := s.fifo n
  let size := s.fifoSize n
  (s.set (FIFO_COUNT_CREDIT n) (s.get (FIFO_COUNT_CREDIT n) + x.open0 + extra)).setFifo n
    { x with pos := (x.pos + size - x.open0 % size) % size, open0 := 0 }

/-- A push is copied as an intermediary copies (R215, R217): committed, or rewound with cause 0x2 or 0x3; a group view whose ACTIVE
lanes all hold an uncorrectable codeword answers an error response (R87). -/
def State.fifoCopy (s : State) (n : Nat) (p : Push) : State :=
  let a : Agent := .fifo (Fin.ofNat 16 n)
  if p.bad then s.fifoRewind n 0
  else
    let refused := if p.words = 0 then none
      else if inT1to6 p.src (16 * p.words) then s.memGate a false p.src (16 * p.words) else some s
    match refused with
    | some s' => (s'.fifoRewind n p.words).fifoError n 3
    | none =>
      if s.viewBad p.src (16 * p.words) then
        ((s.checkView p.src (16 * p.words) (portOf a)).fifoRewind n p.words).fifoError n
          (if (tcmGroup ((targetOf p.src).getD 15)).isSome then 3 else 2)
      else
        let x := s.fifo n
        let size := s.fifoSize n
        let s := (List.range p.words).foldl (fun s i =>
          s.passWord a (p.src + 16 * i) (s.fifoBase n + 16 * ((x.pos + i) % size))) s
        let all := x.open0 + p.words
        let x := { x with pos := (x.pos + p.words) % size, open0 := if p.commit then 0 else all }
        (if p.commit then s.set (FIFO_COUNT_USED n) (s.get (FIFO_COUNT_USED n) + all) else s).setFifo n x

/-- FIFO_PUSH_COMPLETE: the oldest push ends, and those that wait take the place that frees. -/
def execFifoPushComplete (n : Fin 16) (s : State) : Out :=
  whenLive .fifo s (fun s =>
    match (s.fifo n).pushes with
    | [] => s
    | p :: t =>
      let s := (s.setFifo n { s.fifo n with pushes := t }).fifoCopy n p
      s.fifoAdmit n (s.fifo n).waiting)

/-- FIFO_POP written (R218, R220). -/
def execFifoPop (a : Agent) (n : Fin 16) (v : Word) (s : State) : Out :=
  regCommand a (FIFO_POP n).addr s (fun s =>
    let w := bits v.toNat 0 16
    if isNormal a s == s.on (FIFO_CFG_CWORLD n) then s.fifoError n 5
    else if s.get (FIFO_COUNT_USED n) < w then s.fifoError n 4
    else s.setAll [(FIFO_COUNT_USED n, s.get (FIFO_COUNT_USED n) - w), (FIFO_COUNT_CREDIT n, s.get (FIFO_COUNT_CREDIT n) + w)])

/-- FIFO_ERR_CTL.REARM (R223). -/
def execFifoRearm (a : Agent) (s : State) : Out :=
  regCommand a FIFO_ERR_CTL_REARM.addr s (fun s => s.set FIFO_ERR_INFO_VALID 0)

/-- FIFO_ERR_CTL.CLR_CNT (R223). -/
def execFifoClrCnt (a : Agent) (s : State) : Out :=
  regCommand a FIFO_ERR_CTL_CLR_CNT.addr s (fun s => s.set FIFO_ERR_CNT 0)

end Sys2Proof.Machine
end

