-- ==== Sys2Proof/Machine/Can.lean ====
section
/-! DEFINITION. The CAN channels and the gateway: stamps, message and gateway slots, arbitration, errors and bus-off, routing,
authentication, backbone encapsulation, rings and FIFO sources (R356 to R391). -/

namespace Sys2Proof.Machine

/-- The channels and the gateway are given a state. -/
def State.setCan (s : State) (c : CanSt) : State := { s with can := c }

/-- A channel with nothing in its slots. -/
def canInit : CanCh := ⟨[], none, [], false⟩

/-- Channel `c` beside its registers. -/
def State.canCh (s : State) (c : Nat) : CanCh := look s.can.chans c canInit

/-- Channel `c` is given a state; CAN_SLOT shows which message slots are occupied. -/
def State.setCanCh (s : State) (c : Nat) (x : CanCh) : State :=
  let occ := (x.slots.map (fun p => 2 ^ p.1)).sum
  (s.setCan { s.can with chans := ins s.can.chans c x }).set64 (CAN_SLOT_LO c) (CAN_SLOT_HI c) occ

/-- The gateway works. -/
def State.gwOn (s : State) : Bool := Block.cgw.live s && s.on CGW_CTL_EN

/-- A channel is on its bus: enabled, error-active or error-passive, its transceiver in normal mode (R359). -/
def State.canOnBus (s : State) (c : Nat) : Bool :=
  (Block.can c).live s && s.on (CAN_CTL_EN c) && decide (s.get (CAN_STAT_STATE c) < 2) && (s.get (SEG_STAT_STATE c) != 3)

/-! ### Stamps (R350, R364 to R366) -/

/-- The zone time and epoch of a stamp (R366). -/
def State.stampTime (s : State) (c stamp : Nat) : Nat × Nat :=
  let since (k : Nat) : Nat := (stamp + 2 ^ 32 - s.get (CAN_TSY_CNT c k)) % 2 ^ 32
  let k := if since 0 < 2 ^ 31 then 0 else 1
  let t := s.get64 (CAN_TSY_TLO c k) (CAN_TSY_THI c k)
  let run := (s.get (CAN_TSY_CNT c 0) + 2 ^ 32 - s.get (CAN_TSY_CNT c 1)) % 2 ^ 32
  let e := s.get (CAN_TSY_INFO_EPOCH c k)
  if s.on (CAN_TSY_INFO_STEP c 0) || s.on (CAN_TSY_INFO_STEP c 1) then (t + since k * 25, e)
  else if run = 0 then (Config.stampTime stamp t % 2 ^ 64, e)
  else (t + since k * 1000000 / run, e)

/-- CAN_TIME_STROBE (R350): at the next whole millisecond, each channel captures. -/
def execCanTimeStrobe (counts : List Nat) (s : State) : Out :=
  if !s.timeLive then .next s
  else
    let s := { s with zone := (s.zone / 1000000 + 1) * 1000000 % 2 ^ 64, zoneFrac := 0 }
    done ((List.range 12).foldl (fun s c =>
      if (Block.can c).live s then s.canCapture c (counts.getD c 0) false else s) s)

/-! ### Priority and slots (R367 to R369) -/

/-- The arbitration order of ISO 11898-1 (R367), the lower value first: base identifier, then data base, remote base, extended. -/
def canKey (f : CanFrame) : Nat :=
  if f.ide then f.id / 2 ^ 18 * 2 ^ 21 + 3 * 2 ^ 19 + f.id % 2 ^ 18 * 2 + b2n f.rtr
  else f.id * 2 ^ 21 + b2n f.rtr * 2 ^ 20

/-- The first of the highest-priority frames of a list. -/
def bestFrame {α : Type} (key : α → Nat) : List α → Option α
  | [] => none
  | x :: t => match bestFrame key t with
    | none => some x
    | some y => if key y < key x then some y else some x

/-- The last of the lowest-priority frames of a list. -/
def worstFrame {α : Type} (key : α → Nat) : List α → Option α
  | [] => none
  | x :: t => match worstFrame key t with
    | none => some x
    | some y => if key y < key x then some x else some y

/-- A frame takes a gateway slot. -/
def State.gwTake (s : State) (f : GwFrame) : State := s.setCan { s.can with wait := s.can.wait ++ [f] }

/-- The frame completes with a status (R373). -/
def State.gwEnd (s : State) (f : GwFrame) (status result : Nat) : State :=
  match f.job with
  | some (r, idx) => s.finish r idx status result 0
  | none => s

/-- GW_SLOT_LOAD (R368): a free message slot takes the highest-priority waiting frame; without one, a frame that outranks the
lowest-ranked loaded one takes its slot, unless that one has started arbitration. Not in listen-only or restricted mode, nor in
bus-off (R357, R375). -/
def execGwSlotLoad (c : Fin 12) (s : State) : Out :=
  let x := s.canCh c
  let mode := s.get (CAN_CTL_MODE c)
  if !s.gwOn || !(Block.can c).live s || !s.on (CAN_CTL_EN c) || mode == 1 || mode == 2 || s.get (CAN_STAT_STATE c) == 2 then .next s
  else match bestFrame (fun f => canKey f.frame) (s.can.wait.filter (fun f => f.ch == c.val)) with
    | none => .next s
    | some f =>
      let wait := s.can.wait.erase f
      match (List.range 64).find? (fun n => !(x.slots.any (fun p => p.1 == n))) with
      | some n => done ((s.setCan { s.can with wait := wait }).setCanCh c { x with slots := x.slots ++ [(n, f)] })
      | none =>
        match worstFrame (fun p => canKey p.2.frame) x.slots with
        | some p =>
          if canKey f.frame < canKey p.2.frame ∧ x.attempt ≠ some p.1 then
            done ((s.setCan { s.can with wait := p.2 :: wait }).setCanCh c
              { x with slots := x.slots.filter (fun q => q.1 != p.1) ++ [(p.1, f)] })
          else .next s
        | none => .next s

/-! ### Error states (R374) -/

/-- The error state of channel `c` changes, with event 144 + 4c. -/
def State.canState (s : State) (c v : Nat) : State :=
  if s.get (CAN_STAT_STATE c) = v then s else (s.set (CAN_STAT_STATE c) v).raise (144 + 4 * c)

/-- The receive error counter of channel `c`. -/
def State.canRec (s : State) (c : Nat) : Nat := s.get (CAN_STAT_REC c) + 128 * s.get (CAN_STAT_RP c)

/-- The receive error counter becomes `v`, at most 255. -/
def State.setCanRec (s : State) (c v : Nat) : State :=
  s.setAll [(CAN_STAT_REC c, min v 255), (CAN_STAT_RP c, min v 255 / 128)]

/-- The error state that the counters of a channel on the bus give. -/
def State.canCounted (s : State) (c : Nat) : State :=
  s.canState c (if 127 < s.get (CAN_STAT_TEC c) ∨ 127 < s.canRec c then 1 else 0)

/-- A protocol error is captured (R389): the first after REARM, with event 146 + 4c. -/
def State.canCaptureErr (s : State) (c kind : Nat) (dataPhase tx : Bool) : State :=
  if s.on (CAN_ERR_CAP_VALID c) then s
  else (s.setAll [(CAN_ERR_CAP_VALID c, 1), (CAN_ERR_CAP_TYPE c, kind), (CAN_ERR_CAP_PHASE c, b2n dataPhase),
    (CAN_ERR_CAP_TX c, b2n tx)]).raise (146 + 4 * c)

/-- CAN_RX_ERROR (R374): REC counts 1 or 8. -/
def execCanRxError (c : Fin 12) (kind : Fin 6) (dataPhase eight : Bool) (s : State) : Out :=
  if !s.canOnBus c then .next s
  else
    let s := (s.setCanRec c (s.canRec c + (if eight then 8 else 1))).count (CAN_ERR_CNT c)
    done ((s.canCaptureErr c kind dataPhase false).canCounted c)

/-- CAN_DOMINANT_TIMEOUT (R358). -/
def execCanDominantTimeout (c : Fin 12) (s : State) : Out :=
  if !((Block.can c).live s && s.on (CAN_CTL_EN c)) then .next s else done (s.canCaptureErr c 6 false true)

/-- CAN_BUS_INTEGRATION (R389): a channel that was in bus-off at a reset is in bus-off again (R387). -/
def execCanBusIntegration (c : Fin 12) (s : State) : Out :=
  if !((Block.can c).live s && s.on (CAN_CTL_EN c) && s.get (CAN_STAT_STATE c) == 3 && s.get (SEG_STAT_STATE c) != 3) then .next s
  else if (s.canCh c).wasOff then
    done (((s.setCanCh c { s.canCh c with wasOff := false }).set (CAN_STAT_TEC c) 255).canState c 2)
  else done (s.canCounted c)

/-! ### Attempts (R370, R373) -/

/-- The frame of the attempt in progress. -/
def State.attemptOf (s : State) (c : Nat) : Option (Nat × GwFrame) :=
  match (s.canCh c).attempt with
  | some n => (s.canCh c).slots.find? (fun p => p.1 == n)
  | none => none

/-- The attempt ends; the frame stays, or (`gone`) leaves its message slot. -/
def State.attemptEnd (s : State) (c n : Nat) (gone : Bool) : State :=
  let x := s.canCh c
  s.setCanCh c { x with attempt := none, slots := if gone then x.slots.filter (fun p => p.1 != n) else x.slots }

/-- An attempt ends without success (R370, R371): CANCELLED where a CANCEL is marked, ONESHOT_FAIL where one attempt was all; else
the frame competes again. -/
def State.attemptLost (s : State) (c : Nat) (p : Nat × GwFrame) : State :=
  if p.2.cancel then (s.attemptEnd c p.1 true).gwEnd p.2 0x10 0
  else if p.2.oneshot then (s.attemptEnd c p.1 true).gwEnd p.2 0x12 0
  else s.attemptEnd c p.1 false

/-- CAN_ARBITRATION_START (R370): the work of the frame's descriptor has started (R178). -/
def execCanArbitrationStart (c : Fin 12) (stamp : Fin 4294967296) (s : State) : Out :=
  let x := s.canCh c
  let mode := s.get (CAN_CTL_MODE c)
  if !s.canOnBus c || x.attempt.isSome || mode == 1 || mode == 2 then .next s
  else match bestFrame (fun p => canKey p.2.frame) x.slots with
    | none => .next s
    | some p =>
      let s := s.setCanCh c { x with
        attempt := some p.1
        slots := x.slots.map (fun q => if q.1 = p.1 then (q.1, { q.2 with stamp := stamp.val }) else q) }
      let s := s.set (CAN_TS c) stamp
      done (match p.2.job with
        | some (r, idx) => s.startItem r idx
        | none => s)

/-- CAN_ARBITRATION_LOST. -/
def execCanArbitrationLost (c : Fin 12) (s : State) : Out :=
  if !s.canOnBus c then .next s
  else match s.attemptOf c with
    | none => .next s
    | some p => done ((s.attemptLost c p).count (CAN_ARB_CNT c))

/-- CAN_TX_ERROR (R374, R363): TEC counts 8; above 255 the channel is in bus-off and its message slots keep their frames. -/
def execCanTxError (c : Fin 12) (kind : Fin 6) (dataPhase exempt tdcFail : Bool) (s : State) : Out :=
  if !s.canOnBus c then .next s
  else match s.attemptOf c with
    | none => .next s
    | some p =>
      let s := ((s.attemptLost c p).count (CAN_ERR_CNT c)).canCaptureErr c kind dataPhase true
      let s := if tdcFail && s.on (CAN_CTL_TDC_EN c) && !s.on (CAN_STAT_TDC_FAIL c) then
          (s.set (CAN_STAT_TDC_FAIL c) 1).raise (146 + 4 * c) else s
      let tec := s.get (CAN_STAT_TEC c) + (if exempt then 0 else 8)
      if 255 < tec then done ((s.set (CAN_STAT_TEC c) 255).canState c 2)
      else done ((s.set (CAN_STAT_TEC c) tec).canCounted c)

/-- CAN_TX_COMPLETE (R373, R371): OK, or SENT_DESPITE_CANCEL, with the zone time of the SOF. -/
def execCanTxComplete (c : Fin 12) (tdcv : Fin 128) (s : State) : Out :=
  if !s.canOnBus c then .next s
  else match s.attemptOf c with
    | none => .next s
    | some p =>
      let t := s.stampTime c p.2.stamp
      let s := ((s.attemptEnd c p.1 true).count (CAN_TX_CNT c)).set (CAN_STAT_TEC c) (s.get (CAN_STAT_TEC c) - 1)
      let s := if p.2.frame.fdf && s.on (CAN_CTL_TDC_EN c) then s.set (CAN_TDC_TDCV c) tdcv else s
      done ((s.canCounted c).gwEnd p.2 (if p.2.cancel then 0x11 else 0) (t.1 % 2 ^ 48 + t.2 * 2 ^ 48))

/-! ### Enabling and recovery (R361, R374, R375, R387) -/

/-- The bit time of the nominal and of the data phase, in protocol clocks. -/
def State.bitNom (s : State) (c : Nat) : Nat :=
  (s.get (CAN_NBT_BRP c) + 1) * (1 + (s.get (CAN_NBT_TSEG1 c) + 1) + (s.get (CAN_NBT_TSEG2 c) + 1))

/-- The bit time of the data phase, in protocol clocks. -/
def State.bitData (s : State) (c : Nat) : Nat :=
  (s.get (CAN_DBT_BRP c) + 1) * (1 + (s.get (CAN_DBT_TSEG1 c) + 1) + (s.get (CAN_DBT_TSEG2 c) + 1))

/-- The timing of channel `c` is refused (R361). -/
def State.timingRefused (s : State) (c : Nat) : Bool :=
  decide (s.get (CAN_NBT_TSEG2 c) < s.get (CAN_NBT_SJW c)) || decide (s.get (CAN_DBT_TSEG2 c) < s.get (CAN_DBT_SJW c))
    || decide (s.bitNom c < 80) || decide (s.bitData c < 10) || decide (s.bitNom c < s.bitData c)
    || (s.on (CAN_CTL_TRIPLE c) && (decide (s.bitNom c < 320) || decide (s.get (CAN_NBT_TSEG1 c) + 1 < 3)))
    || (s.on (CAN_CTL_TDC_EN c) && decide (2 < s.get (CAN_DBT_BRP c) + 1))

/-- The fields of CAN_CTL beside EN and RECOVER, which a write takes while EN is 0. -/
def State.canCtl (s : State) (c v : Nat) : State :=
  s.setAll [(CAN_CTL_TDC_EN c, bits v 9 1), (CAN_CTL_TRIPLE c, bits v 8 1), (CAN_CTL_MODE c, bits v 4 2), (CAN_CTL_FD_EN c, bits v 1 1)]

/-- CAN_CTL written with EN 1 (R361). The error counters start at 0. -/
def execCanEnable (a : Agent) (c : Fin 12) (v : Word) (s : State) : Out :=
  regCommand a (CAN_CTL_EN c).addr s (fun s =>
    if !bit v.toNat 0 || s.on (CAN_CTL_EN c) then s
    else
      let s := s.canCtl c v.toNat
      if s.timingRefused c then s.set (CAN_STAT_CFG_ERR c) 1
      else (s.set (CAN_CTL_EN c) 1).setAll [(CAN_STAT_TEC c, 0), (CAN_STAT_REC c, 0), (CAN_STAT_RP c, 0)])

/-- The frames of channel `c` end with CH_OFF, routed ones without a trace (R387). -/
def State.canFlush (s : State) (c : Nat) : State :=
  let x := s.canCh c
  let gone := x.slots.map (·.2) ++ s.can.wait.filter (fun f => f.ch == c)
  let s := (s.setCan { s.can with wait := s.can.wait.filter (fun f => f.ch != c) }).setCanCh c { x with slots := [], attempt := none }
  gone.foldl (fun s f => s.gwEnd f 0x16 0) s

/-- The channel is off: its frames end, its state is disabled; bus-off is kept for the next enable (R387). -/
def State.canOff (s : State) (c : Nat) : State :=
  let off := s.get (CAN_STAT_STATE c) == 2 || (s.canCh c).wasOff
  let s := s.canFlush c
  ((s.setCanCh c { s.canCh c with wasOff := off }).set (CAN_STAT_RECOVERING c) 0).canState c 3

/-- CAN_CTL written with EN 0. -/
def execCanDisable (a : Agent) (c : Fin 12) (v : Word) (s : State) : Out :=
  regCommand a (CAN_CTL_EN c).addr s (fun s =>
    if bit v.toNat 0 then s
    else if s.on (CAN_CTL_EN c) then (s.set (CAN_CTL_EN c) 0).canOff c
    else s.canCtl c v.toNat)

/-- CAN_CTL.RECOVER (R374, R375). -/
def execCanRecover (a : Agent) (c : Fin 12) (s : State) : Out :=
  regCommand a (CAN_CTL_RECOVER c).addr s (fun s =>
    if s.get (CAN_STAT_STATE c) = 2 then s.set (CAN_STAT_RECOVERING c) 1 else s)

/-- CAN_RECOVERY_COMPLETE (R374). -/
def execCanRecoveryComplete (c : Fin 12) (s : State) : Out :=
  if !((Block.can c).live s && s.on (CAN_STAT_RECOVERING c)) then .next s
  else done ((s.setAll [(CAN_STAT_RECOVERING c, 0), (CAN_STAT_TEC c, 0), (CAN_STAT_REC c, 0), (CAN_STAT_RP c, 0)]).canState c 0)

/-- CAN_CMD.REARM (R389). -/
def execCanRearm (a : Agent) (c : Fin 12) (s : State) : Out :=
  regCommand a (CAN_CMD_REARM c).addr s (fun s => s.set (CAN_ERR_CAP_VALID c) 0)

/-- CAN_CMD.CLR_CNT (R389). -/
def execCanClrCnt (a : Agent) (c : Fin 12) (s : State) : Out :=
  regCommand a (CAN_CMD_CLR_CNT c).addr s (fun s => s.setAll [(CAN_TX_CNT c, 0), (CAN_RX_CNT c, 0), (CAN_ERR_CNT c, 0),
    (CAN_ARB_CNT c, 0), (CAN_LOST_CNT c, 0)])

/-! ### Authentication (R383 to R385) -/

/-- Word `i` of a table entry. -/
def wordOf (e : List Nat) (i : Nat) : Nat := e.getD i 0

/-- Entry `i` of the authentication table. -/
def State.authEnt (s : State) (i : Nat) : List Nat := look s.can.auth i []

/-- Word `k` of authentication entry `i` becomes `v`. -/
def State.setAuthWord (s : State) (i k v : Nat) : State :=
  let e := (s.authEnt i) ++ List.replicate (6 - (s.authEnt i).length) 0
  s.setCan { s.can with auth := ins s.can.auth i (e.set k (v % 2 ^ 32)) }

/-- The key an entry uses, if it is loaded. -/
def State.authKey (s : State) (i : Nat) : Option (List Byte) :=
  let k := bits (wordOf (s.authEnt i) 0) 0 4
  if bit (s.get CGW_STAT_KEYS) k then (s.keys.cgw.find? (fun p => p.1 == k)).map (·.2) else none

/-- MACLEN, FLEN and DLEN of an entry. -/
def authLens (e : List Nat) : Nat × Nat × Nat := (bits (wordOf e 0) 4 4, bits (wordOf e 0) 8 1, bits (wordOf e 0) 16 7)

/-- The lengths of an entry keep R383. -/
def authOk (e : List Nat) : Bool :=
  let l := authLens e
  decide (3 ≤ l.1) && decide (l.1 ≤ 8) && decide (l.2.2 ≤ 61) && decide (l.1 + l.2.1 + l.2.2 ≤ 64)

/-- The MAC of a frame under a key (R383). -/
def canMac (key : List Byte) (f : CanFrame) (auth : List Byte) (fresh n : Nat) : List Byte :=
  (fitBytes 16 (Config.cmac key (beBytes 4 (b2n f.ide * 2 ^ 31 + f.id) ++ auth ++ beBytes 8 fresh))).take n

/-- The smallest length of a CAN FD frame that holds `n` bytes. -/
def fdLen (n : Nat) : Nat := if n ≤ 8 then n else ([12, 16, 20, 24, 32, 48, 64].find? (fun l => decide (n ≤ l))).getD 64

/-- Why a frame cannot be signed. -/
inductive SignRes where
  | ok (f : CanFrame)
  | noKey
  | noFit
deriving DecidableEq, Repr

/-- A frame is signed under entry `i` (R384): the transmit counter counts on, and its data become the secured data. -/
def State.signFrame (s : State) (i : Nat) (f : CanFrame) : SignRes × State :=
  let e := s.authEnt i
  let l := authLens e
  if !authOk e || !f.fdf || decide (f.data.length < l.2.2) then (.noFit, s)
  else match s.authKey i with
    | none => (.noKey, s)
    | some key =>
      let n := (wordOf e 1 + 2 ^ 32 * wordOf e 2 + 1) % 2 ^ 64
      let data := f.data.take l.2.2
      let sec := data ++ (if l.2.1 = 1 then [BitVec.ofNat 8 n] else []) ++ canMac key f data n l.1
      (.ok { f with data := fitBytes (fdLen sec.length) sec }, (s.setAuthWord i 1 n).setAuthWord i 2 (n / 2 ^ 32))

/-- A frame is verified under entry `i` (R385): whether it passes, its authentic data, and the counter it leaves. -/
def State.verifyFrame (s : State) (i : Nat) (f : CanFrame) : Bool × List Byte × State :=
  let e := s.authEnt i
  let l := authLens e
  let last := wordOf e 3 + 2 ^ 32 * wordOf e 4
  let data := f.data.take l.2.2
  let got := (f.data.drop l.2.2).headD 0
  let cand := if l.2.1 = 1 then
      (let v := last / 256 * 256 + got.toNat
       if v ≤ last then v + 256 else v)
    else last + 1
  let fail := (s.count CGW_AUTH_FAIL).setAuthWord i 5 (satInc (wordOf e 5) 16)
  match s.authKey i with
  | none => (false, data, fail.raise 194)
  | some key =>
    if authOk e && decide (l.2.2 + l.2.1 + l.1 ≤ f.data.length)
        && ((f.data.drop (l.2.2 + l.2.1)).take l.1 == canMac key f data cand l.1)
        && decide (cand - last ≤ max 1 (bits (wordOf e 0) 24 8)) then
      (true, data, (s.setAuthWord i 3 cand).setAuthWord i 4 (cand / 2 ^ 32))
    else (false, data, fail.raise 194)

/-! ### Lanterns on CAN segments (R394, R396) -/

/-- Two identifiers agree under a mask. -/
def idMatch (id mask key : Nat) : Bool := (id &&& mask) == (key &&& mask)

/-- A frame with the lantern identifier of its segment goes to NMW as well as to the routing table. With LANT_AUTH it is verified
under entry (AIDX + SRC) mod 256. -/
def State.canLantern (s : State) (c : Nat) (f : CanFrame) : State :=
  if !s.managed c || f.ide != s.on (SEG_LANT_ID_IDE c)
      || !idMatch f.id (s.get (SEG_LANT_MASK c)) (s.get (SEG_LANT_ID_ID c)) then s
  else
    let put (s : State) (l : Lantern) : State := { s with nmw := { s.nmw with lanterns := s.nmw.lanterns ++ [l] } }
    if f.data.length < 2 then put s ⟨c, 0, 0, false, false, false⟩
    else
      let src := beAt f.data 0 1 % 32
      let v := if s.on (SEG_CTL_LANT_AUTH c) then s.verifyFrame ((s.get (SEG_CTL_AIDX c) + src) % 256) f else (true, [], s)
      put v.2.2 ⟨c, src, beAt f.data 1 1 % 16, bit (beAt f.data 1 1) 7, true, v.1⟩

/-! ### Encapsulation (R381) -/

/-- Words 0 to 4 and the sequence state of stream entry `k`. -/
def State.streamEnt (s : State) (k : Nat) : List Nat := look s.can.streams k []

/-- The SEQ of stream entry `k` becomes `v`, and the entry counts as in use. -/
def State.setStreamSeq (s : State) (k v : Nat) : State :=
  s.setCan { s.can with streams := ins s.can.streams k ((s.streamEnt k).take 5 ++ [1, v % 256]) }

/-- The ACF CAN message of a frame, and the AVTP PDU around it. -/
def ntscf (sid seq bus ts : Nat) (f : CanFrame) : List Byte :=
  let pad := (4 - f.data.length % 4) % 4
  let q := 4 + (f.data.length + pad) / 4
  let n := 4 * q
  beBytes 1 0x82 ++ beBytes 2 (0x8000 + n) ++ beBytes 1 seq ++ beBytes 8 sid
    ++ beBytes 2 (0x0200 + q)
    ++ beBytes 1 (pad * 64 + 32 + b2n f.rtr * 16 + b2n f.ide * 8 + b2n f.brs * 4 + b2n f.fdf * 2 + b2n f.esi)
    ++ beBytes 1 bus ++ beBytes 8 ts ++ beBytes 4 f.id ++ f.data ++ List.replicate pad 0

/-- A frame leaves in transmit stream `k`, at `ts`: it enters the switch at P9. -/
def State.sendStream (s : State) (k ts : Nat) (f : CanFrame) : State :=
  let e := s.streamEnt k
  if !(s.on CGW_CTL_P9_EN && bit (wordOf e 3) 31 && !bit (wordOf e 4) 0 && Block.eth.live s && s.on ETH_CTL_SW_EN
      && s.on (PORT_CFG_EN 9)) then s
  else
    let seq := wordOf e 6
    let vid := bits (wordOf e 3) 16 12
    let body := beBytes 2 0x22F0 ++ ntscf (wordOf e 0 + 2 ^ 32 * wordOf e 1) seq (bits (wordOf e 4) 8 5) ts f
    let g : EFrame := ⟨wordOf e 2 + 2 ^ 32 * bits (wordOf e 3) 0 16, s.get CGW_MAC_LO + 2 ^ 32 * s.get CGW_MAC_HI, vid != 0, vid,
      if vid = 0 then 0 else bits (wordOf e 3) 28 3, false, none, body, s.zone, s.epoch, 9, false, none, false, false, [], 0,
      false, none⟩
    (((s.setStreamSeq k (seq + 1)).countRx 9).ethIngress 9 g).2

/-! ### Routing (R376 to R378) -/

/-- A drop is counted, with event 195. -/
def State.gwDrop (s : State) (cnt : Fld) : State := (s.count cnt).raise 195

/-- A routed frame for channel `d` (R369, R375, R377, R402). -/
def State.routeCan (s : State) (d : Nat) (f : CanFrame) : State :=
  if !s.on (CAN_CTL_EN d) then s.gwDrop CGW_ISO_DROP
  else if bit (s.get CGW_STAT_ISO) d then (s.gwDrop CGW_ISO_DROP).routedInto d
  else if s.get (CAN_STAT_STATE d) == 2 || !s.gwRoom .routed then s.gwDrop CGW_ROUTE_DROP
  else s.gwTake ⟨f, d, .routed, none, false, false, 0⟩

/-- A frame for an RX ring pair: lost where no RECV descriptor waits (R378). -/
def State.routeRing (s : State) (r : Ring) (x : RxFrame) : State :=
  let q := look s.can.rx r.base []
  if q.length < ((s.ring r).items.filter (·.fin.isNone)).length then
    s.setCan { s.can with rx := ins s.can.rx r.base (q ++ [x]) }
  else
    let s := s.gwDrop CGW_RX_LOST
    match r.fn with
    | some f => s.vfQdrop f
    | none => s

/-- The CAN copy in the format that XFMT asks for: none where the frame has too many bytes for it. A remote frame has no FD
format. -/
def xfmt (mode : Nat) (f : CanFrame) : Option CanFrame :=
  if mode = 1 then (if 8 < f.data.length then none else some { f with fdf := false, brs := false })
  else if mode = 0 ∨ f.rtr then some f
  else some { f with fdf := true, brs := mode == 3 }

/-- The CAN copy of a frame for channel `d` under a routing entry: format, then signature. -/
def State.routeCopy (s : State) (e : List Nat) (d : Nat) (f : CanFrame) : State :=
  match xfmt (bits (wordOf e 3) 28 2) f with
  | none => (s.gwDrop CGW_ROUTE_DROP).cgwError 3 0xF 0
  | some g =>
    if bits (wordOf e 4) 16 2 = 3 then
      let r := s.signFrame (bits (wordOf e 4) 8 8) g
      match r.1 with
      | .ok h => r.2.routeCan d h
      | .noKey => r.2.gwDrop CGW_ROUTE_DROP
      | .noFit => (r.2.gwDrop CGW_ROUTE_DROP).cgwError 4 0xF 0
    else s.routeCan d g

/-- The host ring of HOST. -/
def hostRing (h : Nat) : Option Ring :=
  match h with
  | 1 => some (.cgw 2)
  | 2 => some (.cgw 3)
  | 3 => some (.cgw 6)
  | 4 => some (.cgw 7)
  | _ => none

/-- A routing entry sends its copies (R377). -/
def State.routeOut (s : State) (e : List Nat) (x : RxFrame) : State :=
  let f := if bit (wordOf e 5) 29 then { x.frame with id := bits (wordOf e 5) 0 29 } else x.frame
  let s := (List.range 12).foldl (fun s d => if bit (wordOf e 3) d && d != x.source then s.routeCopy e d f else s) s
  let s := if bit (wordOf e 3) 22 then s.sendStream (bits (wordOf e 3) 16 6) x.ts f else s
  let s := match hostRing (bits (wordOf e 3) 24 3) with
    | some r => s.routeRing r x
    | none => s
  (List.range 8).foldl (fun s v => if bit (wordOf e 4) v then s.routeRing (.canVf (Fin.ofNat 8 v) 1) x else s) s

/-- A valid entry applies to a frame from channel `source`, or (0xF) from receive stream `k`. -/
def routeHits (e : List Nat) (source k : Nat) (f : CanFrame) : Bool :=
  bit (wordOf e 0) 31 && (if source < 12 then bit (wordOf e 2) source else bit (wordOf e 2) 19 && (bits (wordOf e 2) 13 6 == k))
    && (f.ide == bit (wordOf e 0) 29) && idMatch f.id (bits (wordOf e 1) 0 29) (bits (wordOf e 0) 0 29)

/-- The default action for a frame (R376); a frame from Ethernet has no channel and is dropped. -/
def State.routeDefault (s : State) (x : RxFrame) : State :=
  if 12 ≤ x.source then s
  else match bits (s.get CGW_DEFAULT) (2 * x.source) 2 with
    | 1 => s.routeRing (.cgw 2) x
    | 2 => s.routeRing (.cgw 6) x
    | _ => s

/-- A received frame is looked up and goes where its entry says; an entry with AUTH_MODE 1 or 2 verifies it first (R385). -/
def State.route (s : State) (k : Nat) (x : RxFrame) : State :=
  match (if s.on CGW_CTL_ROUTE_EN then s.can.routes.find? (fun p => routeHits p.2 x.source k x.frame) else none) with
  | none => s.routeDefault { x with entry := 0xFFFF }
  | some (i, e) =>
    let e' := (e ++ List.replicate (7 - e.length) 0).set 6 (satInc (wordOf e 6) 32)
    let s := s.setCan { s.can with routes := ins s.can.routes i e' }
    let x := { x with entry := i }
    let mode := bits (wordOf e 4) 16 2
    if mode = 1 ∨ mode = 2 then
      let v := s.verifyFrame (bits (wordOf e 4) 8 8) x.frame
      if v.1 then v.2.2.routeOut e { x with
        authOk := true
        frame := if mode = 2 then { x.frame with data := v.2.1 } else x.frame }
      else v.2.2
    else s.routeOut e x

/-- The gateway takes a frame of channel `c` with stamp `stamp`. -/
def State.gwReceive (s : State) (c : Nat) (f : CanFrame) (stamp : Nat) : State :=
  let t := s.stampTime c stamp
  (s.canLantern c f).route 0 ⟨f, false, t.1, t.2, c, 0xFFFF⟩

/-- CAN_FRAME_RECEIVE (R376, R356, R374): REC counts down; the gateway takes the frames at its input in order. While it does not
work, four frames wait and further ones are lost (event 147 + 4c). -/
def execCanFrameReceive (c : Fin 12) (f : CanFrame) (stamp : Fin 4294967296) (s : State) : Out :=
  if !s.canOnBus c || s.get (CAN_CTL_MODE c) == 3 || (f.fdf && !s.on (CAN_CTL_FD_EN c)) then .next s
  else
    let s := (s.count (CAN_RX_CNT c)).set (CAN_TS c) stamp
    let rec' := s.canRec c
    let d := s.draw 8
    let s := if 127 < rec' then d.2.setCanRec c (119 + d.1 % 9) else s.setCanRec c (rec' - 1)
    let s := s.canCounted c
    let x := s.canCh c
    if s.gwOn then
      let s := s.setCanCh c { x with input := [] }
      done ((x.input ++ [(f, stamp.val)]).foldl (fun s p => s.gwReceive c p.1 p.2) s)
    else if x.input.length < 4 then done (s.setCanCh c { x with input := x.input ++ [(f, stamp.val)] })
    else done ((s.count (CAN_LOST_CNT c)).raise (147 + 4 * c))

/-! ### Rings (R369 to R373, R378, R380) -/

/-- The source of a gateway TX ring (Table 11.3). -/
def ringSrc : Ring → GwSrc
  | .cgw r => if r.val < 4 then .pf else .lanes
  | .canVf v _ => .vf v
  | _ => .routed

/-- A ring pair of the gateway. -/
def isCgw : Ring → Bool
  | .cgw _ => true
  | .canVf _ _ => true
  | _ => false

/-- The oldest descriptor of a gateway TX ring that the gateway has not taken: one taken stands in a gateway or message slot. -/
def State.gwNext (s : State) (r : Ring) : Option Item :=
  if !s.engineOn r || s.on (RING_STAT_STOPPED r.base) || !(match r.fn with
    | some f => s.vfState f == 1
    | none => true) then none
  else (s.ring r).items.find? (fun it => it.fin.isNone
    && !((s.can.wait ++ s.loadedFrames).any (fun f => f.job == some (r, it.idx))))

/-- The frame of a SEND descriptor or of a FIFO record, with its data. -/
def sendCanFrame (d data : List Byte) : CanFrame :=
  ⟨dbits d 64 29, dbits d 93 1 == 1, dbits d 94 1 == 1, dbits d 95 1 == 1, false, dbits d 96 1 == 1,
    if dbits d 96 1 = 1 then [] else data⟩

/-- A VF may send a frame (R380). -/
def State.vfMaySend (s : State) (v ch : Nat) (f : CanFrame) : Bool :=
  let e := look s.can.perms v []
  bit (wordOf e 0) ch && (f.ide == bit (wordOf e 1) 29) && idMatch f.id (bits (wordOf e 2) 0 29) (bits (wordOf e 1) 0 29)

/-- What becomes of a frame that a source sends on channel `ch`: a status, or none where it waits in a gateway slot. -/
def State.gwAccept (s : State) (d : List Byte) (src : GwSrc) (job : Option (Ring × Nat)) (f : CanFrame) : Option Nat × State :=
  let ch := dbits d 112 4
  let allowed := match src with
    | .vf v => s.vfMaySend v ch f
    | _ => true
  if 11 < ch ∨ !allowed then (some 0x13, s)
  else if !s.on (CAN_CTL_EN ch) then (some 0x16, s)
  else
    let r := if dbits d 97 1 = 1 then
        (if f.data.length = (authLens (s.authEnt (dbits d 116 8))).2.2 then s.signFrame (dbits d 116 8) f else (.noFit, s))
      else (.ok f, s)
    match r.1 with
    | .ok g => (none, r.2.gwTake ⟨g, ch, src, job, dbits d 33 1 == 1, false, 0⟩)
    | .noKey => (some 0x14, r.2)
    | .noFit => (some 2, r.2)

/-- CGW_SEND (R372, R380, R384): a higher-numbered TX ring is served before a lower one (R390). -/
def execCgwSend (r : Ring) (s : State) : Out :=
  match s.gwNext r with
  | none => .next s
  | some it =>
    let above := match r with
      | .cgw 0 => (s.gwNext (.cgw 1)).isSome
      | .cgw 4 => (s.gwNext (.cgw 5)).isSome
      | _ => false
    if !isCgw r || r.isRx || above || dOp it.desc != 1 || !s.gwRoom (ringSrc r) then .next s
    else
      let len := dbits it.desc 104 7
      let buf := dbits it.desc 128 40
      let x := if len ≤ 8 then (.ok ((it.desc.drop 24).take len), s) else s.ringRead r buf len
      match x.1 with
      | .ok data =>
        let y := x.2.gwAccept it.desc (ringSrc r) (some (r, it.idx)) (sendCanFrame it.desc data)
        done (match y.1 with
          | none => y.2
          | some 2 => (y.2.cgwError 4 (match r with
              | .cgw n => n.val
              | _ => 0xF) 0).finish r it.idx 2 0 5
          | some st => y.2.finish r it.idx st 0 0)
      | e => done (x.2.dataFail r it.idx e buf 0 0)

/-- CGW_CANCEL (R371). -/
def execCgwCancel (r : Ring) (s : State) : Out :=
  match s.gwNext r with
  | none => .next s
  | some it =>
    if !isCgw r || r.isRx || dOp it.desc != 2 then .next s
    else
      let job := some (r, dbits it.desc 64 16)
      match s.can.wait.find? (fun f => f.job == job) with
      | some f => done (((s.setCan { s.can with wait := s.can.wait.erase f }).gwEnd f 0x10 0).finish r it.idx 0 0 0)
      | none =>
        match s.can.chans.find? (fun p => p.2.slots.any (fun q => q.2.job == job)) with
        | none => done (s.finish r it.idx 0x15 0 0)
        | some (c, x) =>
          match x.slots.find? (fun q => q.2.job == job) with
          | none => done (s.finish r it.idx 0x15 0 0)
          | some q =>
            if x.attempt = some q.1 then
              done ((s.setCanCh c { x with slots := x.slots.map (fun p =>
                if p.1 = q.1 then (p.1, { p.2 with cancel := true }) else p) }).finish r it.idx 0 0 0)
            else done (((s.setCanCh c { x with slots := x.slots.filter (fun p => p.1 != q.1) }).gwEnd q.2 0x10 0).finish
              r it.idx 0 0 0)

/-- The receive prefix of Table 11.8. -/
def canPrefix (x : RxFrame) : List Byte :=
  let f := x.frame
  leBytes 8 x.ts ++ leBytes 2 x.epoch
    ++ leBytes 6 (f.id + 2 ^ 29 * b2n f.ide + 2 ^ 30 * b2n f.fdf + 2 ^ 31 * b2n f.brs + 2 ^ 32 * b2n f.esi + 2 ^ 33 * b2n f.rtr
      + 2 ^ 34 * b2n x.authOk + 2 ^ 35 * f.data.length + 2 ^ 42 * x.source)

/-- CGW_RECV (R378). -/
def execCgwRecv (r : Ring) (s : State) : Out :=
  match s.ringReady r, look s.can.rx r.base [] with
  | some it, x :: t =>
    if !isCgw r || !r.isRx then .next s
    else
      let s := (s.setCan { s.can with rx := ins s.can.rx r.base t }).startItem r it.idx
      let buf := dbits it.desc 64 40
      let w := s.ringWrite r buf (canPrefix x ++ x.frame.data)
      if w.1.cause = 0 then done (w.2.finish r it.idx 0 x.entry 0)
      else done (w.2.dataFail r it.idx w.1 buf buf (16 + x.frame.data.length))
  | _, _ => .next s

/-! ### FIFO sources (R379) -/

/-- The address of the `i`-th unread codeword of FIFO `n`. -/
def State.fifoWordAt (s : State) (n i : Nat) : Nat :=
  let x := s.fifo n
  let size := s.fifoSize n
  let start := (x.pos + 2 * size - x.open0 % size - s.get (FIFO_COUNT_USED n) % size) % size
  s.fifoBase n + 16 * ((start + i) % size)

/-- The gateway reads `k` codewords of a FIFO from the `i`-th unread one on. -/
def State.fifoRead (s : State) (n i : Nat) : Nat → BusRes × State
  | 0 => (.ok [], s)
  | k + 1 =>
    let x := s.busRead .cgwSec (s.fifoWordAt n i) 16
    match x.1 with
    | .ok d =>
      let y := x.2.fifoRead n (i + 1) k
      (match y.1 with
        | .ok t => .ok (d ++ t)
        | e => e, y.2)
    | e => (e, x.2)

/-- `k` codewords of a FIFO are popped. -/
def State.fifoPopWords (s : State) (n k : Nat) : State :=
  s.setAll [(FIFO_COUNT_USED n, s.get (FIFO_COUNT_USED n) - k), (FIFO_COUNT_CREDIT n, s.get (FIFO_COUNT_CREDIT n) + k)]

/-- A record is refused: counted, with event 197. -/
def State.fifoBad (s : State) : State := (s.count CGW_FIFO_BAD).raise 197

/-- A record's two descriptor codewords as a SEND descriptor: GEN, TAG and BUF are not used. -/
def recordDesc (d : List Byte) : List Byte := patch (patch d 1 [0, 0, 0]) 16 [0, 0, 0, 0, 0]

/-- CGW_FIFO_RECORD. -/
def execCgwFifoRecord (j : Fin 2) (s : State) : Out :=
  let n := s.get (CGW_FIFOSRC_FIFO j)
  let used := s.get (FIFO_COUNT_USED n)
  if !s.gwOn || !Block.fifo.live s || !s.on (CGW_FIFOSRC_EN j) || !s.on (FIFO_CFG_EN n) || used == 0 || !s.gwRoom .lanes then .next s
  else if used < 2 then done ((s.fifoPopWords n used).fifoBad)
  else
    let h := s.fifoRead n 0 2
    match h.1 with
    | .ok raw =>
      let d := recordDesc raw
      let len := dbits d 104 7
      let k := if len ≤ 8 then 0 else (len + 15) / 16
      if dOp d ≠ 1 ∨ !canTxFormatOk d ∨ used < 2 + k then done ((h.2.fifoPopWords n (min used (2 + k))).fifoBad)
      else
        let b := h.2.fifoRead n 2 k
        match b.1 with
        | .ok more =>
          let y := b.2.gwAccept d .lanes none (sendCanFrame d (if len ≤ 8 then (d.drop 24).take len else more.take len))
          let s := y.2.fifoPopWords n (2 + k)
          done (match y.1 with
            | none => s
            | some 0x16 => s.gwDrop CGW_ISO_DROP
            | some _ => s.fifoBad)
        | e => done (((b.2.fifoPopWords n (2 + k)).fifoBad).cgwError (if e.cause = 2 then 1 else 2) 0xF (s.fifoWordAt n 2))
    | e => done (((h.2.fifoPopWords n 2).fifoBad).cgwError (if e.cause = 2 then 1 else 2) 0xF (s.fifoWordAt n 0))

/-- CGW_FIFOSRC written with EN 1. -/
def execCgwFifosrcEnable (a : Agent) (j : Fin 2) (v : Word) (s : State) : Out :=
  regCommand a (CGW_FIFOSRC_EN j).addr s (fun s =>
    let n := bits v.toNat 0 4
    if !bit v.toNat 31 then s
    else (s.set (CGW_FIFOSRC_FIFO j) n).set (CGW_FIFOSRC_EN j)
      (b2n (s.on (CGW_FIFOSRC_EN j) || (s.on (FIFO_CFG_EN n) && s.on (FIFO_CFG_CWORLD n)))))

/-! ### From the backbone (R381) -/

/-- An ACF message is skipped, or a sequence number is missing. -/
def State.ethSkip (s : State) : State := (s.count CGW_ETH_SKIP).raise 196

/-- The CAN frame of an ACF CAN message of `q` quadlets, with its message_timestamp where mtv is 1; none where its length is none a
CAN frame can have. -/
def acfFrame (m : List Byte) (q : Nat) : Option (CanFrame × Option Nat) :=
  let fl := beAt m 2 1
  let n := 4 * q - 16 - fl / 64
  let f : CanFrame := ⟨beAt m 12 4 % 2 ^ 29, bit fl 3, bit fl 1, bit fl 2, bit fl 0, bit fl 4, (m.drop 16).take n⟩
  if q < 4 ∨ 4 * q < 16 + fl / 64 ∨ !canLenOk f.fdf n then none else some (f, if bit fl 5 then some (beAt m 4 8) else none)

/-- The ACF messages of a PDU, one after the other, at most `fuel` of them. -/
def State.acfAll (s : State) (k : Nat) (g : EFrame) (m : List Byte) : Nat → State
  | 0 => s
  | fuel + 1 =>
    if m.length < 4 then s
    else
      let q := beAt m 0 2 % 512
      if q = 0 ∨ m.length < 4 * q then s.ethSkip
      else
        let s := if beAt m 0 1 / 2 ≠ 1 then s.ethSkip
          else match acfFrame m q with
            | none => s.ethSkip
            | some (f, t) => s.route k ⟨f, false, t.getD g.ts, g.epoch, 0xF, 0xFFFF⟩
        s.acfAll k g (m.drop (4 * q)) fuel

/-- CGW_ETH_FRAME_RECEIVE: a frame with an uncorrectable codeword is dropped at P9 (R327). -/
def execCgwEthFrameReceive (s : State) : Out :=
  match s.eth.toGw with
  | [] => .next s
  | g :: t =>
    if !s.gwOn then .next s
    else
      let s := s.setEth { s.eth with toGw := t }
      let s := s.frameReport 6 g
      if g.bad then done (s.ethError 1 9 0)
      else match gwStream s.can.streams g with
        | none => done s
        | some k =>
          let s := s.countTx 9
          let e := s.streamEnt k
          let seq := beAt g.body 5 1
          let s := if wordOf e 5 = 1 ∧ seq ≠ (wordOf e 6 + 1) % 256 then s.ethSkip else s
          let m := (g.body.drop 14).take (beAt g.body 3 2 % 2048)
          done ((s.setStreamSeq k seq).acfAll k g m (m.length + 1))

/-! ### Tables (R391) -/

/-- What a table command reports. -/
def State.cgwTblEnd (s : State) (result : Nat) : State := s.set CGW_TBL_STAT_RESULT result

/-- The eight words of TBL_DATA are written. -/
def State.cgwTblData (s : State) (l : List Nat) : State :=
  (List.range 8).foldl (fun s i => s.set (CGW_TBL_DATA i) (l.getD i 0)) s

/-- CGW_TBL_READ. -/
def execCgwTblRead (a : Agent) (table : Fin 16) (index : Fin 65536) (s : State) : Out :=
  regCommand a CGW_TBL_CMD_OP.addr s (fun s =>
    let i := index.val
    let give (n : Nat) (l : List Nat) : State := if n ≤ i then s.cgwTblEnd 1 else (s.cgwTblData l).cgwTblEnd 0
    match table.val with
    | 1 => give 4096 (look s.can.routes i [])
    | 2 => give 256 (s.authEnt i)
    | 3 => let e := s.streamEnt i
           give 64 (e.take 4 ++ [wordOf e 4 + 2 ^ 16 * wordOf e 6])
    | 4 => give 8 (look s.can.perms i [])
    | _ => s.cgwTblEnd 1)

/-- The words of TBL_DATA, each with its unnamed bits zero. -/
def State.cgwWords (s : State) (masks : List Nat) : List Nat :=
  (List.range masks.length).map (fun i => s.get (CGW_TBL_DATA i) &&& masks.getD i 0)

/-- CGW_TBL_WRITE. -/
def execCgwTblWrite (a : Agent) (table : Fin 16) (index : Fin 65536) (s : State) : Out :=
  regCommand a CGW_TBL_CMD_OP.addr s (fun s =>
    let i := index.val
    match table.val with
    | 1 =>
      if 4096 ≤ i then s.cgwTblEnd 1
      else
        let w := s.cgwWords [0xBFFFFFFF, 0x1FFFFFFF, 0x000FEFFF, 0x377F0FFF, 0x0003FFFF, 0x3FFFFFFF] ++ [0]
        (s.setCan { s.can with routes := ins s.can.routes i w }).cgwTblEnd 0
    | 2 =>
      let w := s.cgwWords [0xFF7F01FF, 0xFFFFFFFF, 0xFFFFFFFF, 0xFFFFFFFF, 0xFFFFFFFF]
      if 256 ≤ i then s.cgwTblEnd 1
      else if !authOk w then s.cgwTblEnd 2
      else (s.setCan { s.can with auth := ins s.can.auth i (w ++ [wordOf (s.authEnt i) 5]) }).cgwTblEnd 0
    | 3 =>
      if 64 ≤ i then s.cgwTblEnd 1
      else
        let w := s.cgwWords [0xFFFFFFFF, 0xFFFFFFFF, 0xFFFFFFFF, 0xFFFFFFFF, 0x00001F01] ++ [0, 0]
        (s.setCan { s.can with streams := ins s.can.streams i w }).cgwTblEnd 0
    | 4 =>
      if 8 ≤ i then s.cgwTblEnd 1
      else (s.setCan { s.can with perms := ins s.can.perms i (s.cgwWords [0xFFF, 0x3FFFFFFF, 0x1FFFFFFF]) }).cgwTblEnd 0
    | _ => s.cgwTblEnd 1)

/-- CGW_ERR_CTL.REARM (R390). -/
def execCgwRearm (a : Agent) (s : State) : Out :=
  regCommand a CGW_ERR_CTL_REARM.addr s (fun s => s.set CGW_ERR_INFO_VALID 0)

/-- CGW_ERR_CTL.CLR_CNT (R390). -/
def execCgwClrCnt (a : Agent) (s : State) : Out :=
  regCommand a CGW_ERR_CTL_CLR_CNT.addr s (fun s =>
    let s := s.setCan { s.can with auth := s.can.auth.map (fun p => (p.1, p.2.set 5 0)) }
    s.setAll [(CGW_ROUTE_DROP, 0), (CGW_ISO_DROP, 0), (CGW_AUTH_FAIL, 0), (CGW_ETH_SKIP, 0), (CGW_RX_LOST, 0), (CGW_FIFO_BAD, 0)])

/-! ### What VFM and a block reset do here (R178, R181, R387) -/

/-- A VF's frame has started arbitration (R178): its descriptor's work has started, or it is stale and runs on for no ring. One that
lost arbitration has started all the same. -/
def State.frameStarted (s : State) (f : GwFrame) : Bool :=
  match f.job with
  | none => true
  | some (r, idx) => (s.ring r).items.any (fun it => it.idx == idx && it.started)

/-- Those frames of CAN VF `v` that are `gone` leave the gateway. -/
def State.canDropVf (s : State) (v : Nat) (gone : GwFrame → Bool) : State :=
  let mine (f : GwFrame) : Bool := f.src == .vf v && gone f
  let s := s.setCan { s.can with wait := s.can.wait.filter (fun f => !mine f) }
  (List.range 12).foldl (fun s c =>
    let x := s.canCh c
    if x.slots.any (fun p => mine p.2) then
      let slots := x.slots.filter (fun p => !mine p.2)
      let attempt := match x.attempt with
        | some n => if slots.any (fun p => p.1 == n) then some n else none
        | none => none
      s.setCanCh c { x with slots := slots, attempt := attempt }
    else s) s

/-- The started frames of CAN VF `v` become stale: they run on and complete nothing. -/
def State.canStaleVf (s : State) (v : Nat) : State :=
  let stale (f : GwFrame) : GwFrame := if f.src == .vf v then { f with job := none } else f
  (List.range 12).foldl (fun s c =>
    let x := s.canCh c
    if x.slots.any (fun p => p.2.src == .vf v) then s.setCanCh c { x with slots := x.slots.map (fun p => (p.1, stale p.2)) }
    else s) (s.setCan { s.can with wait := s.can.wait.map stale })

end Sys2Proof.Machine
end

