-- ==== Sys2Proof/Machine/Nmw.lean ====
section
/-! DEFINITION. Closing Bell: segments, lanterns, closing, commit, wake and curfew (R392 to R412). -/

namespace Sys2Proof.Machine

/-- NMW is given a state. -/
def State.setNmw (s : State) (n : NmwSt) : State := { s with nmw := n }

/-- NMW works. -/
def State.nmwLive (s : State) : Bool := Block.nmw.live s

/-- The state of segment `g` (Table 12.4). -/
def State.seg (s : State) (g : Nat) : Nat := s.get (SEG_STAT_STATE g)

/-- Every managed segment is ASLEEP, and there is one (R401). -/
def State.allAsleep (s : State) : Bool :=
  s.on NMW_CTL_EN && (List.range 20).any (fun g => s.on (SEG_CTL_MANAGED g))
    && (List.range 20).all (fun g => !s.on (SEG_CTL_MANAGED g) || s.seg g == 3)

/-- Segment `g` enters a state, with what the registers show of it (Table 12.4, R401, R402). -/
def State.setSeg (s : State) (g v : Nat) : State :=
  let iso := decide (2 ≤ v)
  let s := s.setAll [(SEG_STAT_STATE g, v), (SEG_STAT_ISO g, b2n iso), (NMW_STAT_ASLEEP, putBit (s.get NMW_STAT_ASLEEP) g (v == 3)),
    (NMW_CLOSING, putBit (s.get NMW_CLOSING) g (v == 2))]
  let s := if g < 12 then s.set CGW_STAT_ISO (putBit (s.get CGW_STAT_ISO) g iso) else s
  s.set NMW_STAT_ALL_ASLEEP (b2n s.allAsleep)

/-- The NMW capture (R412): the first error after REARM; event 207. -/
def State.nmwError (s : State) (cause g : Nat) : State :=
  if s.on NMW_ERR_INFO_VALID then s
  else (s.setAll [(NMW_ERR_INFO_VALID, 1), (NMW_ERR_INFO_CAUSE, cause), (NMW_ERR_INFO_SEG, g)]).raise 207

/-- The late-wake check of a segment that leaves ASLEEP (R405): the milliseconds since its commit point. -/
def State.lateCheck (s : State) (g : Nat) : State :=
  match s.nmw.commits.find? (fun p => p.1 == g) with
  | none => s
  | some (_, t) =>
    let ms := (((s.zone : Int) - t) / 1000000).toNat
    if ms ≤ s.get NMW_CTL_LATE_WIN then
      (((s.count (SEG_STAT_LATE g)).count NMW_LATE_CNT).setAll [(NMW_LATE_LAST_SEG, g), (NMW_LATE_LAST_MS, ms)]).raise 204
    else s

/-- A wake request for one segment (Table 12.5). Answers whether the segment was woken by it. -/
def State.wakeOne (s : State) (g : Nat) : Bool × State :=
  if s.seg g = 2 then (true, (s.setSeg g 1).raise 203)
  else if s.seg g = 3 then
    let s := (s.lateCheck g).setSeg g 4
    (true, (s.setNmw { s.nmw with
      commits := del s.nmw.commits g
      wakingSeen := putBit s.nmw.wakingSeen g false }).raise 202)
  else (false, s)

/-- A wake request, passed on one level through WAKE_FAN (R403). -/
def State.wakeReq (s : State) (g : Nat) : State :=
  let r := s.wakeOne g
  if r.1 then (List.range 20).foldl (fun s h =>
      if h != g && bit (s.get (SEG_CTL_WAKE_FAN g)) h && s.managed h then (s.wakeOne h).2 else s) r.2
  else r.2

/-- Segment `g` comes under management (R393). -/
def State.segManage (s : State) (g : Nat) : State := s.setSeg g 1

/-- Segment `g` is UNMANAGED again, its transceiver in normal mode. -/
def State.segRelease (s : State) (g : Nat) : State :=
  let s := (s.setSeg g 0).set (SEG_NEED g) 0
  s.setNmw { s.nmw with commits := del s.nmw.commits g }

/-- NMW_CTL written (R393). -/
def execNmwEnWrite (a : Agent) (v : Word) (s : State) : Out :=
  regCommand a NMW_CTL_EN.addr s (fun s =>
    let was := s.on NMW_CTL_EN
    let s := s.setAll [(NMW_CTL_LATE_WIN, bits v.toNat 16 16), (NMW_CTL_EN, bits v.toNat 0 1)]
    if was = bit v.toNat 0 then s
    else (List.range 20).foldl (fun s g =>
      if bit v.toNat 0 then (if s.on (SEG_CTL_MANAGED g) then s.segManage g else s) else s.segRelease g) s)

/-- SEG_CTL written, but for HOLD (R393). -/
def execSegManagedWrite (a : Agent) (g : Fin 20) (v : Word) (s : State) : Out :=
  regCommand a (SEG_CTL_MANAGED g).addr s (fun s =>
    let was := s.on (SEG_CTL_MANAGED g)
    let s := s.setAll [(SEG_CTL_MANAGED g, bits v.toNat 31 1), (SEG_CTL_ROUTE_WAKE g, bits v.toNat 29 1),
      (SEG_CTL_LANT_AUTH g, bits v.toNat 28 1), (SEG_CTL_AIDX g, bits v.toNat 20 8), (SEG_CTL_WAKE_FAN g, bits v.toNat 0 20)]
    if was = bit v.toNat 31 ∨ s.on NMW_CTL_EN = false then s
    else if bit v.toNat 31 then s.segManage g else s.segRelease g)

/-- SEG_CTL.HOLD written (R397, R403): 1 is a wake request; its fall makes one lantern with RELEASE due. -/
def execSegHoldWrite (a : Agent) (g : Fin 20) (v : Word) (s : State) : Out :=
  regCommand a (SEG_CTL_HOLD g).addr s (fun s =>
    let was := s.on (SEG_CTL_HOLD g)
    let s := s.set (SEG_CTL_HOLD g) (bits v.toNat 30 1)
    if bit v.toNat 30 then s.wakeReq g
    else if was && s.managed g then s.setNmw { s.nmw with releaseDue := putBit s.nmw.releaseDue g true }
    else s)

/-- NMW_WAKE_REQ written (R403). -/
def execNmwWakeReq (a : Agent) (v : Word) (s : State) : Out :=
  regCommand a NMW_WAKE_REQ.addr s (fun s =>
    (List.range 20).foldl (fun s g => if bit v.toNat g && s.managed g then s.wakeReq g else s) s)

/-- SEG_CURFEW_SET written (R409). -/
def execSegCurfewSet (a : Agent) (g : Fin 20) (v : Word) (s : State) : Out :=
  regCommand a (SEG_CURFEW_SET g).addr s (fun s => s.setBits (SEG_CURFEWED g) v.toNat)

/-- A lantern is accepted (R396): its source's need, SEG_LAST, and the closing it cancels. -/
def State.lanternAccept (s : State) (l : Lantern) : State :=
  let g := l.seg
  let authz := l.reason != 0 && bit (s.get (SEG_REASON g)) l.reason
  let s := s.set (SEG_NEED g) (putBit (s.get (SEG_NEED g)) l.src (!l.release))
  let s := s.setAll [(SEG_LAST_RELEASE g, b2n l.release), (SEG_LAST_AUTHZ g, b2n authz), (SEG_LAST_REASON g, l.reason),
    (SEG_LAST_SRC g, l.src)]
  (s.setNmw { s.nmw with reasons := ins s.nmw.reasons (32 * g + l.src) l.reason }).wakeReq g

/-- LANTERN_RECEIVE (R394 to R396). -/
def execLanternReceive (s : State) : Out :=
  match s.nmw.lanterns with
  | [] => .next s
  | l :: t =>
    if !s.nmwLive then .next s
    else
      let s := s.setNmw { s.nmw with lanterns := t }
      if !l.formatOk then done (s.nmwError 1 l.seg)
      else if !s.managed l.seg || !(s.seg l.seg == 1 || s.seg l.seg == 2) then done s
      else if !l.authOk then done ((s.count NMW_IGN_CNT).nmwError 2 l.seg)
      else if bit (s.get (SEG_CURFEWED l.seg)) l.src then done (s.count NMW_IGN_CNT)
      else done (s.lanternAccept l)

/-- The port of an Ethernet segment (Table 12.1). -/
def segPort (g : Nat) : Nat := if 14 ≤ g then g - 14 else g - 6

/-- The module's own lantern on a CAN segment (R394, R397): signed where LANT_AUTH asks for it; none where no gateway slot is free or
it cannot be signed. -/
def State.ownCanLantern (s : State) (g : Nat) (release : Bool) : Option State :=
  let src := s.get NMW_OWN_OWN_SRC
  let auth := s.on (SEG_CTL_LANT_AUTH g)
  let f : CanFrame := ⟨s.get (SEG_LANT_ID_ID g), s.on (SEG_LANT_ID_IDE g), auth, false, false, false,
    [BitVec.ofNat 8 src, BitVec.ofNat 8 (s.get NMW_OWN_OWN_REASON + 128 * b2n release)]⟩
  if !s.gwOn || !s.gwRoom .lanes then none
  else if auth then
    let r := s.signFrame ((s.get (SEG_CTL_AIDX g) + src) % 256) f
    match r.1 with
    | .ok x => some (r.2.gwTake ⟨x, g, .lanes, none, false, false, 0⟩)
    | _ => none
  else some (s.gwTake ⟨f, g, .lanes, none, false, false, 0⟩)

/-- The module's own lantern on an Ethernet segment (Table 12.3, R397): it leaves from queue 7. Its source address is CGW_MAC
(DESIGN CHOICE: R397 gives none). -/
def State.ownEthLantern (s : State) (g : Nat) (release : Bool) : State :=
  let body := beBytes 2 (s.get NMW_LANT_ETYPE) ++ [1, BitVec.ofNat 8 (s.get NMW_OWN_OWN_SRC),
    BitVec.ofNat 8 (s.get NMW_OWN_OWN_REASON), if release then 1 else 0] ++ List.replicate 42 0
  s.toPort (segPort g) ⟨s.get NMW_LANT_DMAC_LO + 2 ^ 32 * s.get NMW_LANT_DMAC_HI, s.get CGW_MAC_LO + 2 ^ 32 * s.get CGW_MAC_HI,
    false, 0, 7, false, none, body, s.zone, s.epoch, 9, false, none, true, true, [], 0, false, none⟩

/-- OWN_LANTERN_SEND (R397): while HOLD is 1, or once with RELEASE when it has fallen. -/
def execOwnLanternSend (g : Fin 20) (s : State) : Out :=
  let hold := s.on (SEG_CTL_HOLD g)
  if !s.managed g || s.seg g != 1 || !(hold || bit s.nmw.releaseDue g) then .next s
  else
    let t := if g.val < 12 then s.ownCanLantern g (!hold) else some (s.ownEthLantern g (!hold))
    match t with
    | some t => done (t.setNmw { t.nmw with releaseDue := putBit t.nmw.releaseDue g false })
    | none => .next s

/-- OWN_LANTERN_LATE (R397). -/
def execOwnLanternLate (g : Fin 20) (s : State) : Out :=
  if !s.managed g || !(s.on (SEG_CTL_HOLD g) || bit s.nmw.releaseDue g) then .next s else done (s.nmwError 3 g)

/-- SOURCE_NEED_EXPIRY (R396). -/
def execSourceNeedExpiry (g : Fin 20) (i : Fin 32) (s : State) : Out :=
  if !s.managed g then .next s else done (s.clrBits (SEG_NEED g) (2 ^ i.val))

/-- SEGMENT_CLOSE (R399). -/
def execSegmentClose (g : Fin 20) (s : State) : Out :=
  if !s.managed g || s.seg g != 1 || s.get (SEG_NEED g) != 0 || s.on (SEG_CTL_HOLD g) then .next s
  else done ((s.setSeg g 2).raise 200)

/-- The segment has nothing on the wire (R400). -/
def State.segQuiet (s : State) (g : Nat) : Bool :=
  if g < 12 then (s.canCh g).attempt.isNone else (s.ePort (segPort g)).flight.isNone

/-- SEGMENT_COMMIT (R400): a sleeping CAN channel is not integrated (R359), but keeps bus-off; a sleeping PHY has no link. -/
def execSegmentCommit (g : Fin 20) (s : State) : Out :=
  if !s.managed g || s.seg g != 2 || !s.segQuiet g then .next s
  else
    let s := s.setSeg g 3
    let s := s.setNmw { s.nmw with
      commits := ins s.nmw.commits g.val (s.zone : Int)
      routed := putBit s.nmw.routed g false }
    let s := if 12 ≤ g.val then s.portLink (segPort g) false 0 false
      else if s.get (CAN_STAT_STATE g) < 2 then s.canState g 3 else s
    done (s.raise 201)

/-- SEGMENT_WAKE_DETECT (R403): activity counts while the segment is ASLEEP; a routed frame while ROUTE_WAKE is 1. -/
def execSegmentWakeDetect (g : Fin 20) (routed : Bool) (s : State) : Out :=
  if !s.managed g then .next s
  else if routed then
    if bit s.nmw.routed g then
      let t := s.setNmw { s.nmw with routed := putBit s.nmw.routed g false }
      done (if s.on (SEG_CTL_ROUTE_WAKE g) then t.wakeReq g else t)
    else .next s
  else if s.seg g = 3 then done (s.wakeReq g) else .next s

/-- SEGMENT_AWAKE (R399). -/
def execSegmentAwake (g : Fin 20) (s : State) : Out :=
  let up := if g.val < 12 then s.get (CAN_STAT_STATE g) != 3 else s.on (PORT_STAT_LINK (segPort g))
  if !s.managed g || s.seg g != 4 || !up then .next s else done ((s.setSeg g 1).raise 203)

/-- WAKING_TIMEOUT (R399): captured once. -/
def execWakingTimeout (g : Fin 20) (s : State) : Out :=
  if !s.managed g || s.seg g != 4 || bit s.nmw.wakingSeen g then .next s
  else done ((s.setNmw { s.nmw with wakingSeen := putBit s.nmw.wakingSeen g true }).nmwError 4 g)

/-- The latest accepted REASON of a source lets it use CURFEW_EXT (R407). -/
def State.curfewExempt (s : State) (g i : Nat) : Bool :=
  let reason := look s.nmw.reasons (32 * g + i) 0
  bit (s.get (SEG_EXEMPT g)) i && reason != 0 && bit (s.get (SEG_REASON g)) reason

/-- The limit of a source in seconds (R407): 1 to 1440 minutes. -/
def State.curfewLimit (s : State) (g i : Nat) : Nat :=
  60 * max 1 (min 1440 (s.get (if s.curfewExempt g i then SEG_CURFEW_CURFEW_EXT g else SEG_CURFEW_CURFEW g)))

/-- CURFEW_EXPIRY (R408), after `secs` seconds of need: the recorder gets segment, source, REASON and the time awake (Table 14.8). -/
def execCurfewExpiry (g : Fin 20) (i : Fin 32) (secs : Nat) (s : State) : Out :=
  if !s.managed g || !bit (s.get (SEG_NEED g)) i || decide (secs < s.curfewLimit g i) then .next s
  else
    let reason := look s.nmw.reasons (32 * g.val + i.val) 0
    let authz := s.curfewExempt g i
    let s := ((s.setBits (SEG_CURFEWED g) (2 ^ i.val)).clrBits (SEG_NEED g) (2 ^ i.val)).count NMW_CURFEW_CNT
    done ((s.raise 205).ledgerDue 5 ([BitVec.ofNat 8 g.val, BitVec.ofNat 8 i.val, BitVec.ofNat 8 reason, BitVec.ofNat 8 (b2n authz)]
      ++ leBytes 4 secs ++ leBytes 8 0) none)

/-- NMW_ERR_CTL.REARM (R412). -/
def execNmwRearm (a : Agent) (s : State) : Out :=
  regCommand a NMW_ERR_CTL_REARM.addr s (fun s => s.set NMW_ERR_INFO_VALID 0)

/-- NMW_ERR_CTL.CLR_CNT (R412). -/
def execNmwClrCnt (a : Agent) (s : State) : Out :=
  regCommand a NMW_ERR_CTL_CLR_CNT.addr s (fun s =>
    (List.range 20).foldl (fun s g => s.set (SEG_STAT_LATE g) 0)
      (s.setAll [(NMW_LATE_CNT, 0), (NMW_CURFEW_CNT, 0), (NMW_IGN_CNT, 0)]))

end Sys2Proof.Machine
end

