-- ==== Sys2Proof/Machine/Vf.lean ====
section
/-! DEFINITION. The life of a virtual function: generation steps, held steps, freezes (Application Cluster and Virtual Functions,
R177 to R186). -/

namespace Sys2Proof.Machine

/-- The VF manager is given a state. -/
def State.setVfm (s : State) (x : VfmSt) : State := { s with vfm := x }

/-- Function `f` enters a state of Table 5.3. -/
def State.vfEnter (s : State) (f v : Nat) : State := s.set (VFM_VF_STATE_STATE f) v

/-- The started items of function `f` (R178). -/
def State.vfStarted (s : State) (f : Nat) : Nat :=
  ((ringsOf f).map (fun r => ((s.ring r).items.filter (·.started)).length)).sum

/-- The frames of CAN VF `v` that wait for its RX ring are lost and counted in VF_QDROP (Table 5.9), with its local event DROP
(Table 5.4). -/
def State.canRxDrop (s : State) (v : Nat) : State :=
  let base := 0x41100000 + 0x1000 * v
  let mine := keepRange s.can.rx base (base + 0x1000)
  let s := s.setCan { s.can with rx := delRange s.can.rx base (base + 0x1000) }
  (mine.map (fun p => p.2)).flatten.foldl (fun s _ => s.vfQdrop (16 + v)) s

/-- The frames that are `gone` are withdrawn from the engine of function `f` (R178, R181); in the other engines work stands in its
rings alone. -/
def State.engineDrop (s : State) (f : Nat) (gone : GwFrame → Bool) : State :=
  if 16 ≤ f ∧ f < 24 then s.canDropVf (f - 16) gone else s

/-- The frames that wait for the RX rings of function `f`, a CAN VF, are lost. -/
def State.engineRxDrop (s : State) (f : Nat) : State := if 16 ≤ f ∧ f < 24 then s.canRxDrop (f - 16) else s

/-- GENERATION_STEP (R178), for a DISABLE (`off`) or a reset. -/
def State.genStep (s : State) (f : Nat) (off : Bool) : State :=
  let n := s.vfStarted f
  let s := ((s.bump (VFM_VF_STATE_GEN f)).engineDrop f (fun g => !s.frameStarted g)).engineRxDrop f
  let s := if 16 ≤ f ∧ f < 24 then s.canStaleVf (f - 16) else s
  let s := s.set (VFM_VF_STATE_STALE f) (s.get (VFM_VF_STATE_STALE f) + n)
  let s := (ringsOf f).foldl (fun s r => { s.resetRegs r.base (r.base + 0x20) with rings := del s.rings r.base }) s
  let s := (s.set (VFP_VF_EVT_PEND f) (if off then 0 else 32)).set (VFM_VF_STATE_RST_HELD f) 0
  let s := s.setVfm { s.vfm with
    heldOff := putBit s.vfm.heldOff f false, forced := putBit s.vfm.forced f false, frozen := del s.vfm.frozen f }
  let s := if off && decide (f < 16) then
      s.setEth { s.eth with host := delRange s.eth.host (0x41000000 + 0x1000 * f) (0x41001000 + 0x1000 * f) } else s
  s.vfEnter f (if off then 0 else 1)

/-- A generation step is asked for (R180): held while STALE is not zero. Answers whether it is held. -/
def State.stepRequest (s : State) (f : Nat) (off : Bool) : Bool × State :=
  if s.get (VFM_VF_STATE_STALE f) = 0 then (false, s.genStep f off)
  else
    let disable := off || (s.on (VFM_VF_STATE_RST_HELD f) && bit s.vfm.heldOff f)
    (true, (s.set (VFM_VF_STATE_RST_HELD f) 1).setVfm { s.vfm with heldOff := putBit s.vfm.heldOff f disable })

/-- STALE of function `f` has reached zero: a held step takes effect, with event 252 (R180). -/
def State.staleZero (s : State) (f : Nat) : State :=
  if s.on (VFM_VF_STATE_RST_HELD f) then (s.genStep f (bit s.vfm.heldOff f)).raise 252 else s

/-- Index `i` takes its place in a pending list of a ring whose SQ_CI is `ci`: oldest first (Table 5.7). -/
def putPending (ci i : Nat) : List Nat → List Nat
  | [] => [i]
  | j :: t => if (ci + 2 ^ 16 - j) % 2 ^ 16 < (ci + 2 ^ 16 - i) % 2 ^ 16 then i :: j :: t else j :: putPending ci i t

/-- Unstarted descriptors, or (`all`) all of them, leave the engine for the pending list, in the order they were submitted (R177,
R185); work that is stale already stays. -/
def State.vfWithdraw (s : State) (f : Nat) (all : Bool) : State :=
  (ringsOf f).foldl (fun s r =>
    let x := s.ring r
    if x.items = [] then s
    else s.setRing r { x with
      again := ((x.items.filter (fun i => all || !i.started)).map (·.idx)).foldr (putPending (s.sqCi r)) x.again
      items := x.items.filter (fun i => !(all || !i.started)) }) ((s.engineDrop f (fun g => if all then g.job.isSome else !s.frameStarted g)).engineRxDrop f)

/-- The state of function `f` is captured: FROZEN (Table 5.5). -/
def State.vfCapture (s : State) (f : Nat) : State :=
  (s.vfEnter f 3).setVfm { s.vfm with frozen := ins s.vfm.frozen f (s.zone, s.epoch) }

/-- VF_FORCED_FREEZE (R177): PWR gates ISL_APP. -/
def State.forcedFreeze (s : State) (f : Nat) : State :=
  if s.vfState f = 1 ∨ s.vfState f = 2 then
    let s := (s.vfWithdraw f true).set (VFM_VF_STATE_SHADE f) 1
    let s := if f < 16 then s.ethFlushVf f else s
    s.vfCapture f
  else s

/-- The work of an engine is lost in a block reset (R186): each of its functions in RUN or FREEZING takes a generation step with
STALE zero. -/
def State.engineLost (s : State) (lo hi : Nat) : State :=
  (List.range 32).foldl (fun s f =>
    if lo ≤ f ∧ f < hi ∧ (s.vfState f = 1 ∨ s.vfState f = 2) then
      (s.genStep f false).set (VFM_VF_STATE_STALE f) 0
    else s) s

end Sys2Proof.Machine
end

