-- ==== Sys2Proof/Machine/Reset.lean ====
section
/-! DEFINITION. What resets reach: the mirrors of ISL_AON, resets of the control die, block resets (Supplies, Power States and
Start-up, R19, R73, R74, R83). -/

namespace Sys2Proof.Machine

/-! ### Mirrors of ISL_AON (R19) -/

/-- ISL_AON's own copy of a field becomes `v`. -/
def State.aonSet (s : State) (f : Fld) (v : Nat) : State := { s with aon := ins s.aon f.key (v % 2 ^ f.w) }

/-- The hardware changes a field held in ISL_AON, and its mirror shows it. -/
def State.aonBoth (s : State) (f : Fld) (v : Nat) : State := (s.aonSet f v).set f v

/-- The instance of a field row at an address. -/
def FRow.at (r : FRow) (addr : Nat) : Fld := { r.fld with addr := addr }

/-- One mirror write lands in ISL_AON: each field as its access type says. -/
def State.landOne (s : State) (w : MirrorWr) : State :=
  (rowsAt w.addr).foldl (fun s r =>
    let f := r.at w.addr
    let v := bits w.val f.lo f.w
    match r.acc with
    | .rw => s.aonSet f v
    | .w1c => s.aonSet f (clearBits (s.aonGet f) v)
    | _ => s) s

/-- The direct control lines of inputs without DC_EN are low (R427), and the dies that are powered follow. -/
def State.directLines (s : State) : State :=
  let en := s.aonGet SNS_DC_DC_EN
  let s := { s with lines := s.lines % 2 ^ 24 + 2 ^ 24 * (s.lines / 2 ^ 24 &&& en) }
  if s.psPowered then s.evalAll else s

/-- Every mirror write still on its way lands. -/
def State.landAll (s : State) : State :=
  if s.mirrorQ = [] then s
  else (s.mirrorQ.foldl State.landOne { s with mirrorQ := [] }).directLines

/-- The mirrors with addresses from `lo` up to `hi` are reloaded from ISL_AON. -/
def State.reloadMirrors (s : State) (lo hi : Nat) : State :=
  { s with regs := (keepRange s.aon (lo * 32) (hi * 32)).foldl (fun m p => ins m p.1 p.2) s.regs }

/-- MIRROR_WRITE_LAND (R19). -/
def execMirrorWriteLand (s : State) : Out :=
  match s.mirrorQ with
  | [] => .next s
  | w :: t => done (({ s with mirrorQ := t }).landOne w).directLines

/-! ### Resets of the control die (Table 2.9) -/

/-- The resets that reach the control die. -/
inductive ResetKind where
  /-- power-on: everything -/
  | power
  /-- a wake from sleep: the far dies too -/
  | wake
  /-- watchdog or system software: the far dies hold -/
  | held
  /-- debug (R500): as `held`, and DBG holds too -/
  | debug
deriving DecidableEq, Repr

/-- The far dies are reset with the control die. -/
def ResetKind.far : ResetKind → Bool
  | .power => true
  | .wake => true
  | _ => false

/-- Fields that the reset leaves: CLK_AON_CAL over a sleep (it is measured at its entry, R60); RST_CAUSE where the far dies hold
(R83); the DBG page over a debug reset (R500); the far registers. -/
def State.keptRegs (s : State) (k : ResetKind) : List (Nat × Nat) :=
  let keep (c : Bool) (lo hi : Nat) : List (Nat × Nat) := if c then keepRange s.regs (lo * 32) (hi * 32) else []
  keep (k == .wake) 0x40002010 0x40002014 ++ keep (!k.far) 0x40003000 0x40003004 ++ keep (k == .debug) 0x40100000 0x40101000
    ++ keep (!k.far) 0x50000000 0x50090000

/-- Entries of the memories that keep their contents (R66): all of them where the far dies hold, else the boot ROM, MRAM and NOR;
`unit` is the size of what a key counts. -/
def keptMem {α : Type} (k : ResetKind) (m : List (Nat × α)) (unit : Nat) : List (Nat × α) :=
  if k.far then m.filter (fun p => decide (p.1 * unit < 0x20000000) || (decide (0x30000000 ≤ p.1 * unit)
    && decide (p.1 * unit < 0x38000000))) else m

/-- A channel that was in bus-off at a reset (R387); power-on and sleep lose that too. -/
def State.busOffs (s : State) : List (Nat × CanCh) :=
  ((List.range 12).filter (fun c => s.get (CAN_STAT_STATE c) == 2 || (s.canCh c).wasOff)).map (fun c => (c, ⟨[], none, [], true⟩))

/-- The control die after a reset, before its start-up: what the reset reaches as at reset, the rest held. Where the far dies hold
and a power-down had already taken their supply, they stay unpowered through the start-up that follows (DESIGN CHOICE, see the log). -/
def State.controlReset (s : State) (k : ResetKind) (phase : Phase) : State :=
  let s := s.landAll
  let t : State := { State.reset with
    pending := s.pending
    regs := s.keptRegs k
    aon := if k = .power then [] else s.aon
    mem := keptMem k s.mem 1
    syn := keptMem k s.syn 16
    fresh := s.fresh
    pwr := { State.reset.pwr with
      phase := phase, phyHold := s.pwr.phyHold, ign := s.pwr.ign
      stageOn := s.pwr.stageOn && !k.far, mdOn := s.pwr.mdOn && !k.far
      alarms := if k = .power then [] else s.pwr.alarms
      vbat := s.pwr.vbat, temp := s.pwr.temp }
    chan := if k.far then [] else s.chan
    die := if k.far then [] else s.die
    md := if k.far then State.reset.md else s.md
    lines := if k = .power then 0 else s.lines / 2 ^ 24 * 2 ^ 24
    can := { State.reset.can with chans := if k.far then [] else s.busOffs }
    recArea := s.recArea
    otp := s.otp
    dbg := if k = .debug then { s.dbg with handOver := none, asks := 0, dm := del s.dbg.dm 0x81 } else State.reset.dbg }
  let t := (t.reloadMirrors 0x40001000 0x40002000).reloadMirrors 0x400B0000 0x400B1000
  let t := t.reloadMirrors 0x400D0000 0x400D1000
  let t := (t.set PWR_STAT_STAGE_PWR (b2n t.pwr.stageOn)).set PWR_STAT_MD_PWR (b2n t.pwr.mdOn)
  if t.psPowered then t.evalAll else t

/-- A reset of the control die that leaves the far dies held (Table 2.9): it sets its own cause bit (R83) and start-up runs from
the locking of the PLLs on. The hold state is left by a power-on reset or a wake reset only (R68). -/
def State.heldReset (s : State) (k : ResetKind) (cause : Fld) : State :=
  if s.pwr.phase = .hold then s else (s.controlReset k .clocking).set cause 1

/-- Power-on reset (Table 2.9). -/
def State.powerOnReset (s : State) : State := s.controlReset .power .off

/-! ### Block resets (R74) -/

/-- The locks of RWO registers and the latches of a block are undone (R6, R11). -/
def State.unlockBlock (s : State) (b : Block) : State :=
  { s with
    locks := s.locks.filter (fun a => !(decide (b.base ≤ a) && decide (a < b.base + b.size)))
    latches := s.latches.filter (fun p =>
      !(decide (b.base ≤ p.1 % 2 ^ 40) && decide (p.1 % 2 ^ 40 < b.base + b.size))) }

/-- Every register of a block returns to its reset value. -/
def State.blockRegs (s : State) (b : Block) : State := (s.resetRegs b.base (b.base + b.size)).unlockBlock b

/-- The ring pairs with ring sets in a block are as at reset. -/
def State.blockRings (s : State) (b : Block) : State := { s with rings := delRange s.rings b.base (b.base + b.size) }

/-- The bytes of memory that a COPY may have written are undefined (R195, R206): those its LENGTH reaches. -/
def State.copySmear (s : State) (m : Fin 2) (d : List Byte) : State :=
  if dOp d ≠ 1 then s
  else
    ((dmaDst d).reach (dmaLen d)).foldl (fun (s : State) r => if inT0to6 r.1 r.2 then s.smear (.dma m 0) r.1 r.2 else s) s

/-- What every descriptor of a start has written, or may have, is undefined (R210). -/
def State.startSmear (s : State) (m : Fin 2) (x : DmaRun) : State :=
  (x.past ++ [x.desc]).foldl (fun (s : State) d => s.copySmear m d) s

/-- The starts of DMA engine `m` abort (R210). -/
def State.dmaLost (s : State) (m : Fin 2) : State :=
  let s := (List.range 8).foldl (fun s n => s.istYield 3 (8 * m.val + n)) s
  let runs := keepRange s.dma (8 * m.val) (8 * m.val + 8)
  runs.foldl (fun s p => s.startSmear m p.2) { s with dma := delRange s.dma (8 * m.val) (8 * m.val + 8) }

/-- A block is reset as by its RST_BLK0 bit, or, VFM, as a hand-over resets it (R74, R491), with every consequence its chapter
gives (R186, R210, R337, R387, R427). -/
def State.blockReset (s : State) (b : Block) : State :=
  match b with
  | .can n =>
    let s := s.canOff n
    (s.setCanCh n { s.canCh n with input := [] }).blockRegs b
  | .cgw =>
    let s := s.engineLost 16 24
    let s := (s.setCan { State.reset.can with
      chans := s.can.chans.map (fun p => (p.1, { p.2 with slots := p.2.slots.map (fun q => (q.1, { q.2 with job := none })) })) }).setEth
        { s.eth with toGw := [] }
    (({ s with keys := { s.keys with cgw := [] } }).blockRings b).blockRegs b
  | .dma0 => ((s.dmaLost 0).blockRings b).blockRegs b
  | .dma1 => ((s.dmaLost 1).blockRings b).blockRegs b
  | .fifo =>
    let s := (List.range 16).foldl (fun (s : State) n => s.istYield 4 n) s
    ({ s with fifos := [] }).blockRegs b
  | .eth => (((s.engineLost 0 16).setEth State.reset.eth).blockRings b).blockRegs b
  | .time =>
    let e := s.epoch
    ((s.setTime { State.reset.time with epochOpen := false }).blockRegs b).set TIME_STAT_EPOCH e
  | .sns =>
    let s := ({ s.landAll with sns := State.reset.sns }).blockRegs b
    s.reloadMirrors b.base (b.base + b.size)
  | .cry =>
    let s := s.engineLost 24 32
    (({ s with keys := { s.keys with cry := [], round := [] } }).blockRings b).blockRegs b
  | .lcc =>
    let s := ({ s with lcc := State.reset.lcc, lines := s.lines / 2 ^ 24 * 2 ^ 24 }.blockRings b).blockRegs b
    if s.psPowered then s.evalAll else s
  | .recorder => (({ s with keys := s.keys.endFor .recorder }).setRec State.reset.recorder).blockRegs b
  | .nmw => ({ s with nmw := State.reset.nmw }).blockRegs b
  | .vfm => (({ s with keys := { s.keys.endFor .vfm with job := none } }).setVfm State.reset.vfm).blockRegs b
  | _ => s

end Sys2Proof.Machine
end

