-- ==== Sys2Proof/Machine/Keys.lean ====
section
/-! DEFINITION. The key manager: its MRAM region, the operations of its two command channels, the sealer, start-up recovery and
the tamper monitors (Keys, Lifecycle and Attestation, R453 to R479, R484). The algorithms are constants of Config; whether
signatures verify is an operand. -/

namespace Sys2Proof.Machine

/-! ### The MRAM region (R459, R460, R467) -/

/-- The state of Table 15.4: COUNTER, MIN_SVN, LC_SEEN, D_SEEN, SERIAL. -/
structure KeyCopy where
  counter : Nat
  minSvn : Nat
  lcSeen : Nat
  dSeen : Bool
  serial : Nat
deriving DecidableEq, Repr

/-- The address of state copy `i`. -/
def copyAddr (i : Nat) : Nat := 0x10FE5000 + 0x10 * i

/-- State copy `i`, unless its codeword is uncorrectable. -/
def State.stateCopy (s : State) (i : Nat) : Option KeyCopy :=
  (s.viewBytes (copyAddr i) 16).map (fun d =>
    ⟨fieldAt d 0 4, fieldAt d 4 4, fieldAt d 8 1 % 128, bit (fieldAt d 8 1) 7, fieldAt d 12 4⟩)

/-- Which copy is in force (R460): the one with the higher SERIAL that is not uncorrectable. -/
def State.copyInForce (s : State) : Option Nat :=
  match s.stateCopy 0, s.stateCopy 1 with
  | some a, some b => some (if a.serial < b.serial then 1 else 0)
  | some _, none => some 0
  | none, some _ => some 1
  | none, none => none

/-- The state in force; where no copy is readable, what Config leaves open. -/
def State.keyState (s : State) : KeyCopy :=
  match s.copyInForce.bind s.stateCopy with
  | some c => c
  | none =>
    let f := Config.lostState
    ⟨f.1 % 2 ^ 32, f.2.1 % 2 ^ 32, f.2.2.1 % 128, bit f.2.2.1 7, f.2.2.2 % 2 ^ 32⟩

/-- E, the effective update counter (R467). -/
def State.effCounter (s : State) : Nat :=
  if s.otp.hwm = 0 then s.keyState.counter else max s.keyState.counter (32 * s.otp.hwm - 1)

/-- The bytes of a state copy. -/
def KeyCopy.bytes (c : KeyCopy) : List Byte :=
  leBytes 4 c.counter ++ leBytes 4 c.minSvn ++ leBytes 1 (c.lcSeen % 128 + 128 * b2n c.dSeen) ++ leBytes 3 0 ++ leBytes 4 c.serial

/-- A new state goes to the copy that is not in force, with SERIAL + 1 (R460). -/
def State.putState (s : State) (c : KeyCopy) : State :=
  (s.busWrite .keyMgr (copyAddr (if s.copyInForce = some 0 then 1 else 0))
    ({ c with serial := (s.keyState.serial + 1) % 2 ^ 32 } : KeyCopy).bytes).2

/-- The address of half `h` of slot `n`. -/
def halfAddr (n h : Nat) : Nat := 0x10FE0000 + 0x100 * n + 0x80 * h

/-- Half `h` of slot `n`, unless a codeword of it is uncorrectable. -/
def State.keyHalf (s : State) (n h : Nat) : Option (List Byte) := s.viewBytes (halfAddr n h) 128

/-- VERSION of a half that can be active: VALID or ERASED, not above E (R460). -/
def State.halfVersion (s : State) (n h : Nat) : Option Nat :=
  match s.keyHalf n h with
  | none => none
  | some d =>
    if (fieldAt d 0 1 = 2 ∨ fieldAt d 0 1 = 3) ∧ fieldAt d 4 4 ≤ s.effCounter then some (fieldAt d 4 4) else none

/-- The active half of slot `n` (R460). -/
def State.activeHalf (s : State) (n : Nat) : Option Nat :=
  match s.halfVersion n 0, s.halfVersion n 1 with
  | some a, some b => some (if a < b then 1 else 0)
  | some _, none => some 0
  | none, some _ => some 1
  | none, none => none

/-- Slot `n` holds a key: its active half is VALID (R460). -/
def State.holdsKey (s : State) (n : Nat) : Bool :=
  match s.activeHalf n with
  | some h => (match s.keyHalf n h with
    | some d => fieldAt d 0 1 == 2
    | none => false)
  | none => false

/-- The half of slot `n` that is not active. -/
def State.spareHalf (s : State) (n : Nat) : Nat := if s.activeHalf n = some 0 then 1 else 0

/-- The slots from `lo` on that hold a key, as 32 bits. -/
def State.heldMask (s : State) (lo : Nat) : Nat :=
  (List.range 32).foldl (fun m i => if s.holdsKey (lo + i) then m + 2 ^ i else m) 0

/-- The views of the key manager's state in registers: SYS_LC to SYS_IDSTAT (R483), KEY_STAT, KEY_SLOTS, KEY_MODID. -/
def State.keyRefresh (s : State) : State :=
  let id := s.moduleId
  s.setAll
    [(SYS_LC_LC_GEN, s.otp.lcGen), (SYS_LC_STATE, s.lifecycle), (SYS_KEYCNT_HWM, s.otp.hwm), (SYS_KEYCNT_COUNT, s.effCounter),
     (SYS_MIN_SVN, s.keyState.minSvn), (SYS_IDSTAT_AUTH, b2n (s.otp.authEc.isSome && s.otp.authMl.isSome)),
     (SYS_IDSTAT_ROOT, b2n s.otp.root.isSome), (KEY_STAT_HMAC, b2n s.keys.ledgerKey.isSome),
     (KEY_STAT_SEALER, b2n s.keys.sealerKey.isSome), (KEY_STAT_REG, b2n s.keys.keyReg.isSome),
     (KEY_SLOTS_LO, s.heldMask 0), (KEY_SLOTS_HI, s.heldMask 32),
     (KEY_MODID 0, fieldAt id 0 4), (KEY_MODID 1, fieldAt id 4 4), (KEY_MODID 2, fieldAt id 8 4), (KEY_MODID 3, fieldAt id 12 4)]

/-! ### Keys (R456, R461) -/

/-- The state with a key manager of `k`. -/
def State.setKeys (s : State) (k : KeySt) : State := { s with keys := k }

/-- KEK (R456). -/
def State.kek (s : State) : List Byte :=
  fitBytes 32 (hmac384 (s.otp.root.getD []) (Config.kekInput s.otp.lcGen s.otp.dFuse))

/-- The length of a key of a KTYPE in bytes. -/
def ktypeLen (k : Nat) : Nat := if k = 1 then 16 else if k = 2 then 32 else 48

/-- A slot half is formed: STATE PENDING, its key wrapped under KEK with a random IV (Table 15.3, R468). -/
def State.wrapHalf (s : State) (ktype dest version : Nat) (key : List Byte) : List Byte × State :=
  let iv := s.drawBytes 12
  let head := leBytes 1 ktype ++ leBytes 1 dest ++ leBytes 1 0 ++ leBytes 4 version ++ leBytes 2 s.otp.lcGen ++ leBytes 6 0
  let c := Config.gcmEnc s.kek iv.1 head (fitBytes 64 key)
  (leBytes 1 1 ++ head ++ iv.1 ++ leBytes 4 0 ++ fitBytes 64 c.1 ++ fitBytes 16 c.2 ++ leBytes 16 0, iv.2)

/-- The key of a slot half, unwrapped under KEK; `none` where the tag differs (R461). -/
def State.unwrapHalf (s : State) (d : List Byte) : Option (List Byte) :=
  let p := Config.gcmDec s.kek ((d.drop 0x10).take 12) ((d.drop 1).take 15) ((d.drop 0x20).take 64)
  if fitBytes 16 p.2 = (d.drop 0x60).take 16 then some (fitBytes 64 p.1) else none

/-- The key register k of a list of key registers takes a key. -/
def putKey (l : List (Nat × List Byte)) (k : Nat) (key : List Byte) : List (Nat × List Byte) := (k, key) :: l.filter (·.1 != k)

/-- The TARGET of a destination exists (Table 15.5). -/
def targetOk (dest target : Nat) : Bool :=
  match dest with
  | 0 => decide (target < 16)
  | 1 => decide (target % 8 < 6) && decide (target < 128)
  | 2 => decide (target < 16)
  | 3 => target == 0
  | 4 => target == 0
  | _ => false

/-- A destination accepts a KTYPE (Table 15.5). -/
def State.acceptsKey (s : State) (dest target ktype : Nat) : Bool :=
  match dest with
  | 0 => ktype == 1 || ktype == 2
  | 1 => ktype == s.get (PORT_SEC_CFG_CIPHER (target % 8)) % 2 + 1
  | 2 => ktype == 1
  | 3 => ktype == 3
  | _ => ktype == 2

/-- The SA slot of a MACsec TARGET: 0 and 1 transmit, 2 + 2c + s receive. -/
def saOf (target : Nat) : Nat :=
  if bit target 3 then 2 + 2 * bits target 4 2 + bits target 6 1 else bits target 6 1

/-- A key reaches its target (R461, R464); `blk` is the parameter block of Table 15.6, empty where there is none. -/
def State.placeKey (s : State) (dest target : Nat) (key blk : List Byte) : State :=
  let k := s.keys
  match dest with
  | 0 => (s.setKeys { k with cry := putKey k.cry target key }).setBits CRY_KEYS (2 ^ target)
  | 1 =>
    let p := target % 8
    let i := saOf target
    let s := s.setEth { s.eth with
      sa := ins s.eth.sa (16 * p + i) ⟨key, fieldAt blk 0 1 % 4, fieldAt blk 4 4, fitBytes 12 ((blk.drop 0x10).take 12)⟩ }
    if i < 2 then
      (s.setBits (PORT_SEC_STAT_TXKEY p) (2 ^ i)).set64 (PORT_SEC_TXPN_LO p i) (PORT_SEC_TXPN_HI p i) (fieldAt blk 8 8)
    else
      (s.setBits (PORT_SEC_STAT_RXKEY p) (2 ^ (i - 2))).set64 (PORT_SEC_RXPN_LO p (i - 2)) (PORT_SEC_RXPN_HI p (i - 2))
        (fieldAt blk 8 8)
  | 2 => (s.setKeys { k with cgw := putKey k.cgw target key }).setBits CGW_STAT_KEYS (2 ^ target)
  | 3 => (s.setKeys { k with ledgerKey := some key }).keyRefresh
  | _ => (s.setKeys { k with sealerKey := some key }).keyRefresh

/-- The key of one target is zeroised (R464). -/
def State.dropKey (s : State) (dest target : Nat) : State :=
  let k := s.keys
  match dest with
  | 0 => (s.setKeys { k with cry := k.cry.filter (·.1 != target) }).clrBits CRY_KEYS (2 ^ target)
  | 1 =>
    let p := target % 8
    let i := saOf target
    let s := s.setEth { s.eth with sa := del s.eth.sa (16 * p + i) }
    if i < 2 then s.clrBits (PORT_SEC_STAT_TXKEY p) (2 ^ i) else s.clrBits (PORT_SEC_STAT_RXKEY p) (2 ^ (i - 2))
  | 2 => (s.setKeys { k with cgw := k.cgw.filter (·.1 != target) }).clrBits CGW_STAT_KEYS (2 ^ target)
  | 3 => (s.setKeys { k with ledgerKey := none }).keyRefresh
  | _ => (s.setKeys { k with sealerKey := none }).keyRefresh

/-- Every key but the root is destroyed: the key register, the keys of every destination, every slot half (R456, R457). -/
def State.destroyKeys (s : State) : State :=
  let s := s.setKeys { s.keys with keyReg := none, ledgerKey := none, sealerKey := none, cry := [], cgw := [] }
  let s := ((s.setEth { s.eth with sa := [] }).set CRY_KEYS 0).set CGW_STAT_KEYS 0
  let s := (List.range 6).foldl (fun (s : State) p => (s.set (PORT_SEC_STAT_TXKEY p) 0).set (PORT_SEC_STAT_RXKEY p) 0) s
  (s.zeroFill 0x10FE0000 0x10FE4000).keyRefresh

/-! ### Command channels (R465, R484) -/

/-- KEY_ARG and KEY_ARG2 of a channel. -/
def State.keyArg (s : State) (c : Nat) : Nat := s.get64 (KEY_ARG_LO c) (KEY_ARG_HI c)

/-- KEY_ARG2 of a channel. -/
def State.keyArg2 (s : State) (c : Nat) : Nat := s.get64 (KEY_ARG2_LO c) (KEY_ARG2_HI c)

/-- KEY_RESULT of a channel is written, with event 240 or 241 (Table 15.21). -/
def State.keyResult (s : State) (c r : Nat) : State := (s.set (KEY_RESULT_RESULT c) r).raise (240 + c)

/-- The operation of a channel ends. -/
def State.keyDone (s : State) (c r : Nat) : State :=
  ((s.setKeys { s.keys.endFor (.chan c) with keyReg := none }).set (KEY_RESULT_BUSY c) 0).keyResult c r

/-- The channel is occupied: by a command of its own, channel 0 also by a debug token (R465, R503). -/
def State.keyBusy (s : State) (c : Nat) : Bool := s.on (KEY_RESULT_BUSY c) || (c == 0 && s.dbg.checking)

/-- A tamper alarm of start-up is latched (R478). -/
def State.bootAlarm (s : State) : Bool := s.get KEY_TAMPER_BOOT != 0

/-- A write of KEY_CMD with operation `op` (R465, R484): a busy channel refuses it; an operation that channel 1 does not take, and
one that does not exist, complete at once; any other is accepted and waits. -/
def keyCommand (a : Agent) (c : Fin 2) (op : Nat) (v : Word) (s : State) : Out :=
  regCommand a (KEY_CMD_OP c.val).addr s (fun s =>
    let idx := bits v.toNat 8 6
    if s.keyBusy c.val then s.keyResult c.val 2
    else
      let s := s.set (KEY_RESULT_OP c.val) op
      if c.val = 1 ∧ ¬ (op = 3 ∨ op = 6 ∨ (op = 4 ∧ 8 ≤ idx ∧ idx < 16)) then s.keyResult c.val 0xE
      else if op = 0 ∨ 8 < op then s.keyResult c.val 6
      else
        let cmd : KeyCmd := ⟨op, idx, bits v.toNat 16 3, bits v.toNat 24 8⟩
        (s.setKeys (if c.val = 0 then { s.keys with wait0 := some cmd } else { s.keys with wait1 := some cmd })).set
          (KEY_RESULT_BUSY c.val) 1)

/-- KEY_CMD, OP DELIVER. -/
def execKeyDeliver (a : Agent) (c : Fin 2) (v : Word) (s : State) : Out := keyCommand a c 1 v s
/-- KEY_CMD, OP UPDATE. -/
def execKeyUpdate (a : Agent) (c : Fin 2) (v : Word) (s : State) : Out := keyCommand a c 2 v s
/-- KEY_CMD, OP ATTEST. -/
def execKeyAttest (a : Agent) (c : Fin 2) (v : Word) (s : State) : Out := keyCommand a c 3 v s
/-- KEY_CMD, OP EXTEND. -/
def execKeyExtend (a : Agent) (c : Fin 2) (v : Word) (s : State) : Out := keyCommand a c 4 v s
/-- KEY_CMD, OP VERIFY_IMAGE. -/
def execKeyVerifyImage (a : Agent) (c : Fin 2) (v : Word) (s : State) : Out := keyCommand a c 5 v s
/-- KEY_CMD, OP EXPORT_PUB. -/
def execKeyExportPub (a : Agent) (c : Fin 2) (v : Word) (s : State) : Out := keyCommand a c 6 v s
/-- KEY_CMD, OP REVOKE. -/
def execKeyRevoke (a : Agent) (c : Fin 2) (v : Word) (s : State) : Out := keyCommand a c 7 v s
/-- KEY_CMD, OP PERSONALISE. -/
def execKeyPersonalise (a : Agent) (c : Fin 2) (v : Word) (s : State) : Out := keyCommand a c 8 v s
/-- KEY_CMD with an OP outside 0x1 to 0x8. -/
def execKeyInvalidOp (a : Agent) (c : Fin 2) (v : Word) (s : State) : Out :=
  keyCommand a c (let op := bits v.toNat 0 4; if op ≤ 8 then 0 else op) v s

/-- The request the free key manager starts next (R465): REC, the VERIFY_IMAGE that was interrupted for REC, VFM, the Secure
channel (a command or a debug token), the Normal channel. -/
def State.keyPick (s : State) : State :=
  let k := s.keys
  if s.on REC_STAT_STMT_BUSY || s.on REC_STAT_CLR_BUSY then s.setKeys { k with run := some .recorder }
  else match k.paused with
  | some c => s.setKeys { k with run := some (.chan c), paused := none }
  | none =>
    if k.job.isSome then s.setKeys { k with run := some .vfm }
    else match k.wait0 with
    | some cmd => s.setKeys { k with run := some (.chan 0), runCmd := cmd, wait0 := none }
    | none =>
      if s.dbg.checking then s.setKeys { k with run := some (.chan 0), runCmd := ⟨15, 0, 0, 0⟩ }
      else match k.wait1 with
      | some cmd => s.setKeys { k with run := some (.chan 1), runCmd := cmd, wait1 := none }
      | none => s

/-- KEY_OPERATION_START (R465): nothing starts before the recovery of R469; a running VERIFY_IMAGE gives way to REC only. -/
def execKeyOperationStart (s : State) : Out :=
  whenLive .key s (fun s =>
    if !s.keys.recovered then s
    else match s.keys.run with
    | none => s.keyPick
    | some (.chan c) =>
      if s.keys.runCmd.op = 5 ∧ (s.on REC_STAT_STMT_BUSY || s.on REC_STAT_CLR_BUSY) = true then
        s.setKeys { s.keys with run := some .recorder, paused := some c }
      else s
    | some _ => s)

/-! ### Operations -/

/-- DELIVER's parameter block at ARG (R462): the block and its label and context; `none` where it does not fit Table 15.6. -/
def State.deliverBlock (s : State) (c : Nat) : BusRes × Option (List Byte) × State :=
  let a := s.keyArg c
  if a = 0 then (.ok [], some [], s)
  else if a % 16 ≠ 0 then (.ok [], none, s)
  else
    let r := s.busRead .keyMgr a 32
    match r.1 with
    | .ok d =>
      let n := fieldAt d 2 2
      if 256 < n ∨ 1 < fieldAt d 1 1 ∨ !allZero ((d.drop 0x1C).take 4) then (.ok [], none, r.2)
      else
        let x := r.2.busRead .keyMgr (a + 32) n
        match x.1 with
        | .ok e => (.ok [], some (d ++ e), x.2)
        | e => (e, none, x.2)
    | e => (e, none, r.2)

/-- The block that holds the keys of a destination (Table 15.5). -/
def targetBlock (dest : Nat) : Block :=
  match dest with
  | 0 => .cry
  | 1 => .eth
  | 2 => .cgw
  | _ => .key

/-- DELIVER (R461 to R464). In the hold state no key is unwrapped (R68): the result is that of a start-up alarm. A target whose block
is stopped takes no key (R81): the operation waits for it. Both are this model's choices (DESIGN CHOICE, log entry 169). -/
def State.keyDeliver (s : State) (c : Nat) (m : KeyCmd) : State :=
  if s.lifecycle = 0 ∨ s.lifecycle = 4 ∨ s.bootAlarm = true ∨ s.pwr.phase = .hold then s.keyDone c 0xB
  else if !targetOk m.dest m.target then s.keyDone c 6
  else if !s.holdsKey m.idx then s.keyDone c 7
  else
    let r := s.busRead .keyMgr (halfAddr m.idx ((s.activeHalf m.idx).getD 0)) 128
    match r.1 with
    | .ok d =>
      let s := r.2
      let ktype := fieldAt d 1 1
      if !bit (fieldAt d 2 1) m.dest then s.keyDone c 8
      else if !s.acceptsKey m.dest m.target ktype then s.keyDone c 9
      else
        let b := s.deliverBlock c
        match b.1, b.2.1 with
        | .ok _, none => b.2.2.keyDone c 6
        | .ok _, some blk => (match s.unwrapHalf d with
          | none => b.2.2.keyDone c 7
          | some key =>
            if !(targetBlock m.dest).live s then s else
            let n := ktypeLen ktype
            let k := if bit (fieldAt blk 1 1) 0 then fitBytes n (Config.kdf (key.take n) (blk.drop 32) n) else key.take n
            (b.2.2.placeKey m.dest m.target k blk).keyDone c 1)
        | _, _ => b.2.2.keyDone c 0xC
    | _ => r.2.keyDone c 0xC

/-- REVOKE (R464); like a delivery it waits for a target whose block is stopped (R81). -/
def State.keyRevoke (s : State) (c : Nat) (m : KeyCmd) : State :=
  if s.lifecycle = 0 then s.keyDone c 0xB
  else if !targetOk m.dest m.target then s.keyDone c 6
  else if !(targetBlock m.dest).live s then s
  else (s.dropKey m.dest m.target).keyDone c 1

/-- Measurement register `i` (R473). -/
def State.measure (s : State) (i : Nat) : List Byte := (List.range 12).flatMap (fun w => leBytes 4 (s.get (KEY_MEAS i w)))

/-- Measurement register `i` is extended with `d` (R473). -/
def State.extendWith (s : State) (i : Nat) (d : List Byte) : State :=
  let h := fitBytes 48 (Config.sha384 (s.measure i ++ d))
  (List.range 12).foldl (fun (s : State) w => s.set (KEY_MEAS i w) (fieldAt h (4 * w) 4)) s

/-- A measurement register that a channel's command may extend (R473): MEAS0 takes the boot ROM's image only. -/
def mayExtend (c i : Nat) : Bool := decide (if c = 0 then 1 ≤ i ∧ i < 16 else 8 ≤ i ∧ i < 16)

/-- EXTEND (R473). -/
def State.keyExtend (s : State) (c : Nat) (m : KeyCmd) : State :=
  if !mayExtend c m.idx then s.keyDone c 0xE
  else
    let r := s.busRead .keyMgr (s.keyArg c) 48
    match r.1 with
    | .ok d => (r.2.extendWith m.idx d).keyDone c 1
    | _ => r.2.keyDone c 0xC

/-- The format of an image header, and its KIND (Table 15.13). -/
def imageFormat (h : List Byte) (kind : Nat) : Bool :=
  fieldAt h 0 4 == 0x474D4951 && fieldAt h 4 2 == 1 && fieldAt h 6 1 == kind && fieldAt h 7 1 == 0
    && allZero ((h.drop 0x18).take 8) && decide (1 ≤ kind) && decide (kind ≤ 4)

/-- The check of an image whose header and signatures are at `hdr` and whose payload is loaded at `pay` (R472): 1 where it
verifies, with the header. In RAW the signatures are not checked. -/
def State.checkImage (s : State) (hdr pay kind : Nat) (sigOk : Bool) : Nat × List Byte × State :=
  let raw := s.lifecycle == 0
  let r := s.busRead .keyMgr hdr (if raw then 0x50 else 0xB0 + 3309)
  match r.1 with
  | .ok d =>
    let h := d.take 0x50
    if !imageFormat h kind then (6, h, r.2)
    else if !raw && !sigOk then (3, h, r.2)
    else
      let p := r.2.busRead .keyMgr pay (fieldAt h 0xC 4)
      (match p.1 with
      | .ok b =>
        if fitBytes 48 (Config.sha384 b) = (h.drop 0x20).take 48 ∧ s.keyState.minSvn ≤ fieldAt h 8 4 then (1, h, p.2)
        else (0xF, h, p.2)
      | _ => (0xC, h, p.2))
  | _ => (0xC, [], r.2)

/-- VERIFY_IMAGE (R472). -/
def State.keyVerifyImage (s : State) (c : Nat) (m : KeyCmd) (sigOk : Bool) : State :=
  if !mayExtend c m.idx then s.keyDone c 0xE
  else
    let r := s.checkImage (s.keyArg c) (s.keyArg2 c) (s.get (KEY_AUX c) % 256) sigOk
    if r.1 = 1 then (r.2.2.extendWith m.idx (fitBytes 48 (Config.sha384 r.2.1))).keyDone c 1 else r.2.2.keyDone c r.1

/-- An output is written at ARG2. -/
def State.keyOutput (s : State) (c : Nat) (d : List Byte) : State :=
  let w := s.busWrite .keyMgr (s.keyArg2 c) d
  w.2.keyDone c (if w.1.cause = 0 then 1 else 0xC)

/-- An attestation statement (Tables 15.14 and 15.15). -/
def State.attestation (s : State) (nonce : List Byte) (mask : Nat) (sig : List Byte) : List Byte :=
  let meas := ((List.range 16).filter (fun i => bit mask i)).flatMap s.measure
  s.statement 1 (s.stmtHead 0 ++ nonce ++ leBytes 2 mask ++ leBytes 14 0 ++ meas) sig

/-- ATTEST (R475). -/
def State.keyAttest (s : State) (c : Nat) (sig : List Byte) : State :=
  if s.lifecycle = 0 then s.keyDone c 0xB
  else
    let r := s.busRead .keyMgr (s.keyArg c) 32
    match r.1 with
    | .ok nonce => r.2.keyOutput c (r.2.attestation nonce (r.2.get (KEY_AUX c)) sig)
    | _ => r.2.keyDone c 0xC

/-- The output of EXPORT_PUB (Table 15.16): the public keys of the root. -/
def exportBytes (r : List Byte) : List Byte :=
  let k (i n : Nat) : List Byte := fitBytes n (Config.publicKey i r)
  k 0 97 ++ leBytes 3 0 ++ k 1 1952 ++ leBytes 12 0 ++ k 2 97 ++ leBytes 3 0 ++ k 3 1184

/-- EXPORT_PUB (R475). -/
def State.keyExport (s : State) (c : Nat) : State :=
  match s.lifecycle, s.otp.root with
  | 0, _ => s.keyDone c 0xB
  | _, none => s.keyDone c 0xB
  | _, some r => s.keyOutput c (exportBytes r)

/-- PERSONALISE (R458), of whose five steps `upTo` are done: root row, the keys' copies in MRAM, the two hash rows, P. -/
def State.keyPersonalise (s : State) (c upTo : Nat) : State :=
  if s.lifecycle ≠ 0 ∨ s.bootAlarm = true then s.keyDone c 0xB
  else
    let ec := s.busRead .keyMgr (s.keyArg c) 97
    let ml := ec.2.busRead .keyMgr (s.keyArg2 c) 1952
    match ec.1, ml.1 with
    | .ok e, .ok m =>
      let s := ml.2
      let he := fitBytes 48 (Config.sha384 e)
      let hm := fitBytes 48 (Config.sha384 m)
      if !(s.otp.authEc == none || s.otp.authEc == some he) || !(s.otp.authMl == none || s.otp.authMl == some hm) then
        s.keyDone c 0xB
      else
        let s := if 1 ≤ upTo ∧ s.otp.root = none then
            let d := s.drawBytes 32
            { d.2 with otp := { d.2.otp with root := some d.1 } }
          else s
        let s := if 2 ≤ upTo then ((s.busWrite .keyMgr 0x10FE4000 e).2.busWrite .keyMgr 0x10FE4064 m).2 else s
        let s := if 3 ≤ upTo then { s with otp := { s.otp with authEc := some he } } else s
        let s := if 4 ≤ upTo then { s with otp := { s.otp with authMl := some hm } } else s
        if 5 ≤ upTo then ({ s with otp := { s.otp with pFuse := true } }.keyRefresh.reachesMoved s.reaches).keyDone c 1 else s
    | _, _ => ml.2.keyDone c 0xC

/-! ### Key update messages (R466, R468) -/

/-- The format of a message that UPDATE takes (R466, check 2). -/
def updFormat (m : List Byte) : Bool :=
  let b := m.drop 32
  match fieldAt m 6 1 with
  | 1 => msgFormat m 1 0x504 && decide (fieldAt b 0 1 < 64) && decide (1 ≤ fieldAt b 1 1) && decide (fieldAt b 1 1 ≤ 3)
      && decide (fieldAt b 2 1 < 32) && fieldAt b 3 1 == 0 && allZero ((b.drop 0x65).take 3)
  | 2 => msgFormat m 2 16 && decide (fieldAt b 0 1 < 64) && allZero ((b.drop 1).take 15)
  | 3 => msgFormat m 3 16 && allZero ((b.drop 1).take 15)
  | 5 => msgFormat m 5 16 && allZero ((b.drop 4).take 12)
  | _ => false

/-- A lifecycle transition that Table 15.2 has. -/
def lcMove (state target : Nat) : Bool :=
  match state with
  | 1 => target == 2 || target == 4
  | 2 => target == 3 || target == 4
  | 3 => target == 2 || target == 4
  | _ => false

/-- The public keys of the authority in MRAM hash to the authority row (R466, check 7). -/
def State.authorityOk (s : State) : Bool :=
  match s.viewBytes 0x10FE4000 97, s.viewBytes 0x10FE4064 1952 with
  | some e, some m => s.otp.authEc == some (fitBytes 48 (Config.sha384 e)) && s.otp.authMl == some (fitBytes 48 (Config.sha384 m))
  | _, _ => false

/-- Checks 2 to 4 and 7 of R466, which REC and DBG share; `format` and `lc` are the first and the third; 1 where all pass. -/
def State.msgChecks (s : State) (m : List Byte) (format : Bool) (lc : Bool) (sigOk : Bool) : Nat :=
  if !format then 6
  else if (m.drop 0x10).take 16 ≠ s.moduleId then 4
  else if !lc then 0xB
  else if !(sigOk && s.authorityOk) then 3
  else 1

/-- The checks of an update message (R466): the first that fails, or 1. -/
def State.updCheck (s : State) (m : List Byte) (sigOk : Bool) : Nat :=
  let state := s.lifecycle
  let cnt := fieldAt m 8 4
  let target := fieldAt m 32 1
  let lc := state != 0 && state != 4 && !s.bootAlarm && (fieldAt m 6 1 != 3 || lcMove state target)
  let r := s.msgChecks m (updFormat m) lc true
  if r ≠ 1 ∧ r ≠ 3 then r
  else if cnt ≤ s.effCounter then 5
  else if s.effCounter + 1024 < cnt ∨ 16383 < cnt ∨ (fieldAt m 6 1 = 3 ∧ state = 2 ∧ target = 3 ∧ s.otp.lcGen = 127) then 0xD
  else s.msgChecks m true true sigOk

/-- The hash of the signed bytes in the ledger payload (Table 15.12). -/
def msgHash (m : List Byte) : List Byte := fitBytes 32 (Config.sha384 (m.take (32 + fieldAt m 0xC 2)))

/-- The ledger record of a key update or a lifecycle transition becomes due (R470). -/
def State.updRecord (s : State) (typ command outcome b2 b3 counter word : Nat) (hash : List Byte) : State :=
  s.ledgerDue typ (leBytes 1 command ++ leBytes 1 outcome ++ leBytes 1 b2 ++ leBytes 1 b3 ++ leBytes 4 counter ++ leBytes 4 word
    ++ leBytes 4 0 ++ fitBytes 32 hash) none

/-- The key of a WRITE_SLOT message (Table 15.10); `none` where its tag differs. -/
def State.decapsulate (s : State) (m : List Byte) : Option (List Byte) :=
  let b := m.drop 32
  let shared := Config.sharedSecret (s.otp.root.getD []) ((b.drop 4).take 97) ((b.drop 0x68).take 1088)
  let key := fitBytes 32 (Config.sha384 (shared ++ m.take 32))
  let p := Config.gcmDec key ((b.drop 0x4A8).take 12) (m.take 32 ++ b.take 4) ((b.drop 0x4B4).take 64)
  if fitBytes 16 p.2 = (b.drop 0x4F4).take 16 then some (fitBytes 64 p.1) else none

/-- High-water fuses are written for a counter (R468, step 1). -/
def State.hwmFuses (s : State) (counter : Nat) : State := { s with otp := { s.otp with hwm := max s.otp.hwm (counter / 32) } }

/-- The counter of a message is committed (R468, step 3). -/
def State.commitCounter (s : State) (counter minSvn : Nat) : State :=
  (s.putState { s.keyState with counter := counter, minSvn := minSvn }).keyRefresh

/-- Half `h` of slot `n` becomes VALID, or ERASED for KTYPE 0, and the other half is zeroed (R468, step 4). -/
def State.settleHalf (s : State) (n h : Nat) (ktype : Nat) : State :=
  let s := (s.busWrite .keyMgr (halfAddr n h) [if ktype = 0 then 3 else 2]).2
  (s.zeroFill (halfAddr n (1 - h)) (halfAddr n (1 - h) + 128)).keyRefresh

/-- Step `n` of the UPDATE in progress is done, unless it was done before or lies beyond `upTo`. -/
def State.updStep (s : State) (n upTo : Nat) (f : State → State) : State :=
  if s.keys.step < n ∧ n ≤ upTo then
    let s := f s
    s.setKeys { s.keys with step := n }
  else s

/-- WRITE_SLOT and ERASE_SLOT (R468), of whose five steps `upTo` are done. -/
def State.updSlot (s : State) (c : Nat) (m : List Byte) (upTo : Nat) : State :=
  let b := m.drop 32
  let write := fieldAt m 6 1 == 1
  let cnt := fieldAt m 8 4
  let slot := fieldAt b 0 1
  let ktype := if write then fieldAt b 1 1 else 0
  let dest := if write then fieldAt b 2 1 else 0
  let s := s.updStep 1 upTo (fun s => s.hwmFuses cnt)
  match (if write ∧ s.keys.step < 2 then s.decapsulate m else some []) with
  | none => if 2 ≤ upTo then s.keyRefresh.keyDone c 7 else s
  | some key =>
    let h := s.spareHalf slot
    let s := s.updStep 2 upTo (fun s =>
      let w := s.wrapHalf ktype dest cnt key
      (w.2.busWrite .keyMgr (halfAddr slot h) w.1).2)
    let s := s.updStep 3 upTo (fun s => s.commitCounter cnt s.keyState.minSvn)
    let s := s.updStep 4 upTo (fun s => s.settleHalf slot h ktype)
    if 5 ≤ upTo then
      (s.updRecord 3 (fieldAt m 6 1) 0 slot dest cnt ktype (msgHash m)).keyDone c 1
    else s

/-- MIN_SVN (R468). -/
def State.updMinSvn (s : State) (c : Nat) (m : List Byte) (upTo : Nat) : State :=
  let cnt := fieldAt m 8 4
  let svn := fieldAt m 32 4
  let s := s.updStep 1 upTo (fun s => s.hwmFuses cnt)
  let s := s.updStep 3 upTo (fun s => s.commitCounter cnt svn)
  if 5 ≤ upTo then (s.updRecord 3 5 0 0xFF 0 cnt svn (msgHash m)).keyDone c 1 else s

/-- The fuse of a lifecycle transition is written (Table 15.2). -/
def State.lcFuse (s : State) (target : Nat) : State :=
  { s with otp := if target = 4 then { s.otp with dFuse := true } else { s.otp with lcGen := s.otp.lcGen + 1 } }

/-- The recorder can write a record at once. -/
def State.recReady (s : State) : Bool :=
  Block.recorder.live s && s.on REC_STAT_READY && !s.on REC_STAT_CLOSED && s.recArea.busy.isNone

/-- Every ledger record that is due or queued is written, in order. -/
def State.flushLedger (s : State) : State :=
  let due := s.recorder.due.filter (·.ledger)
  let s := s.setRec { s.recorder with due := s.recorder.due.filter (fun r => !r.ledger) }
  let q := s.recorder.lgQ ++ due.map (fun r => s.stamped r false false)
  (q.foldl (fun (s : State) e => s.recWrite e none 3) (s.setRec { s.recorder with lgQ := [] }))

/-- LC_SEEN and D_SEEN follow the fuses (R457, step 5). -/
def State.seeFuses (s : State) : State :=
  (s.putState { s.keyState with lcSeen := s.otp.lcGen, dSeen := s.otp.dFuse }).keyRefresh

/-- The lifecycle state of fuses D and LC_GEN, with P written. -/
def lcOf (d : Bool) (gen : Nat) : Nat := if d then 4 else if gen = 0 then 1 else if gen % 2 = 1 then 2 else 3

/-- The lifecycle state from which a transition in progress started. -/
def State.lcBefore (s : State) (target : Nat) : Nat :=
  if s.keys.step < 2 then s.lifecycle else lcOf false (if target = 4 then s.otp.lcGen else s.otp.lcGen - 1)

/-- LIFECYCLE (R457), of whose five steps `upTo` are done. Its record is written before the reset, so the key manager waits after
step 3 for a recorder that cannot write. -/
def State.updLifecycle (s : State) (m : List Byte) (upTo : Nat) : State :=
  let cnt := fieldAt m 8 4
  let target := fieldAt m 32 1
  let before := s.lcBefore target
  let upTo := if s.recReady then upTo else min upTo 3
  let s := s.updStep 1 upTo (fun s => (s.hwmFuses cnt).commitCounter cnt s.keyState.minSvn)
  let s := s.updStep 2 upTo (fun s => s.lcFuse target)
  let s := s.updStep 3 upTo State.destroyKeys
  let s := s.updStep 4 upTo (fun s => (s.updRecord 4 3 0 before s.lifecycle cnt s.otp.lcGen (msgHash m)).flushLedger)
  if 5 ≤ upTo then s.seeFuses.heldReset .held RST_CAUSE_SYS_SW else s

/-- The UPDATE in progress executes its message up to step `upTo`. -/
def State.updRun (s : State) (c : Nat) (m : List Byte) (upTo : Nat) : State :=
  if fieldAt m 6 1 = 3 then s.updLifecycle m upTo
  else if fieldAt m 6 1 = 5 then s.updMinSvn c m upTo
  else s.updSlot c m upTo

/-- UPDATE (R466, R468): one that has begun to execute goes on with the message it holds. -/
def State.keyUpdate (s : State) (c : Nat) (sigOk : Bool) (upTo : Nat) : State :=
  if s.keys.step ≠ 0 then s.updRun c s.keys.msg upTo else
  let a := s.keyArg c
  let h := s.busRead .keyMgr a 32
  match h.1 with
  | .ok d =>
    let r := s.busRead .keyMgr a (min (0x80 + fieldAt d 0xC 2 + 3309) 5120)
    (match r.1 with
    | .ok m =>
      let s := r.2
      let e := s.updCheck m sigOk
      if e ≠ 1 then s.keyDone c e else (s.setKeys { s.keys with msg := m }).updRun c m upTo
    | _ => r.2.keyDone c 0xC)
  | _ => h.2.keyDone c 0xC

/-- KEY_OPERATION_COMPLETE (R465): the operation of the command channel in progress is done. -/
def execKeyOperationComplete (sigOk : Bool) (sig : List Byte) (upTo : Fin 6) (s : State) : Out :=
  whenLive .key s (fun s =>
    match s.keys.run with
    | some (.chan c) =>
      let m := s.keys.runCmd
      (match m.op with
      | 2 => s.keyUpdate c sigOk upTo.val
      | 8 => s.keyPersonalise c upTo.val
      | op =>
        if upTo.val < 5 then s
        else match op with
        | 1 => s.keyDeliver c m
        | 3 => s.keyAttest c sig
        | 4 => s.keyExtend c m
        | 5 => s.keyVerifyImage c m sigOk
        | 6 => s.keyExport c
        | 7 => s.keyRevoke c m
        | _ => s)
    | _ => s)

/-! ### The sealer (R476) -/

/-- The request of VFM has given `out`. -/
def State.sealDone (s : State) (j : SealJob) (out : Option (List Byte)) : State :=
  s.setKeys { s.keys.endFor .vfm with job := some { j with out := some out } }

/-- The header of a sealed form (Table 15.17). -/
def sealHead (id iv : List Byte) : List Byte :=
  leBytes 4 0x4C455351 ++ leBytes 2 1 ++ leBytes 2 0x200 ++ fitBytes 16 id ++ fitBytes 12 iv ++ leBytes 12 0

/-- KEY_SEAL: without a sealer key, and in RAW, the request fails. -/
def execKeySeal (s : State) : Out :=
  whenLive .key s (fun s =>
    match s.keys.job with
    | some j =>
      if s.keys.run ≠ some .vfm ∨ !j.sealing ∨ j.out.isSome then s
      else (match s.keys.sealerKey with
      | none => s.sealDone j none
      | some k =>
        if s.lifecycle = 0 then s.sealDone j none
        else
          let iv := s.drawBytes 12
          let h := sealHead s.moduleId iv.1
          let c := Config.gcmEnc k iv.1 h (fitBytes 512 j.data)
          iv.2.sealDone j (some (h ++ fitBytes 512 c.1 ++ fitBytes 16 c.2)))
    | none => s)

/-- A sealed form has the MAGIC, VERSION and LENGTH of Table 15.17. -/
def sealFormat (d : List Byte) : Bool := fieldAt d 0 4 == 0x4C455351 && fieldAt d 4 2 == 1 && fieldAt d 6 2 == 0x200

/-- The blob in a sealed form; `none` where UNSEAL fails. It is also refused in RAW and DECOMMISSIONED and after a start-up alarm
(Tables 15.1 and 15.19). -/
def State.unsealed (s : State) (d : List Byte) : Option (List Byte) :=
  match s.keys.sealerKey with
  | none => none
  | some k =>
    if s.lifecycle = 0 ∨ s.lifecycle = 4 ∨ s.bootAlarm ∨ !sealFormat d then none
    else
      let p := Config.gcmDec k ((d.drop 0x18).take 12) (d.take 0x30) ((d.drop 0x30).take 512)
      if fitBytes 16 p.2 = (d.drop 0x230).take 16 then some (fitBytes 512 p.1) else none

/-- KEY_UNSEAL. -/
def execKeyUnseal (s : State) : Out :=
  whenLive .key s (fun s =>
    match s.keys.job with
    | some j =>
      if s.keys.run ≠ some .vfm ∨ j.sealing ∨ j.out.isSome then s
      else s.sealDone j (s.unsealed j.data)
    | none => s)

/-! ### Start-up recovery (R469, R457, R479) -/

/-- A PENDING half is completed or abandoned. -/
def State.recoverHalf (s : State) (n h : Nat) : State :=
  match s.keyHalf n h with
  | none => s
  | some d =>
    if fieldAt d 0 1 ≠ 1 then s
    else
      let ktype := fieldAt d 1 1
      let v := fieldAt d 4 4
      let done := decide (v ≤ s.effCounter)
      let s := if done then s.settleHalf n h ktype else s.zeroFill (halfAddr n h) (halfAddr n h + 128)
      let x := s.drawBytes 32
      (x.2.updRecord 3 (if ktype = 0 then 2 else 1) (if done then 1 else 2) n (fieldAt d 2 1) v ktype x.1).raise 243

/-- An unfinished lifecycle transition is completed (R457). -/
def State.recoverLifecycle (s : State) : State :=
  let k := s.keyState
  if k.lcSeen = s.otp.lcGen ∧ k.dSeen = s.otp.dFuse then s
  else
    let s := s.destroyKeys
    let x := s.drawBytes 32
    ((x.2.updRecord 4 3 1 (lcOf k.dSeen k.lcSeen) s.lifecycle k.counter s.otp.lcGen x.1).seeFuses).raise 243

/-- The alarm event of a monitor (Table 15.21). -/
def tamperEvent (m : Nat) : Nat := match m with
  | 0 => 8
  | 1 => 9
  | 2 => 9
  | 3 => 10
  | _ => 11

/-- The alarms of the last sleep are recorded (R479). -/
def State.recordAlarms (s : State) : State :=
  let l := s.pwr.alarms
  l.foldl (fun (s : State) p => (s.logDue 2 0x0F10 0 (2 ^ p.1) 1 p.2).raise (tamperEvent p.1))
    { s with pwr := { s.pwr with alarms := [] } }

/-- KEY_STARTUP_RECOVERY (R469). -/
def execKeyStartupRecovery (s : State) : Out :=
  whenLive .key s (fun s =>
    if s.keys.recovered then s
    else
      let s := s.recoverLifecycle
      let s := (List.range 64).foldl (fun (s : State) n => (s.recoverHalf n 0).recoverHalf n 1) s
      let s := s.recordAlarms
      (s.setKeys { s.keys with recovered := true }).keyRefresh)

/-- KEY_CTL.CLR_CNT (R484). -/
def execKeyClrCnt (a : Agent) (s : State) : Out := regCommand a KEY_CTL.addr s (fun s => s.set KEY_TAMPER_CNT 0)

/-! ### Tamper monitors (R477 to R479) -/

/-- Start-up, from reset to the jump to the SG0 image (Table 15.19). -/
def Phase.starting : Phase → Bool
  | .converters => true
  | .clocking => true
  | .zeroFill => true
  | .bootRom => true
  | .hold => true
  | _ => false

/-- Network sleep or deep sleep. -/
def Phase.asleep : Phase → Bool
  | .dusk => true
  | .closed => true
  | _ => false

/-- The UPDATE in progress has passed its commit point: the state copy, or the fuse of a transition, is written. -/
def State.updCommitted (s : State) : Bool := decide ((if fieldAt s.keys.msg 6 1 = 3 then 2 else 3) ≤ s.keys.step)

/-- A key operation that an alarm ends is in progress (Table 15.19, R478: an UPDATE past its commit point is none). -/
def State.keyOperation (s : State) : Bool :=
  match s.keys.run with
  | none => false
  | some .vfm => true
  | some .recorder => s.on REC_STAT_STMT_BUSY
  | some (.chan _) => s.keys.runCmd.op == 1 || (s.keys.runCmd.op == 2 && !s.updCommitted) || s.keys.runCmd.op == 3 || s.keys.runCmd.op == 8

/-- The key operation in progress is ended by an alarm: keys in work are zeroised, no output is written, result 0x0A. -/
def State.keyAbort (s : State) : State :=
  let s := s.setKeys { s.keys with keyReg := none }
  let s := match s.keys.run with
    | some (.chan c) => s.keyDone c 0xA
    | some .vfm => (match s.keys.job with
      | some j => s.sealDone j none
      | none => s.setKeys (s.keys.endFor .vfm))
    | some .recorder => s.stmtAbandon
    | none => s
  (s.set KEY_STAT_REG 0).raise 242

/-- The monitor's condition can arise (Table 15.18): the debug monitor in FIELD only, the link monitor on a reported burst; both
live in OPEN and SHADE. -/
def State.tamperLive (s : State) (m : Nat) : Bool :=
  match m with
  | 3 => s.awake && decide (0 < s.bursts)
  | 4 => s.awake && s.lifecycle == 2
  | _ => s.pwr.phase != .off

/-- An alarm in sleep (Table 2.6): the SLEEP bit and its tick count are latched, the module is in DUSK, its dwell starts anew. -/
def State.sleepAlarm (s : State) (m ticks : Nat) : State :=
  let n := s.get64 PWR_SLEEP_LO PWR_SLEEP_HI + ticks
  let s := (s.aonBoth PWR_SLEEP_LO n).aonBoth PWR_SLEEP_HI (n / 2 ^ 32)
  let s := s.aonBoth KEY_TAMPER_SLEEP (orBits (s.aonGet KEY_TAMPER_SLEEP) (2 ^ m))
  { s with pwr := { s.pwr with phase := .dusk, alarms := s.pwr.alarms ++ [(m, n)] } }

/-- TAMPER_MONITOR_FIRE (R478, R479). -/
def execTamperMonitorFire (m : Fin 5) (ticks : Nat) (s : State) : Out :=
  if !s.tamperLive m.val then .next s
  else
    let s := s.count KEY_TAMPER_CNT
    let s := if m.val = 3 then { s with bursts := s.bursts - 1 } else s
    let b := 2 ^ m.val
    if s.pwr.phase.asleep then done (s.sleepAlarm m.val ticks)
    else if s.pwr.phase.starting then
      let s := ((s.setBits KEY_TAMPER_BOOT b).set SYS_IDSTAT_TAMPER_BOOT 1).logDue 2 0x0F10 0 b 0 0
      let s := s.raise (tamperEvent m.val)
      done (if s.pwr.phase = .bootRom then { s with pwr := { s.pwr with phase := .hold } } else s)
    else
      let op := s.keyOperation
      let s := if op then s.keyAbort else s
      done (((s.setBits KEY_TAMPER_RUN b).logDue 2 0x0F10 0 b (if op then 2 else 3) 0).raise (tamperEvent m.val))

end Sys2Proof.Machine
end

