-- ==== Sys2Proof/Machine/Power.lean ====
section
/-! DEFINITION. Supplies, power states, start-up, resets and clock gates (Supplies, Power States and Start-up, R48 to R83). -/

namespace Sys2Proof.Machine

/-- The power controller is given a state. -/
def State.setPwr (s : State) (p : PowerSt) : State := { s with pwr := p }

/-! ### Supply (R48, R49) -/

/-- VBAT as it was last measured stands in PWR_VBAT and PWR_STAT (R48, Table 2.11). -/
def State.showSupply (s : State) : State :=
  match s.pwr.vbat with
  | some v => s.setAll [(PWR_VBAT, v), (PWR_STAT_VLOW, b2n (decide (v < 900))), (PWR_STAT_VHIGH, b2n (decide (3200 < v)))]
  | none => s

/-- The temperature as it was last measured stands in PWR_TEMP, and THROTTLE follows it: from above 135 °C until below
125 °C (R77). -/
def State.showTemp (s : State) : State :=
  match s.pwr.temp with
  | some t =>
    let s := s.set PWR_TEMP (unsigned t 16)
    if 540 < t then s.set CLK_APP_DIV_THROTTLE 1 else if t < 500 then s.set CLK_APP_DIV_THROTTLE 0 else s
  | none => s

/-- VBAT_SAMPLE (R48): the module measures in every phase, and shows what it measures while the control die runs. -/
def execVbatSample (v : Nat) (s : State) : Out :=
  let s := s.setPwr { s.pwr with vbat := some v }
  done (if s.awake then s.showSupply else s)

/-- POWER_ON_RESET (Table 2.9). -/
def execPowerOnReset (s : State) : Out := done s.powerOnReset

/-- POWER_ON_RELEASE (Table 2.1): the converters start; VBAT is still below 8.5 V, so the PHYs are held. -/
def execPowerOnRelease (s : State) : Out :=
  if s.pwr.phase = .off then done ((s.setPwr { s.pwr with phase := .converters, phyHold := true }).set RST_CAUSE_POR 1) else .next s

/-- Every link of the switch is down. -/
def State.linksDown (s : State) : State := (List.range 8).foldl (fun (s : State) p => s.portLink p false 0 false) s

/-- ETH_PHY_HOLD (Table 2.1): every link of the switch goes down; a gated ETH shows that when it runs again (R81). -/
def execEthPhyHold (s : State) : Out :=
  let s := s.setPwr { s.pwr with phyHold := true }
  done (if Block.eth.live s then s.linksDown else s)

/-- ETH_PHY_RELEASE (Table 2.1). -/
def execEthPhyRelease (s : State) : Out := done (s.setPwr { s.pwr with phyHold := false })

/-! ### Requests (R57 to R59, R79) -/

/-- PWR_RESULT is written by hardware, with event 2 (Table 2.10). -/
def State.pwrResult (s : State) (target code lost : Nat) : State :=
  (s.setAll [(PWR_RESULT_TARGET, target), (PWR_RESULT_CODE, code), (PWR_RESULT_STAGE_LOST, lost)]).raise 2

/-- A transition ends with a result. -/
def State.pwrEnd (s : State) (code lost : Nat) : State :=
  ((s.set PWR_STAT_BUSY 0).setPwr { s.pwr with target := 0 }).pwrResult s.pwr.target code lost

/-- A request for a state that is checked first (R79): busy, the current state, else `act`. -/
def pwrRequest (a : Agent) (t : Nat) (s : State) (act : State → State) : Out :=
  regCommand a PWR_REQ.addr s (fun s =>
    if s.on PWR_STAT_BUSY then s.pwrResult t 6 0
    else if s.get PWR_STATE_CUR = t then s.pwrResult t 1 0
    else act s)

/-- A transition to `t` begins. -/
def State.pwrBegin (s : State) (t : Nat) : State := (s.set PWR_STAT_BUSY 1).setPwr { s.pwr with target := t }

/-- ISL_APP is power-gated (R55, R59): running and freezing VFs are forced to FROZEN, the cores' state is lost, DRAM is in
self-refresh; the module is in SHADE. -/
def State.enterShade (s : State) : State :=
  let s := (List.range 32).foldl (fun (s : State) f => s.forcedFreeze f) s
  let s := { s with
    harts := delRange s.harts 8 12
    haltedHarts := s.haltedHarts % 256 }
  ((s.setPwr { s.pwr with appOff := true }).set PWR_STATE_CUR 2).pwrEnd 1 0

/-- The park of the application cores is in progress. -/
def State.parking (s : State) : Bool := s.on PWR_STAT_BUSY && s.pwr.target == 2

/-- PWR_REQ TARGET OPEN. -/
def execPwrReqOpen (a : Agent) (s : State) : Out := pwrRequest a 1 s (fun s => s.pwrBegin 1)

/-- SHADE_EXIT_COMPLETE (Table 2.6): ISL_APP is powered, every core is held, PARKED is cleared. -/
def execShadeExitComplete (s : State) : Out :=
  whenAwake s (fun s =>
    if s.on PWR_STAT_BUSY && s.pwr.target == 1 then
      (((s.setPwr { s.pwr with appOff := false }).setAll [(RST_APP, 15), (PWR_APP_PARK, 0), (PWR_STATE_CUR, 1)])).pwrEnd 1 0
    else s)

/-- PWR_REQ TARGET SHADE (R59): event 3; with all four bits set already, ISL_APP is gated at once. -/
def execPwrReqShade (a : Agent) (s : State) : Out :=
  pwrRequest a 2 s (fun s =>
    let s := (s.pwrBegin 2).raise 3
    if s.get PWR_APP_PARK = 15 then s.enterShade else s)

/-- A load channel's request is on, as the stage dies report it (R58). -/
def State.channelOn (s : State) : Bool :=
  s.psPowered && (List.range 4).any (fun d => (List.range 12).any (fun k => s.request d k))

/-- A segment managed by NMW has not passed its commit point (R58). -/
def State.segmentOpen (s : State) : Bool :=
  s.on NMW_CTL_EN && (List.range 20).any (fun g => s.on (SEG_CTL_MANAGED g) && s.seg g != 3)

/-- A request for DUSK or CLOSED (R58): the first refusal that applies, or the power-down sequence begins with the recorder
(R446). -/
def powerDown (a : Agent) (t : Nat) (s : State) : Out :=
  pwrRequest a t s (fun s =>
    if s.channelOn then s.pwrResult t 2 0
    else if s.segmentOpen then s.pwrResult t 3 0
    else if s.aonGet PWR_CFG_IGN_HOLD = 1 ∧ s.pwr.ign = true then s.pwrResult t 4 0
    else
      let s := s.pwrBegin t
      (s.setPwr { s.pwr with phase := .down1, back := s.pwr.phase }).recStop)

/-- PWR_REQ TARGET DUSK. -/
def execPwrReqDusk (a : Agent) (s : State) : Out := powerDown a 3 s

/-- PWR_REQ TARGET CLOSED. -/
def execPwrReqClosed (a : Agent) (s : State) : Out := powerDown a 4 s

/-- PWR_REQ with a TARGET outside 0x1 to 0x4 (R79). -/
def execPwrReqInvalid (a : Agent) (t : Fin 16) (s : State) : Out :=
  regCommand a PWR_REQ.addr s (fun s => s.pwrResult t.val (if s.on PWR_STAT_BUSY then 6 else 5) 0)

/-- PWR_APP_PARK (R59): core n sets its own bit and no other; the write of any other initiator sets none. -/
def execAppPark (a : Agent) (v : Word) (s : State) : Out :=
  regCommand a PWR_APP_PARK.addr s (fun s =>
    match a with
    | .core n =>
      let s := if bit v.toNat n.val then s.setBits PWR_APP_PARK (2 ^ n.val) else s
      if s.parking && s.get PWR_APP_PARK == 15 then s.enterShade else s
    | _ => s)

/-- PARK_TIMEOUT (R59). -/
def execParkTimeout (s : State) : Out :=
  whenAwake s (fun s => if s.parking then (s.set PWR_STAT_PARK_FORCED 1).enterShade else s)

/-! ### Power-down and wake (R60 to R63) -/

/-- The stage dies and the metering die lose their supply, or get it back and start from their reset. -/
def State.farPower (s : State) (on : Bool) : State :=
  let md := on && s.on SYS_STRAP_MD_EN
  let s := s.setPwr { s.pwr with stageOn := on, mdOn := md }
  let s := (s.set PWR_STAT_STAGE_PWR (b2n on)).set PWR_STAT_MD_PWR (b2n md)
  let s := (List.range 4).foldl (fun (s : State) d => s.psReset d) s
  if md then s.mdSession else s.resetRegs 0x50080000 0x50090000

/-- Step 2 of R60: the heartbeat stops, the links go down, LT_RUN clears, the far dies lose their supply. -/
def State.powerStep2 (s : State) : State :=
  let s := s.setAll [(BRG_CTL_LINK_EN, 0), (BRG_CTL_HB_EN, 0), (LCC_CTL_LT_RUN, 0)]
  let s := (List.range 5).foldl (fun (s : State) d => if s.link d = 0 then s else s.linkLeave d 0) s
  (s.farPower false).setPwr { s.pwr with phase := .down2, stageOn := false, mdOn := false }

/-- Steps 3 to 5 of R60: everything but ISL_AON, MRAM and NOR is off; `cal` is the ISL_AON clock in Hz; the sleep counter starts
(R62). -/
def State.powerSteps345 (s : State) (cal : Nat) : State :=
  let p : Phase := if s.pwr.target = 4 then .closed else .dusk
  let s := (s.controlReset .wake p).set CLK_AON_CAL cal
  (s.aonBoth PWR_SLEEP_LO 0).aonBoth PWR_SLEEP_HI 0

/-- POWERDOWN_CONTINUE (R60): step 1 also waits for a hand-over (R492). -/
def execPowerdownContinue (cal : Nat) (s : State) : Out :=
  match s.pwr.phase with
  | .down1 => if s.on WLD_HO_STAT_BUSY then .next s else done s.powerStep2
  | .down2 => done (s.powerSteps345 cal)
  | _ => .next s

/-- The tick counter of ISL_AON counts on (R62). -/
def State.sleepTicks (s : State) (n : Nat) : State :=
  let v := s.get64 PWR_SLEEP_LO PWR_SLEEP_HI + n
  (s.aonBoth PWR_SLEEP_LO v).aonBoth PWR_SLEEP_HI (v / 2 ^ 32)

/-- A wake source sets its bit in PWR_WAKE_CAUSE.SRC, in ISL_AON and in the mirror, which keeps what firmware has cleared (R19). -/
def State.wakeCause (s : State) (src : Nat) : State :=
  (s.setBits PWR_WAKE_CAUSE_SRC (2 ^ src)).aonSet PWR_WAKE_CAUSE_SRC (orBits (s.aonGet PWR_WAKE_CAUSE_SRC) (2 ^ src))

/-- POWERDOWN_CANCEL (R61). -/
def State.powerCancel (s : State) : State :=
  let lost := s.pwr.phase == .down2
  let s := if lost then (s.farPower true).evalAll else s
  ((s.setPwr { s.pwr with phase := s.pwr.back }).set REC_STAT_CLOSED 0).pwrEnd 7 (b2n lost)

/-- WAKE_RESET (Table 2.9, R83): start-up begins; PREV names the state left; a tamper alarm of the sleep is shown (Table 15.19). -/
def State.wakeReset (s : State) : State :=
  let prev := if s.pwr.phase = .closed then 4 else 3
  let s := if s.pwr.alarms = [] then s else s.aonBoth PWR_WAKE_CAUSE_TAMPER 1
  ((s.controlReset .wake .converters).aonBoth PWR_STATE_PREV prev).set RST_CAUSE_WAKE 1

/-- The source is armed, and a wake source in the state asked for or reached: in CLOSED only the local wake inputs (R61, R63). -/
def State.wakes (s : State) (src : Nat) (closed : Bool) : Bool := bit (s.aonGet PWR_WAKE_ARM) src && (!closed || decide (src < 8))

/-- AON_WAKE_SOURCE (R61, R63). Source 22 is IGN going high. -/
def execAonWakeSource (src : Fin 23) (ticks : Nat) (s : State) : Out :=
  let s := s.setPwr { s.pwr with ign := s.pwr.ign || src.val == 22 }
  match s.pwr.phase with
  | .down1 => if s.wakes src.val (s.pwr.target == 4) then done (s.wakeCause src.val).powerCancel else done s
  | .down2 => if s.wakes src.val (s.pwr.target == 4) then done (s.wakeCause src.val).powerCancel else done s
  | .dusk => if s.wakes src.val false then done ((s.wakeCause src.val).sleepTicks ticks).wakeReset else done s
  | .closed => if s.wakes src.val true then done ((s.wakeCause src.val).sleepTicks ticks).wakeReset else done s
  | _ => done s

/-- DWELL_EXPIRY (R62). -/
def execDwellExpiry (ticks : Nat) (s : State) : Out :=
  if s.pwr.phase = .dusk ∧ s.aonGet PWR_CFG_DWELL ≠ 0 then done ((s.sleepTicks ticks).setPwr { s.pwr with phase := .closed })
  else .next s

/-! ### Start-up (Table 2.7, R65 to R72) -/

/-- CONVERTERS_IN_REGULATION: control die and stage dies are powered. -/
def execConvertersInRegulation (s : State) : Out :=
  if s.pwr.phase = .converters then
    done ((((List.range 4).foldl (fun (s : State) d => s.psReset d)
      (s.setPwr { s.pwr with phase := .clocking, stageOn := true })).set PWR_STAT_STAGE_PWR 1).evalAll)
  else .next s

/-- The strap row as loaded (R72): its bits 6 to 0, CORRECTED and DEFAULTS. -/
def State.strapLoad (s : State) : Nat × Bool × Bool :=
  match classify s.otp.strapSyn with
  | .clean => (s.otp.strap % 128, false, false)
  | .corrected b => ((if b < 7 then putBit s.otp.strap b (!bit s.otp.strap b) else s.otp.strap) % 128, true, false)
  | .uncorrectable => (0x70, false, true)

/-- A lane group takes its mode (R71, Table 3.10). -/
def State.groupMode (s : State) (g : Nat) (split : Bool) : State :=
  if split then s.setAll [(VOTE_STAT_MODE g, 1), (VOTE_STAT_GROUP g, 5), (VOTE_STAT_LANE0 g, 5), (VOTE_STAT_LANE1 g, 5),
    (VOTE_STAT_LANE2 g, 5)]
  else s

/-- OTP_LOAD (R72, R71, R533): straps, lifecycle, zone code; the metering die is powered if MD_EN is 1 and it is not already. -/
def execOtpLoad (zone : Fin 8) (s : State) : Out :=
  if s.pwr.phase = .clocking then
    let l := s.strapLoad
    let forced := bits l.1 0 2 == 2 && decide (2 ≤ s.lifecycle)
    let s := s.setAll [(CLK_STAT_REF_OK, 1), (CLK_STAT_LOCK, 0x7F), (SYS_ZONE, zone.val),
      (SYS_STRAP_MD_EN, bits l.1 6 1), (SYS_STRAP_BOOT_BANK, bits l.1 4 2), (SYS_STRAP_SG1_MODE, bits l.1 2 2),
      (SYS_STRAP_SG0_MODE, bits l.1 0 2), (SYS_STRAP_STAT_CORRECTED, b2n l.2.1), (SYS_STRAP_STAT_DEFAULTS, b2n l.2.2),
      (SYS_STRAP_STAT_SG0_FORCED, b2n forced), (SYS_STRAP_STAT_LOADED, 1)]
    let s := (s.groupMode 0 (bits l.1 0 2 == 2 && !forced)).groupMode 1 (bits l.1 2 2 == 2)
    let start := s.on SYS_STRAP_MD_EN && !s.pwr.mdOn
    let s := s.setPwr { s.pwr with phase := .zeroFill, appOff := false, mdOn := s.pwr.mdOn || start }
    let s := if start then s.mdSession else s
    done (s.set PWR_STAT_MD_PWR (b2n s.pwr.mdOn)).keyRefresh
  else .next s

/-- The arrays of both groups and SRAM hold zero codewords (R66). -/
def State.zeroRam (s : State) : State :=
  ((List.range 3).foldl (fun (s : State) k =>
    (s.zeroFill (arrayAddr k 0x20000000) (arrayAddr k 0x20080000)).zeroFill (arrayAddr k 0x20100000) (arrayAddr k 0x20180000)) s).zeroFill
      0x21000000 0x21400000

/-- A lane group beside its registers, as it leaves reset. -/
def grpInit : LaneGrp := ⟨false, [0, 0, 0], 0, false, false, .live, false, [], [], [], [], 0, 0, false, false,
  false, [], none, 0, false, 2, []⟩

/-- Lane group `g`. -/
def State.grp (s : State) (g : Nat) : LaneGrp := look s.groups g grpInit

/-- Lane group `g` is given a state. -/
def State.setGrp (s : State) (g : Nat) (x : LaneGrp) : State := { s with groups := ins s.groups g x }

/-- The lanes of a VOTED group leave reset and commit their first checkpoint, into half 0 (R129, R131). -/
def State.groupStart (s : State) (g : Nat) : State :=
  if s.on (VOTE_STAT_MODE g) || (s.grp g).started then s
  else (s.setGrp g { s.grp g with started := true }).set64 (IST_CKPT_CNT_LO g) (IST_CKPT_CNT_HI g)
    (s.get64 (IST_CKPT_CNT_LO g) (IST_CKPT_CNT_HI g) + 1)

/-- ZERO_FILL_COMPLETE (Table 2.7): SG0 leaves reset into the boot ROM, or into the hold state on an alarm (R67). -/
def execZeroFillComplete (s : State) : Out :=
  if s.pwr.phase = .zeroFill then
    done (((s.zeroRam.setPwr { s.pwr with phase := if s.bootAlarm then .hold else .bootRom }).showSupply.showTemp).groupStart 0)
  else .next s

/-- The boot ROM copies the SG0 image of the bank at `bank` into SG0's TCM and has it verified (R67, R471); answers whether it
verifies. -/
def State.tryBank (s : State) (bank : Nat) (sigOk : Bool) : Bool × State :=
  let h := s.busRead (.lane 0 0) bank 0x50
  match h.1 with
  | .ok d =>
    let n := fieldAt d 0xC 4
    let load := fieldAt d 0x10 4
    if 0x80000 < load + n then (false, h.2)
    else
      let p := h.2.busRead (.lane 0 0) (bank + 0x1000) n
      (match p.1 with
      | .ok b =>
        let s := (p.2.busWrite (.lane 0 0) (0x20000000 + load) b).2
        let r := s.checkImage bank (0x20000000 + load) 1 sigOk
        if r.1 = 1 then (true, r.2.2.extendWith 0 (fitBytes 48 (Config.sha384 r.2.1))) else (false, r.2.2)
      | _ => (false, p.2))
  | _ => (false, h.2)

/-- SG0 jumps to the image of a bank, or enters the hold state. -/
def State.bootEnd (s : State) (ok : Bool) (bank : Nat) : State :=
  if ok then (s.set SYS_STRAP_STAT_BANK_USED bank).setPwr { s.pwr with phase := .run }
  else s.setPwr { s.pwr with phase := .hold }

/-- BOOT_ROM_START (R67, R68). -/
def execBootRomStart (sigA sigB : Bool) (s : State) : Out :=
  if s.pwr.phase ≠ .bootRom then .next s
  else if s.bootAlarm then done (s.bootEnd false 0)
  else match s.get SYS_STRAP_BOOT_BANK with
  | 1 =>
    let a := s.tryBank 0x30000000 sigA
    done (a.2.bootEnd a.1 0)
  | 2 =>
    let b := s.tryBank 0x34000000 sigB
    done (b.2.bootEnd b.1 1)
  | _ =>
    let a := s.tryBank 0x30000000 sigA
    if a.1 then done (a.2.bootEnd true 0)
    else
      let b := a.2.tryBank 0x34000000 sigB
      done (b.2.bootEnd b.1 1)

/-- DRAM_READY (R66). -/
def execDramReady (s : State) : Out :=
  whenAwake s (fun s =>
    if s.on PWR_STAT_DRAM_RDY then s else (s.zeroFill 0x100000000 0x1E0000000).set PWR_STAT_DRAM_RDY 1)

/-! ### Clocks and temperature (R76, R77, R81) -/

/-- PLL_UNLOCK (Table 2.10): the island stalls. -/
def execPllUnlock (i : Fin 7) (s : State) : Out :=
  whenAwake s (fun s =>
    ((s.setPwr { s.pwr with unlocked := putBit s.pwr.unlocked i.val true }).clrBits CLK_STAT_LOCK (2 ^ i.val)).raise 4)

/-- PLL_RELOCK. -/
def execPllRelock (i : Fin 7) (s : State) : Out :=
  whenAwake s (fun s =>
    if bit s.pwr.unlocked i.val then
      (s.setPwr { s.pwr with unlocked := putBit s.pwr.unlocked i.val false }).setBits CLK_STAT_LOCK (2 ^ i.val)
    else s)

/-- CONTROL_DIE_TEMP_CHANGE (R77), in any phase. -/
def execControlDieTempChange (t : Int) (s : State) : Out :=
  let s := s.setPwr { s.pwr with temp := some t }
  done (if s.awake then s.showTemp else s)

/-! ### Watchdog (R75) -/

/-- A watchdog reset (Table 2.9). -/
def State.watchdogReset (s : State) : State := s.heldReset .held RST_CAUSE_WDT

/-- RST_WDT_KICK (R75). -/
def execWdtKick (a : Agent) (v : Word) (s : State) : Out :=
  regCommand a RST_WDT_KICK.addr s (fun s =>
    if !s.on RST_WDT_CFG_EN then s
    else if v = 0xA5 then s.setPwr { s.pwr with wdtWarned := false, wdtLeft := none }
    else s.watchdogReset)

/-- WDT_WARN (R75). -/
def execWdtWarn (s : State) : Out :=
  whenAwake s (fun s =>
    if s.on RST_WDT_CFG_EN && !s.pwr.wdtWarned then (s.setPwr { s.pwr with wdtWarned := true }).raise 7 else s)

/-- WATCHDOG_RESET (R75). -/
def execWatchdogReset (s : State) : Out :=
  whenAwake s (fun s => if s.on RST_WDT_CFG_EN then s.watchdogReset else s)

/-! ### Reset and gate registers (R69, R73, R74, R493) -/

/-- RST_SYS (Table 2.13). -/
def execSystemSwReset (a : Agent) (v : Word) (s : State) : Out :=
  regCommand a RST_SYS.addr s (fun s => if v = 0xC0DE then s.heldReset .held RST_CAUSE_SYS_SW else s)

/-- The bits of RST_BLK0 and CLK_BLK_GATE that a write of `a` moves: those of blocks its world owns (R74, R80), but for a block
in a hand-over (R492). -/
def State.ownedBits (s : State) (a : Agent) : List Nat :=
  (List.range 23).filter (fun i => match blockOfBit i with
    | some b => (b.owner s == worldOf a s) && !b.fenced s
    | none => false)

/-- The bits that a Normal write names and does not move, being of Secure blocks (R493). -/
def State.refusedBits (s : State) (a : Agent) (v : Nat) : Bool :=
  isNormal a s && (List.range 23).any (fun i => bit v i && (match blockOfBit i with
    | some b => b.owner s == .secure
    | none => false))

/-- RST_BLK0 (R74, R493). -/
def execBlockReset (a : Agent) (v : Word) (s : State) : Out :=
  regCommand a RST_BLK0_NMW.addr s (fun s =>
    let refused := s.refusedBits a v.toNat
    let s := (s.ownedBits a).foldl (fun (s : State) i => match blockOfBit i with
      | some b => if bit v.toNat i then s.blockReset b else s
      | none => s) s
    if refused then s.worldRefusal a RST_BLK0_NMW.addr 4 true else s)

/-- RST_APP (R69): a core that is newly held loses its state. -/
def execAppCoreReset (a : Agent) (v : Word) (s : State) : Out :=
  regCommand a RST_APP.addr s (fun s =>
    let held := (List.range 4).filter (fun n => bit v.toNat n)
    let s := held.foldl (fun (s : State) n =>
      { s with
        harts := del s.harts (8 + n)
        haltedHarts := putBit s.haltedHarts (8 + n) false
        dbg := { s.dbg with dm := ins s.dbg.dm 0x81 (putBit (look s.dbg.dm 0x81 0xF77) (8 + n) true) } }) s
    s.set RST_APP v.toNat)

/-- RST_STAGE (Table 2.9). -/
def execStageDieReset (a : Agent) (v : Word) (s : State) : Out :=
  regCommand a RST_STAGE_MD.addr s (fun s =>
    let s := (List.range 4).foldl (fun (s : State) d => if bit v.toNat d && s.psPowered then s.stageReset d else s) s
    if bit v.toNat 4 && s.pwr.mdOn then s.mdReset else s)

/-- CLK_ISL_GATE (R80, R493): SG1 is gated at the next checkpoint of SG1, or at once where it takes none. -/
def State.islGate (s : State) (a : Agent) (v : Nat) : State :=
  let app := bits v 1 1
  let sg1 := bits v 0 1
  if isNormal a s then
    let s := if sg1 = s.get CLK_ISL_GATE_SG1 then s else s.worldRefusal a CLK_ISL_GATE_APP.addr 1 true
    if s.get WLD_APPW = 0 then s.set CLK_ISL_GATE_APP app
    else if app = s.get CLK_ISL_GATE_APP then s else s.worldRefusal a CLK_ISL_GATE_APP.addr 3 true
  else
    let due := sg1 == 1 && !s.on CLK_ISL_GATE_SG1 && !s.on (VOTE_STAT_MODE 1)
    let s := s.setPwr { s.pwr with sg1GateDue := (sg1 == 1) && (s.pwr.sg1GateDue || due) }
    (s.set CLK_ISL_GATE_APP app).set CLK_ISL_GATE_SG1 sg1

/-- CLK_BLK_GATE (R81, R493): an ungated ETH sees that its PHYs are held; the LCC's load-timer lines lose or regain their validity with its clock (R290). -/
def State.blkGate (s : State) (a : Agent) (v : Nat) : State :=
  let old := s.get CLK_BLK_GATE
  let refused := s.refusedBits a (old ^^^ v % 2 ^ 23)
  let s := s.set CLK_BLK_GATE ((s.ownedBits a).foldl (fun (m : Nat) i => putBit m i (bit v i)) old)
  let s := if refused then s.worldRefusal a CLK_BLK_GATE.addr 3 true else s
  let s := if s.pwr.phyHold && bit old 16 && !bit (s.get CLK_BLK_GATE) 16 then s.linksDown else s
  if s.psPowered && (bit old 20 != bit (s.get CLK_BLK_GATE) 20) then s.evalAll else s

/-- CLOCK_GATE. -/
def execClockGate (a : Agent) (islands : Bool) (v : Word) (s : State) : Out :=
  regCommand a (if islands then CLK_ISL_GATE_APP.addr else CLK_BLK_GATE.addr) s
    (fun s => if islands then s.islGate a v.toNat else s.blkGate a v.toNat)

end Sys2Proof.Machine
end

