-- ==== Sys2Proof/Machine/Vfm.lean ====
section
/-! DEFINITION. The VF manager's commands, the state blob, windows, and what the application cores read and compare of zone time
(Application Cluster and Virtual Functions, R160 to R189). -/

namespace Sys2Proof.Machine

/-! ### CRC-32 (R184) -/

/-- One step of the CRC-32 of IEEE 802.3, bit by bit from the least significant one. -/
def crc32Bit (c : Nat) : Nat := if c % 2 = 1 then c / 2 ^^^ 0xEDB88320 else c / 2

/-- The CRC register after a byte string. -/
def crc32From : Nat → List Byte → Nat
  | c, [] => c
  | c, b :: t =>
    crc32From (crc32Bit (crc32Bit (crc32Bit (crc32Bit (crc32Bit (crc32Bit (crc32Bit (crc32Bit (c ^^^ b.toNat))))))))) t

/-- The CRC-32 of IEEE 802.3. -/
def crc32 (l : List Byte) : Nat := crc32From 0xFFFFFFFF l ^^^ 0xFFFFFFFF

/-! ### The state blob (Tables 5.7 and 5.8) -/

/-- KIND of function `f`. -/
def vfKind (f : Nat) : Nat := if f < 16 then 0 else if f < 24 then 1 else 2

/-- The ring record of a ring pair. -/
def State.ringRecord (s : State) (r : Ring) : List Byte :=
  let b := r.base
  let x := s.ring r
  leBytes 8 (64 * s.get (RING_SQ_BASE_LO b) + 2 ^ 32 * s.get (RING_SQ_BASE_HI b))
    ++ leBytes 8 (64 * s.get (RING_CQ_BASE_LO b) + 2 ^ 32 * s.get (RING_CQ_BASE_HI b))
    ++ leBytes 8 (s.ciwbAddr r) ++ leBytes 1 (s.get (RING_CFG_SQ_LOG2 b)) ++ leBytes 1 (s.get (RING_CFG_CQ_LOG2 b))
    ++ leBytes 1 (s.get (RING_CFG_EN b)) ++ leBytes 1 (s.get (RING_STAT_STOPPED b)) ++ leBytes 2 x.tail ++ leBytes 2 (s.sqCi r)
    ++ leBytes 2 x.cqPi ++ leBytes 2 x.head ++ leBytes 1 (s.get (RING_STAT_CAUSE b)) ++ leBytes 27 0

/-- The pending list of function `f` (R185): ring pairs in ascending order, each oldest first. -/
def State.pendingList (s : State) (f : Nat) : List Nat :=
  (ringsOf f).flatMap (fun r =>
    (s.ring r).again.map (fun i => i % 2 ^ s.get (RING_CFG_SQ_LOG2 r.base) % 4096 + 2 ^ 14 * r.num))

/-- The blob of function `f`, with CRC as zero. -/
def State.blobBody (s : State) (f : Nat) : List Byte :=
  let t := look s.vfm.frozen f (0, 0)
  let p := s.pendingList f
  leBytes 4 0x42465651 ++ leBytes 2 1 ++ leBytes 1 (vfKind f)
    ++ leBytes 1 (b2n (bit s.vfm.forced f) + 2 * s.get (VFM_VF_STATE_SHADE f)) ++ leBytes 2 0x200 ++ leBytes 1 p.length
    ++ leBytes 1 (s.get (VFM_VF_STATE_GEN f)) ++ leBytes 1 f ++ leBytes 1 (ringsOf f).length ++ leBytes 2 0
    ++ leBytes 8 t.1 ++ leBytes 2 t.2 ++ leBytes 6 0 ++ s.moduleId ++ leBytes 12 0 ++ leBytes 4 0
    ++ fitBytes 256 ((ringsOf f).flatMap s.ringRecord) ++ fitBytes 128 (p.flatMap (leBytes 2))
    ++ leBytes 1 (s.get (VFP_VF_EVT_EN f)) ++ leBytes 1 (s.get (VFP_VF_EVT_PEND f) % 128) ++ leBytes 62 0

/-- The blob of function `f`. -/
def State.blob (s : State) (f : Nat) : List Byte := patch (s.blobBody f) 0x3C (leBytes 4 (crc32 (s.blobBody f)))

/-- The reserved bytes of a blob are zero. -/
def blobReserved (d : List Byte) : Bool :=
  let n := fieldAt d 0xD 1
  let z (o k : Nat) : Bool := allZero ((d.drop o).take k)
  decide (fieldAt d 7 1 < 4) && z 0xE 2 && z 0x1A 6 && z 0x30 12
    && (List.range 4).all (fun r => if r < n then z (0x40 + 0x40 * r + 0x25) 27 && decide (fieldAt d (0x5B + 0x40 * r) 1 < 2)
      else z (0x40 + 0x40 * r) 64)
    && z (0x140 + 2 * fieldAt d 0xA 1) (128 - 2 * fieldAt d 0xA 1) && z 0x1C2 62

/-- What RESTORE finds of a blob for function `f` (R184): 1 where it is accepted. An NPEND that the layout does not have, above 64, is
refused as an invalid blob (DESIGN CHOICE, see the log: the list of refusals does not name it). -/
def State.blobCheck (s : State) (f : Nat) (d : List Byte) : Nat :=
  if fieldAt d 0 4 ≠ 0x42465651 ∨ fieldAt d 4 2 ≠ 1 ∨ fieldAt d 8 2 ≠ 0x200 ∨ 64 < fieldAt d 0xA 1 ∨ blobReserved d = false then 5
  else if fieldAt d 0x3C 4 ≠ crc32 (patch d 0x3C (leBytes 4 0)) then 6
  else if fieldAt d 6 1 ≠ vfKind f then 7
  else if s.get (VFM_VF_STATE_STALE f) ≠ 0 then 4
  else 1

/-- The pending indices of ring pair `n` in a blob (R185). -/
def blobAgain (d : List Byte) (n sqCi log : Nat) : List Nat :=
  let l := (List.range (fieldAt d 0xA 1)).map (fun i => fieldAt d (0x140 + 2 * i) 2)
  (l.filter (fun e => e / 2 ^ 14 == n)).map (fun e =>
    let last := (sqCi + 2 ^ 16 - 1) % 2 ^ 16
    (last + 2 ^ 16 - (last + 2 ^ 16 - e % 4096) % 2 ^ log) % 2 ^ 16)

/-- A ring pair is loaded from its record. -/
def State.loadRing (s : State) (d : List Byte) (r : Ring) : State :=
  let b := r.base
  let o := 0x40 + 0x40 * r.num
  let addr (k : Nat) : Nat := fieldAt d (o + k) 8
  let s := s.setAll [(RING_SQ_BASE_LO b, addr 0 / 64), (RING_SQ_BASE_HI b, addr 0 / 2 ^ 32),
    (RING_CQ_BASE_LO b, addr 8 / 64), (RING_CQ_BASE_HI b, addr 8 / 2 ^ 32), (RING_CIWB_LO b, addr 16 / 16),
    (RING_CIWB_HI b, addr 16 / 2 ^ 32), (RING_CFG_SQ_LOG2 b, fieldAt d (o + 0x18) 1), (RING_CFG_CQ_LOG2 b, fieldAt d (o + 0x19) 1),
    (RING_CFG_EN b, fieldAt d (o + 0x1A) 1), (RING_STAT_STOPPED b, fieldAt d (o + 0x1B) 1),
    (RING_STAT_CAUSE b, fieldAt d (o + 0x24) 1), (RING_STAT_SQ_CI b, fieldAt d (o + 0x1E) 2)]
  s.setRing r ⟨fieldAt d (o + 0x1C) 2, fieldAt d (o + 0x20) 2, fieldAt d (o + 0x22) 2, [],
    blobAgain d r.num (fieldAt d (o + 0x1E) 2) (fieldAt d (o + 0x18) 1)⟩

/-- An accepted blob is loaded (R184): the function is FROZEN. -/
def State.blobLoad (s : State) (f : Nat) (d : List Byte) : State :=
  let s := (ringsOf f).foldl (fun (s : State) r => s.loadRing d r) s
  let s := s.setAll [(VFP_VF_EVT_EN f, fieldAt d 0x1C0 1), (VFP_VF_EVT_PEND f, fieldAt d 0x1C1 1 % 128),
    (VFM_VF_STATE_GEN f, fieldAt d 0xB 1), (VFM_VF_STATE_SHADE f, bits (fieldAt d 7 1) 1 1)]
  (s.setVfm { s.vfm with
    forced := putBit s.vfm.forced f (bit (fieldAt d 7 1) 0)
    frozen := ins s.vfm.frozen f (fieldAt d 0x10 8, fieldAt d 0x18 2) }).vfEnter f 3

/-- The address in VFM_BLOB. -/
def State.blobAddr (s : State) : Nat := 64 * s.get VFM_BLOB_LO + 2 ^ 32 * s.get VFM_BLOB_HI

/-- A blob of `n` bytes at VFM_BLOB lies wholly in DRAM or wholly in shared SRAM (R183). -/
def State.blobPlace (s : State) (n : Nat) : Bool :=
  match targetOfRange s.blobAddr n with
  | some t => t == 4 || t == 6
  | none => false

/-! ### Commands (R177, Table 5.5) -/

/-- A VFM command (R177): one that finds another running is refused, which VFM_CMD_STAT shows until that one ends; else `act` answers
the result it will report. -/
def vfmCommand (a : Agent) (op f : Nat) (s : State) (act : State → Nat × State) : Out :=
  regCommand a VFM_CMD_OP.addr s (fun s =>
    let named := (s.set VFM_CMD_STAT_FN f).set VFM_CMD_STAT_OP op
    if s.on VFM_CMD_STAT_BUSY then named.set VFM_CMD_STAT_RESULT 3
    else
      let r := act named
      (r.2.setVfm { r.2.vfm with result := r.1, fn := f, op := op, blobAt := s.blobAddr }).set VFM_CMD_STAT_BUSY 1)

/-- A command that its state does not allow. -/
def wrongState (s : State) : Nat × State := (2, s)

/-- A generation step's result: done, or held (R180). -/
def State.stepResult (s : State) (f : Nat) (off : Bool) : Nat × State :=
  let r := s.stepRequest f off
  (if r.1 then 0xA else 1, r.2)

/-- VFM_CMD OP ENABLE. -/
def execVfmEnable (a : Agent) (f : Fin 32) (s : State) : Out :=
  vfmCommand a 1 f s (fun s =>
    if s.vfState f = 0 then
      let s := (ringsOf f).foldl (fun (s : State) r => { s.resetRegs r.base (r.base + 0x20) with rings := del s.rings r.base }) s
      (1, (s.set (VFP_VF_EVT_PEND f) 0).vfEnter f 1)
    else wrongState s)

/-- VFM_CMD OP DISABLE. -/
def execVfmDisable (a : Agent) (f : Fin 32) (s : State) : Out := vfmCommand a 2 f s (fun s => s.stepResult f true)

/-- VFM_CMD OP RESET. -/
def execVfmReset (a : Agent) (f : Fin 32) (s : State) : Out :=
  vfmCommand a 3 f s (fun s => if s.vfState f = 0 then wrongState s else s.stepResult f false)

/-- VFM_CMD OP FREEZE (R182). -/
def execVfmFreeze (a : Agent) (f : Fin 32) (s : State) : Out :=
  vfmCommand a 4 f s (fun s =>
    if s.vfState f = 1 then
      let s := s.vfWithdraw f false
      (1, (if f.val < 16 then s.ethFlushVf f else s).vfEnter f 2)
    else wrongState s)

/-- RESUME of a frozen function: its result. -/
def State.vfResume (s : State) (f : Nat) : Nat × State :=
  if s.vfState f = 3 then
    (1, (s.setVfm { s.vfm with forced := putBit s.vfm.forced f false, frozen := del s.vfm.frozen f }).vfEnter f 1)
  else (2, s)

/-- VFM_CMD OP RESUME (R185). -/
def execVfmResume (a : Agent) (f : Fin 32) (s : State) : Out :=
  vfmCommand a 5 f s (fun s =>
    s.vfResume f)

/-- VFM_CMD OP SAVE (R183): unsealed, the blob is written; else it goes to the sealer. -/
def execVfmSave (a : Agent) (f : Fin 32) (s : State) : Out :=
  vfmCommand a 6 f s (fun s =>
    if s.vfState f ≠ 3 then wrongState s
    else if !s.blobPlace (if s.on VFM_SEAL then 576 else 512) then (8, s)
    else if s.on VFM_SEAL then (1, s.setKeys { s.keys with job := some ⟨true, s.blob f, none⟩ })
    else
      let w := s.busWrite .vfm s.blobAddr (s.blob f)
      (if w.1.cause = 0 then 1 else 8, w.2))

/-- RESTORE with the blob at hand. -/
def State.restoreFrom (s : State) (f : Nat) (d : List Byte) : Nat × State :=
  let r := s.blobCheck f d
  if r = 1 then (1, s.blobLoad f d) else (r, s)

/-- VFM_CMD OP RESTORE (R184): unsealed, the blob is taken; else the sealed form goes to the sealer. -/
def execVfmRestore (a : Agent) (f : Fin 32) (s : State) : Out :=
  vfmCommand a 7 f s (fun s =>
    let n := if s.on VFM_SEAL then 576 else 512
    if s.vfState f ≠ 0 then wrongState s
    else if !s.blobPlace n then (8, s)
    else
      let r := s.busRead .vfm s.blobAddr n
      match r.1 with
      | .ok d =>
        if s.on VFM_SEAL then (1, r.2.setKeys { r.2.keys with job := some ⟨false, d, none⟩ })
        else r.2.restoreFrom f d
      | _ => (8, r.2))

/-- VFM_CMD with an OP outside 0x1 to 0x7. -/
def execVfmInvalidOp (a : Agent) (v : Word) (s : State) : Out :=
  vfmCommand a (let op := bits v.toNat 0 4; if op ≤ 7 then 0 else op) (bits v.toNat 16 5) s (fun s => (9, s))

/-- The sealer's part of a command in progress: the result, once there is one. -/
def State.sealEnd (s : State) : Option (Nat × State) :=
  match s.keys.job with
  | none => some (s.vfm.result, s)
  | some j =>
    let t := s.setKeys { s.keys with job := none }
    match j.out with
    | none => none
    | some none => some (6, t)
    | some (some d) =>
      if j.sealing then
        let w := t.busWrite .vfm t.vfm.blobAt d
        some (if w.1.cause = 0 then 1 else 8, w.2)
      else some (t.restoreFrom t.vfm.fn d)

/-- A VFM command ends: VFM_CMD_STAT shows it with its result, and event 252 is raised. -/
def State.vfmReport (s : State) (op f r : Nat) : State :=
  ((s.setAll [(VFM_CMD_STAT_FN, f), (VFM_CMD_STAT_OP, op), (VFM_CMD_STAT_RESULT, r)]).set VFM_CMD_STAT_BUSY 0).raise 252

/-- A DISABLE or a RESUME of the cohort agent runs, from its start to its end. -/
def State.agentRun (s : State) (op f : Nat) : State :=
  let r := if op = 2 then s.stepResult f true else s.vfResume f
  r.2.vfmReport op f r.1

/-- The cohort agent writes a DISABLE or a RESUME (R522): it waits while a command runs (R177). -/
def State.agentVfm (s : State) (op f : Nat) : State :=
  if s.on VFM_CMD_STAT_BUSY then s.setVfm { s.vfm with later := s.vfm.later ++ [(op, f)] } else s.agentRun op f

/-- The VFM command in progress ends: its result is written, with event 252; then the agent's commands that waited run. -/
def State.vfmEnd (s : State) : State :=
  if !s.on VFM_CMD_STAT_BUSY then s
  else match s.sealEnd with
  | none => s
  | some r =>
    let t := r.2.vfmReport s.vfm.op s.vfm.fn r.1
    t.vfm.later.foldl (fun (t : State) p => t.agentRun p.1 p.2) (t.setVfm { t.vfm with later := [] })

/-! ### The guest's requests (R176, R177) -/

/-- VF_CTL.RESET: accepted in RUN only. -/
def execVfCtlReset (a : Agent) (f : Fin 32) (s : State) : Out :=
  regCommand a (VFP_VF_CTL f).addr s (fun s => if s.vfState f = 1 then (s.stepRequest f false).2 else s.raise 254)

/-- VF_FWD_ACK. -/
def execVfFwdAck (a : Agent) (f : Fin 32) (v : Word) (s : State) : Out :=
  regCommand a (VFP_VF_FWD_ACK f).addr s (fun s =>
    let e := v.toNat % 256
    if s.forwardedVf e = some f.val then s.clrBits (EVC_PEND (e / 32)) (2 ^ (e % 32)) else s.raise 254)

/-! ### Drains and stale work (R179 to R181) -/

/-- VF_FREEZE_DRAINED. -/
def execVfFreezeDrained (f : Fin 32) (s : State) : Out :=
  whenLive .vfm s (fun s =>
    if s.vfState f = 2 ∧ s.vfStarted f = 0 then (s.vfCapture f).raise 252 else s)

/-- VF_DRAIN_BOUND_EXPIRY (R181): the bound that was started first expires. That of stale work comes before that of a freeze, since a
generation step ends a freeze. Stale work never writes; work left of a freeze goes to the pending list. -/
def execVfDrainBoundExpiry (f : Fin 32) (s : State) : Out :=
  whenLive .vfm s (fun s =>
    let forced := (s.count VFM_FORCED).raise 255
    if s.get (VFM_VF_STATE_STALE f) ≠ 0 then
      ((forced.engineDrop f (fun g => g.job.isNone)).set (VFM_VF_STATE_STALE f) 0).staleZero f
    else if s.vfState f = 2 ∧ s.vfStarted f ≠ 0 then
      let s := forced.vfWithdraw f true
      ((s.setVfm { s.vfm with forced := putBit s.vfm.forced f true }).vfCapture f).raise 252
    else s)

/-- STALE_ITEM_END (R179, R180). -/
def execStaleItemEnd (f : Fin 32) (s : State) : Out :=
  whenLive .vfm s (fun s =>
    let n := s.get (VFM_VF_STATE_STALE f)
    if n = 0 then s
    else
      let all := s.get64 VFM_STALE_DROP_LO VFM_STALE_DROP_HI
      let s := ((s.set (VFM_VF_STATE_STALE f) (n - 1)).count (VFM_VF_DROP_STALE_DROP f)).set64 VFM_STALE_DROP_LO VFM_STALE_DROP_HI
        (satInc all 64)
      let s := s.raise 253
      if n = 1 then s.staleZero f else s)

/-! ### Windows and captures (R166, R167, R188) -/

/-- A host range of `size` units of 2 MiB from unit `base` on lies wholly in DRAM or wholly in shared SRAM. -/
def hostRangeOk (base size : Nat) : Bool :=
  size == 0 || (match targetOfRange (base * 2 ^ 21) (size * 2 ^ 21) with
    | some t => t == 4 || t == 6
    | none => false)

/-- WIN_CTL (R167). -/
def execVfmWindowEnable (a : Agent) (f : Fin 32) (w : Fin 4) (v : Word) (s : State) : Out :=
  regCommand a (VFM_WIN_CTL_EN f w).addr s (fun s =>
    let size := bits v.toNat 0 12
    let s := s.set (VFM_WIN_CTL_SIZE f w) size
    if !bit v.toNat 31 then s.set (VFM_WIN_CTL_EN f w) 0
    else if hostRangeOk (s.get (VFM_WIN_HBASE f w)) size then s.set (VFM_WIN_CTL_EN f w) 1
    else (s.set (VFM_WIN_CTL_EN f w) 0).vfmError f 4 (s.get (VFM_WIN_GBASE f w) * 2 ^ 21))

/-- VFM_ERR_CTL.REARM. -/
def execVfmRearm (a : Agent) (s : State) : Out :=
  regCommand a VFM_ERR_CTL_REARM.addr s (fun s => s.set VFM_ERR_INFO_VALID 0)

/-- VFM_ERR_CTL.CLR_CNT: all VFM and VF counters. -/
def execVfmClrCnt (a : Agent) (s : State) : Out :=
  regCommand a VFM_ERR_CTL_CLR_CNT.addr s (fun s =>
    let s := s.setAll [(VFM_STALE_DROP_LO, 0), (VFM_STALE_DROP_HI, 0), (VFM_DB_STALE, 0), (VFM_FORCED, 0)]
    (List.range 32).foldl (fun (s : State) f =>
      s.setAll [(VFM_VF_DROP_STALE_DROP f, 0), (VFM_VF_DROP_DB_STALE f, 0), (VFM_VF_QDROP f, 0)]) s)

end Sys2Proof.Machine
end

