-- ==== Sys2Proof/Machine/Cohort.lean ====
section
/-! DEFINITION. The zone cohort: membership, beacons and transfer messages, peers, fencing, time trust, migration (Zone Cohort, R509
to R524). -/

namespace Sys2Proof.Machine

/-! ### The agent and its tables -/

/-- The cohort agent is given a state. -/
def State.setCohort (s : State) (c : CohortSt) : State := { s with cohort := c }

/-- The agent executes: firmware runs, on SG0, which is not HALTED. -/
def State.agentRuns (s : State) : Bool :=
  s.awake && s.pwr.phase != .bootRom && s.pwr.phase != .hold && s.get (VOTE_STAT_GROUP 0) != 4

/-- This module's position (R509). -/
def State.position (s : State) : Nat := s.get SYS_ZONE

/-- The module is a member (R509). -/
def State.member (s : State) : Bool := decide (s.position < 6)

/-- MEAS3, which the configuration tables with the cohort table are measured into (R510). -/
def State.tables (s : State) : List Byte := s.measure 3

/-- The MODULE_ID expected at a position; zero where it is empty (R510). -/
def State.expected (s : State) (z : Nat) : List Byte := fitBytes 16 (Config.cohortMember s.tables z)

/-- A position that is not empty. -/
def State.taken (s : State) (z : Nat) : Bool := decide (z < 6) && !allZero (s.expected z)

/-- CFG_DIGEST of this module (Table 17.1). -/
def State.ownDigest (s : State) : List Byte := fitBytes 32 ((Config.sha384 (s.measure 3 ++ s.measure 4)).take 32)

/-- The entry of a position (R513). -/
def State.peer (s : State) (z : Nat) : Peer := look s.cohort.peers z ⟨0, [], [], 0, false⟩

/-- An entry is updated. -/
def State.setPeer (s : State) (z : Nat) (p : Peer) : State := s.setCohort { s.cohort with peers := ins s.cohort.peers z p }

/-- FLAGS.FENCED of this module (R515, R516). -/
def State.ownFence (s : State) : Bool := s.cohort.fenced || s.cohort.dup

/-- A firmware record of the agent (R524, R443): it runs on SG0, whose initiator ID is 0. -/
def State.agentLog (s : State) (code p0 p1 p2 : Nat) : State :=
  if s.on REC_STAT_CLOSED then s
  else
    let e := s.stamped ⟨false, code, 0x10, 0, p0 % 2 ^ 32, p1, p2, [], none⟩ true false
    if s.fwQueued < 24 ∧ s.recorder.lbQ.length < 32 then s.setRec { s.recorder with lbQ := s.recorder.lbQ ++ [e] }
    else s.setRec { s.recorder with waiting := s.recorder.waiting ++ [e] }

/-- A command of the agent: what the one before sent is forgotten; nothing happens where the agent does not run or the module is no
member. -/
def cohortDo (s : State) (act : State → State) : Out :=
  if s.agentRuns && s.member then done (act (s.setCohort { s.cohort with out := [] })) else .next s

/-! ### Time quality (R519, R520) -/

/-- |TIME_OFFSET|. -/
def State.offsetSize (s : State) : Nat := (signed (s.get TIME_OFFSET) 32).natAbs

/-- TERR (R519); 0xFFFF_FFFF where it is unknown. -/
def State.terr (s : State) : Nat :=
  match s.get TIME_STAT_STATE with
  | 4 => 0
  | 2 => s.offsetSize
  | 3 => s.cohort.held.getD s.offsetSize
  | _ => 0xFFFFFFFF

/-- In HOLDOVER TERR is the |TIME_OFFSET| at its entry plus 100 ns for each second since (R519): TIME_OFFSET holds that offset, and the
command brings the estimate, which only grows; one that does not fit is not taken. -/
def State.heldErr (s : State) (err : Nat) : Nat :=
  let least := s.cohort.held.getD s.offsetSize
  if least ≤ err ∧ (err - s.offsetSize) % 100 = 0 then err else least

/-- TIME_TRUST_CHANGE (R520). In LOCKED, the command says that TERR has stayed where it is for 10 accepted offsets in a row. -/
def execTimeTrustChange (err : Word) (s : State) : Out :=
  if !s.agentRuns then .next s
  else
    let s := s.setCohort { s.cohort with out := [], held := if s.get TIME_STAT_STATE = 3 then some (s.heldErr err.toNat) else none }
    let t := s.terr
    if 1000 < t ∧ s.cohort.untrusted = false then
      done (((s.setCohort { s.cohort with untrusted := true }).set REC_CTL_UNTRUSTED 1).agentLog 0x0C05 1 t 0)
    else if t ≤ 500 ∧ s.get TIME_STAT_STATE = 2 ∧ s.cohort.untrusted = true then
      done (((s.setCohort { s.cohort with untrusted := false }).set REC_CTL_UNTRUSTED 0).agentLog 0x0C05 0 t 0)
    else done s

/-! ### Messages (R511, R512) -/

/-- A frame leaves for a position, or, a beacon, for all. -/
def State.cohortOut (s : State) (z : Option Nat) (m : List Byte) : State :=
  s.setCohort { s.cohort with out := s.cohort.out ++ [(z, m)] }

/-- A list in pieces of 1456 bytes (R512). -/
def fragments (l : List Byte) : List (List Byte) :=
  (List.range ((l.length + 1455) / 1456)).map (fun i => (l.drop (1456 * i)).take 1456)

/-- A transfer message is sent to a position, under a new MSG_ID. -/
def State.sendMsg (s : State) (z typ : Nat) (content : List Byte) : State :=
  let fs := fragments content
  let head (i n : Nat) : List Byte := leBytes 1 1 ++ leBytes 1 typ ++ leBytes 1 s.position ++ leBytes 1 0
    ++ leBytes 4 s.cohort.msgId ++ leBytes 2 i ++ leBytes 2 fs.length ++ leBytes 2 n ++ leBytes 2 0
  let s' := (fs.zip (List.range fs.length)).foldl (fun (t : State) (p : List Byte × Nat) =>
    t.cohortOut (some z) (head p.2 p.1.length ++ p.1)) s
  s'.setCohort { s'.cohort with msgId := (s.cohort.msgId + 1) % 2 ^ 32 }

/-- The frame has a right header for its TYPE, from another member's position, under MACsec (R510 to R512). -/
def State.frameOk (s : State) (m : List Byte) (secured : Bool) (typ : Nat) : Bool :=
  secured && fieldAt m 0 1 == 1 && fieldAt m 1 1 == typ && s.taken (fieldAt m 2 1) && fieldAt m 2 1 != s.position
    && fieldAt m 3 1 == 0 && decide (fieldAt m 8 2 < fieldAt m 10 2) && decide (fieldAt m 12 2 ≤ 1456)
    && m.length == 16 + fieldAt m 12 2 && fieldAt m 14 2 == 0

/-- The content of a message whose fragments have all arrived. -/
def Parts.whole (p : Parts) : Option (List Byte) :=
  if p.got.length = p.nfrag then some (p.got.flatMap (·.2)) else none

/-- A frame is taken: the content of its message, once that is complete. -/
def State.takeFragment (s : State) (m : List Byte) (secured : Bool) (typ : Nat) : Option (List Byte) × State :=
  if !s.frameOk m secured typ then (none, s)
  else
    let z := fieldAt m 2 1
    let id := fieldAt m 4 4
    let l := s.cohort.parts
    let p := (l.find? (fun p => p.pos == z && p.id == id && p.typ == typ)).getD ⟨z, id, typ, fieldAt m 10 2, []⟩
    let p := { p with got := ins p.got (fieldAt m 8 2) (m.drop 16) }
    let rest := l.filter (fun q => !(q.pos == z && q.id == id && q.typ == typ))
    match p.whole with
    | some c => (some c, s.setCohort { s.cohort with parts := rest })
    | none => (none, s.setCohort { s.cohort with parts := rest ++ [p] })

/-- The row of a transfer message: `act` gets its sender's position and its content once it is complete. -/
def transfer (m : List Byte) (secured : Bool) (typ : Nat) (s : State) (act : Nat → List Byte → State → State) : Out :=
  cohortDo s (fun s =>
    let r := s.takeFragment m secured typ
    match r.1 with
    | some c => act (fieldAt m 2 1) c r.2
    | none => r.2)

/-- TRANSFER_REASSEMBLY_TIMEOUT (R512). -/
def execTransferReassemblyTimeout (z : Fin 6) (id : Word) (s : State) : Out :=
  cohortDo s (fun s => s.setCohort { s.cohort with
    parts := s.cohort.parts.filter (fun p => !(p.pos == z.val && p.id == id.toNat)) })

/-! ### The VF manager, as the agent uses it (R522) -/

/-- DISABLE. -/
def State.agentDisable (s : State) (f : Nat) : State := s.agentVfm 2 f

/-- RESUME of a frozen function. -/
def State.agentResume (s : State) (f : Nat) : State := s.agentVfm 5 f

/-- RESTORE of a sealed form into a function that is OFF: the result, 6 where it does not unseal; the agent writes it only while no
command runs (R177). -/
def State.agentRestore (s : State) (f : Nat) (form : List Byte) : Nat × State :=
  let r := match s.unsealed form with
    | none => (6, s)
    | some d => s.restoreFrom f d
  (r.1, r.2.vfmReport 7 f r.1)

/-! ### Migration, outgoing (R521 to R523) -/

/-- COMPAT and COMPAT_MIN that a beacon carries. -/
def beaconCompat (b : List Byte) : Nat × Nat := (fieldAt b 0x4C 2, fieldAt b 0x4E 2)

/-- Two members are compatible (R517). -/
def compatible (a b : Nat × Nat) : Bool := decide (b.2 ≤ a.1 ∧ a.1 ≤ b.1) && decide (a.2 ≤ b.1 ∧ b.1 ≤ a.1)

/-- This module is compatible with the peer at a position. -/
def State.suits (s : State) (z : Nat) : Bool := compatible (Config.cohortCompat s.tables) (beaconCompat (s.peer z).beacon)

/-- The peer has FENCED set in its last beacon (R515). -/
def State.peerFenced (s : State) (z : Nat) : Bool := bit (fieldAt (s.peer z).beacon 3 1) 0

/-- A VF may move to a position (R521). -/
def State.mayOffer (s : State) (z : Nat) : Bool :=
  (s.peer z).state == 2 && s.suits z && !s.peerFenced z && !s.ownFence && s.on VFM_SEAL

/-- An outcome is recorded; the last 8 are kept (R522). -/
def State.outcome (s : State) (mig v : Nat) : State :=
  s.setCohort { s.cohort with outcomes := ((mig, v) :: s.cohort.outcomes).take 8 }

/-- An open migration out of this module is closed. -/
def State.dropOut (s : State) (z mig : Nat) : State :=
  s.setCohort { s.cohort with
    outb := s.cohort.outb.filter (fun o => !(o.pos == z && o.mig == mig))
    asked := s.cohort.asked.filter (fun q => !(q.pos == z && q.mig == mig)) }

/-- An open migration out of this module is changed. -/
def State.setOut (s : State) (o : Outbound) : State :=
  s.setCohort { s.cohort with outb := s.cohort.outb.map (fun p => if p.pos = o.pos ∧ p.mig = o.mig then o else p) }

/-- The open migration to a position with a MIG_ID. -/
def State.outOf (s : State) (z mig : Nat) : Option Outbound := s.cohort.outb.find? (fun o => o.pos == z && o.mig == mig)

/-- After a sealed SAVE of function `f`, the source may send an OFFER: whether, to whom, and its MIG_ID are the firmware's choice (a
free value), but only to a member of R521. -/
def State.considerOffer (s : State) (f : Nat) : State :=
  if !(s.agentRuns && s.member && s.vfState f == 3 && (List.range 6).any s.mayOffer) || s.cohort.outb.any (fun o => o.fn == f) then s
  else
    let z := s.draw 3
    if !(decide (z.1 < 6) && z.2.mayOffer z.1) then z.2
    else
      let g := z.2.draw 32
      match g.2.viewBytes g.2.vfm.blobAt 576 with
      | none => g.2
      | some form =>
        let c := leBytes 4 g.1 ++ leBytes 1 (vfKind f) ++ leBytes 1 f ++ leBytes 2 0 ++ form
        let s := g.2.setCohort { g.2.cohort with outb := g.2.cohort.outb ++ [⟨z.1, g.1, f, c, 0, false⟩] }
        s.sendMsg z.1 4 c

/-- VFM_COMMAND_COMPLETE (R177); after a sealed SAVE that is done, the cohort agent may offer the function (R522). -/
def execVfmCommandComplete (s : State) : Out :=
  whenLive .vfm s (fun s =>
    let saved := s.on VFM_CMD_STAT_BUSY && s.vfm.op == 6 && s.keys.job.isSome
    let t := s.vfmEnd
    if saved && !t.on VFM_CMD_STAT_BUSY && t.get VFM_CMD_STAT_RESULT == 1 then t.considerOffer s.vfm.fn else t)

/-- The source gives a migration up: ABORTED is recorded and its own VF resumes (R522, R523). -/
def State.giveUp (s : State) (o : Outbound) : State := ((s.outcome o.mig 5).agentResume o.fn).dropOut o.pos o.mig

/-- ACK (R522 step 4). -/
def execAck (m : List Byte) (secured : Bool) (s : State) : Out :=
  transfer m secured 5 s (fun z c s =>
    match s.outOf z (fieldAt c 0 4) with
    | none => s
    | some o =>
      if c.length ≠ 8 ∨ o.committed then s
      else if fieldAt c 4 1 = 1 then
        let s := (s.agentDisable o.fn).outcome o.mig 4
        (s.setOut { o with committed := true }).sendMsg z 6 (leBytes 4 o.mig)
      else (s.giveUp o).agentLog 0x0C12 o.mig z (fieldAt c 4 1))

/-- The migration is done: record 0x0C10. -/
def State.outDone (s : State) (o : Outbound) : State := (s.dropOut o.pos o.mig).agentLog 0x0C10 o.mig o.pos o.fn

/-- DONE (R522 step 5). -/
def execDone (m : List Byte) (secured : Bool) (s : State) : Out :=
  transfer m secured 8 s (fun z c s =>
    match s.outOf z (fieldAt c 0 4) with
    | some o => if o.committed then s.outDone o else s
    | none => s)

/-- A QUERY is sent. -/
def State.sendQuery (s : State) (z mig tries : Nat) : State :=
  let l := s.cohort.asked.filter (fun q => !(q.pos == z && q.mig == mig))
  (s.setCohort { s.cohort with asked := l ++ [⟨z, mig, tries⟩] }).sendMsg z 9 (leBytes 4 mig)

/-- MIGRATION_DONE_WAIT_EXPIRY (Table 17.5). -/
def execMigrationDoneWaitExpiry (mig : Word) (s : State) : Out :=
  cohortDo s (fun s =>
    match s.cohort.outb.find? (fun o => o.mig == mig.toNat && o.committed) with
    | some o => (s.agentLog 0x0C12 o.mig o.pos 0xFF).sendQuery o.pos o.mig 0
    | none => s)

/-! ### Migration, incoming -/

/-- The migration in from a position with a MIG_ID. -/
def State.inOf (s : State) (z mig : Nat) : Option Inbound := s.cohort.inb.find? (fun i => i.pos == z && i.mig == mig)

/-- A migration in takes a state. -/
def State.setIn (s : State) (i : Inbound) : State :=
  let rest := s.cohort.inb.filter (fun j => !(j.pos == i.pos && j.mig == i.mig))
  s.setCohort { s.cohort with
    inb := rest ++ [i]
    asked := s.cohort.asked.filter (fun q => !(q.pos == i.pos && q.mig == i.mig)) }

/-- The frozen copy is disabled (Table 17.5). -/
def State.dropCopy (s : State) (i : Inbound) : State := if i.state = 1 then (s.agentDisable i.fn).setIn { i with state := 3 } else s

/-- The frozen copy runs (R522 step 5). -/
def State.runCopy (s : State) (i : Inbound) : State :=
  ((((s.agentResume i.fn).setIn { i with state := 2 }).sendMsg i.pos 8 (leBytes 4 i.mig))).agentLog 0x0C11 i.mig i.pos i.fn

/-- A function of a KIND that is OFF with STALE 0 (R522 step 3). -/
def State.freeFn (s : State) (kind : Nat) : Option Nat :=
  (List.range 32).find? (fun f => vfKind f == kind && s.vfState f == 0 && s.get (VFM_VF_STATE_STALE f) == 0)

/-- The MODULE_ID of the sealed form and of the unsealed blob are the source's (Table 17.4). -/
def State.idsMatch (s : State) (z : Nat) (form : List Byte) : Bool :=
  (form.drop 8).take 16 == s.expected z && (match s.unsealed form with
    | some d => (d.drop 0x20).take 16 == s.expected z
    | none => true)

/-- The checks of an OFFER (Table 17.4): the RESULT, and the function that takes the copy. -/
def State.checkOffer (s : State) (z kind : Nat) (form : List Byte) : Nat × State × Nat :=
  if s.ownFence || s.peerFenced z then (0x20, s, 0)
  else if (s.peer z).state ≠ 2 then (0x21, s, 0)
  else if !s.suits z then (0x22, s, 0)
  else if !s.idsMatch z form then (0x23, s, 0)
  else match s.freeFn kind with
  | none => (2, s, 0)
  | some f =>
    let r := s.agentRestore f form
    (r.1, r.2, f)

/-- An ACK is sent. -/
def State.sendAck (s : State) (z mig r : Nat) : State := s.sendMsg z 5 (leBytes 4 mig ++ leBytes 1 r ++ leBytes 3 0)

/-- OFFER (R522 step 3); one that is sent again is answered as before. While a VFM command runs the agent cannot write its RESTORE and
does not answer yet: the source sends the OFFER again (R512). -/
def execOffer (m : List Byte) (secured : Bool) (s : State) : Out :=
  transfer m secured 4 s (fun z c s =>
    let mig := fieldAt c 0 4
    if c.length ≠ 584 then s
    else match s.inOf z mig with
    | some _ => s.sendAck z mig 1
    | none =>
      if s.on VFM_CMD_STAT_BUSY then s
      else
      let r := s.checkOffer z (fieldAt c 4 1) (c.drop 8)
      (if r.1 = 1 then r.2.1.setIn ⟨z, mig, r.2.2, 1⟩ else r.2.1).sendAck z mig r.1)

/-- COMMIT (R522 step 5). -/
def execCommit (m : List Byte) (secured : Bool) (s : State) : Out :=
  transfer m secured 6 s (fun z c s =>
    match s.inOf z (fieldAt c 0 4) with
    | some i => if i.state = 1 then s.runCopy i else if i.state = 2 then s.sendMsg z 8 (leBytes 4 i.mig) else s
    | none => s)

/-- ABORT (R523). -/
def execAbort (m : List Byte) (secured : Bool) (s : State) : Out :=
  transfer m secured 7 s (fun z c s =>
    match s.inOf z (fieldAt c 0 4) with
    | some i => s.dropCopy i
    | none => s)

/-- What a QUERY is answered with (Table 17.2). -/
def State.migState (s : State) (z mig : Nat) : Nat :=
  match s.cohort.outcomes.find? (fun p => p.1 == mig) with
  | some p => p.2
  | none => (match s.inOf z mig with
    | some i => i.state
    | none => 0)

/-- QUERY (R522, R523). -/
def execQuery (m : List Byte) (secured : Bool) (s : State) : Out :=
  transfer m secured 9 s (fun z c s =>
    let mig := fieldAt c 0 4
    s.sendMsg z 10 (leBytes 4 mig ++ leBytes 1 (s.migState z mig)))

/-- MIGRATION_COMMIT_WAIT_EXPIRY (Table 17.5). -/
def execMigrationCommitWaitExpiry (z : Fin 6) (mig : Word) (s : State) : Out :=
  cohortDo s (fun s =>
    match s.inOf z.val mig.toNat with
    | some i => if i.state = 1 then s.sendQuery z.val mig.toNat 0 else s
    | none => s)

/-- STATUS (Table 17.5): for a frozen copy held here, or for a migration whose COMMIT is out. While a VFM command runs the source
cannot write its RESTORE; its next QUERY is answered again. -/
def execStatus (m : List Byte) (secured : Bool) (s : State) : Out :=
  transfer m secured 10 s (fun z c s =>
    let mig := fieldAt c 0 4
    let v := fieldAt c 4 1
    match s.outOf z mig with
    | some o =>
      if !o.committed then s
      else if v = 2 then s.outDone o
      else if (v = 3 ∨ v = 0) ∧ !s.on VFM_CMD_STAT_BUSY then (s.dropOut z mig).agentRestore o.fn (o.offer.drop 8) |>.2
      else s
    | none =>
      match s.inOf z mig with
      | some i => if i.state = 1 ∧ v = 4 then s.runCopy i else if i.state = 1 ∧ v = 5 then s.dropCopy i else s
      | none => s)

/-! ### Peers (R513 to R517) -/

/-- An ATTEST_REQ with a new NONCE is sent. -/
def State.askAttest (s : State) (z : Nat) : State :=
  let n := s.drawBytes 32
  (n.2.setPeer z { s.peer z with nonce := n.1, tries := 0 }).sendMsg z 2 n.1

/-- The peer becomes HEARD. -/
def State.peerHeard (s : State) (z : Nat) : State := (s.setPeer z { s.peer z with state := 1 }).askAttest z

/-- The peer becomes ABSENT: frozen copies of its functions are disabled (Table 17.5). -/
def State.peerAbsent (s : State) (z : Nat) : State :=
  let s := s.setPeer z ⟨0, [], [], 0, (s.peer z).warned⟩
  (s.cohort.inb.filter (fun i => i.pos == z)).foldl (fun (s : State) i => s.dropCopy i) s

/-- The members: this module and its peers that are HEARD or VERIFIED, with their digests, lowest position first (R515). -/
def State.digests (s : State) : List (List Byte) :=
  (List.range 6).filterMap (fun z =>
    if z = s.position then some s.ownDigest
    else if (s.peer z).state = 0 then none
    else some (((s.peer z).beacon.drop 0x20).take 32))

/-- The digest held by most members, on a tie that of the lowest position (R515). -/
def refDigest (l : List (List Byte)) : List Byte :=
  let best := l.foldl (fun (m : Nat) d => max m (l.count d)) 0
  (l.find? (fun d => l.count d == best)).getD []

/-- The mark of R515 is set or cleared; each change is recorded. -/
def State.refence (s : State) : State :=
  let own := s.ownDigest
  let r := refDigest s.digests
  if own ≠ r ∧ s.cohort.fenced = false then
    (s.setCohort { s.cohort with fenced := true }).agentLog 0x0C01 (fieldAt own 0 4) 0xFF (fieldAt r 0 4)
  else if own = r ∧ s.cohort.fenced = true then (s.setCohort { s.cohort with fenced := false }).agentLog 0x0C02 0 0xFF 0
  else s

/-- COHORT_BEACON_SEND (R511, Table 17.1). -/
def execCohortBeaconSend (s : State) : Out :=
  cohortDo s (fun s =>
    let s := s.refence
    let c := s.cohort
    let k := Config.cohortCompat s.tables
    let b := leBytes 1 1 ++ leBytes 1 1 ++ leBytes 1 s.position ++ leBytes 1 (b2n s.ownFence + 2 * b2n c.untrusted + 4 * b2n c.dup)
      ++ leBytes 4 c.seq ++ fitBytes 8 (Config.cohortId s.tables) ++ s.moduleId ++ s.ownDigest
      ++ fitBytes 12 (Config.svnSet [s.measure 0, s.measure 1, s.measure 2]) ++ leBytes 2 k.1 ++ leBytes 2 k.2
      ++ leBytes 8 s.zone ++ leBytes 2 s.epoch ++ leBytes 1 (s.get TIME_STAT_STATE)
      ++ leBytes 1 (s.get PWR_STATE_CUR + 16 * s.get NMW_STAT_ALL_ASLEEP) ++ leBytes 4 s.terr ++ leBytes 16 0
    (s.setCohort { c with seq := (c.seq + 1) % 2 ^ 32 }).cohortOut none b)

/-- A peer's beacon with the MODULE_ID of R510 is taken. -/
def State.takeBeacon (s : State) (z : Nat) (m : List Byte) : State :=
  let p := s.peer z
  let moved := p.state == 2 && (m.drop 0x20).take 44 != (p.beacon.drop 0x20).take 44
  let s := s.setPeer z { p with beacon := m }
  let s := if p.state = 0 ∨ moved = true then s.peerHeard z else s
  let s := if !s.suits z && !p.warned then
      (s.setPeer z { s.peer z with warned := true }).agentLog 0x0C04 (beaconCompat m).1 z (beaconCompat m).2
    else s
  s.refence

/-- COHORT_BEACON_RECEIVE (R510, R511, R513, R515, R516). -/
def execCohortBeaconReceive (m : List Byte) (secured : Bool) (s : State) : Out :=
  cohortDo s (fun s =>
    let z := fieldAt m 2 1
    let id := (m.drop 0x10).take 16
    if !secured || m.length != 112 || fieldAt m 0 1 != 1 || fieldAt m 1 1 != 1 || !s.taken z
        || (m.drop 8).take 8 != fitBytes 8 (Config.cohortId s.tables) then s
    else if z = s.position then
      (if id ≠ s.moduleId ∧ s.cohort.dup = false then
        (s.setCohort { s.cohort with dup := true }).agentLog 0x0C03 (fieldAt id 0 4) z 0 else s)
    else if id ≠ s.expected z then ((s.peerAbsent z).agentLog 0x0C03 (fieldAt id 0 4) z 0).refence
    else if (s.peer z).state ≠ 0 ∧ fieldAt m 4 4 ≤ fieldAt (s.peer z).beacon 4 4 then s
    else s.takeBeacon z m)

/-- PEER_ABSENT_TIMEOUT (R513); for its own position it ends the duplicate (R516). -/
def execPeerAbsentTimeout (z : Fin 6) (s : State) : Out :=
  cohortDo s (fun s =>
    if z.val = s.position then s.setCohort { s.cohort with dup := false }
    else (s.peerAbsent z.val).refence)

/-- An attestation attempt has failed (Table 17.3). -/
def State.attestFailed (s : State) (z check : Nat) : State :=
  (s.setPeer z { s.peer z with nonce := [], tries := 0 }).agentLog 0x0C06 check z 0

/-- ATTEST_REQ (R514): answered to a HEARD or VERIFIED peer; in RAW there is no root to answer with (R474). The signatures of the
statement are free values. -/
def execAttestReq (m : List Byte) (secured : Bool) (s : State) : Out :=
  transfer m secured 2 s (fun z c s =>
    if (s.peer z).state = 0 ∨ c.length ≠ 32 ∨ s.lifecycle = 0 then s
    else match s.otp.root with
    | none => s
    | some r =>
      let sig := s.drawBytes 3405
      sig.2.sendMsg z 3 (exportBytes r ++ s.attestation c 0x1F sig.1))

/-- The checks of R514, 1 to 6: the first that fails, or 0. -/
def State.checkRsp (s : State) (z : Nat) (c : List Byte) (sigOk : Bool) : Nat :=
  let pk := c.take 0xD14
  let st := c.drop 0xD14
  let id := (st.drop 0x10).take 16
  let b := st.drop 0x20
  let mm (i : Nat) : List Byte := (b.drop (0x50 + 48 * i)).take 48
  let svn := ((s.peer z).beacon.drop 0x40).take 12
  let r := Config.cohortRef s.tables svn
  if !(sigOk && fieldAt st 0 4 == 0x52495242 && fieldAt st 4 2 == 1 && fieldAt st 6 1 == 1 && fieldAt st 8 2 == 0x140
      && fieldAt st 0xA 2 == 96 && fieldAt st 0xC 2 == 3309 && fieldAt b 0x40 2 == 0x1F
      && id == fitBytes 16 (Config.sha384 (pk.take 97 ++ (pk.drop 0x64).take 1952))) then 1
  else if (b.drop 0x20).take 32 ≠ (s.peer z).nonce then 2
  else if id ≠ s.expected z then 3
  else if fieldAt b 0xA 1 ≠ 2 ∧ fieldAt b 0xA 1 ≠ 3 then 4
  else if (Config.sha384 (mm 3 ++ mm 4)).take 32 ≠ ((s.peer z).beacon.drop 0x20).take 32 then 5
  else if mm 1 ≠ fitBytes 48 r.1 ∨ mm 2 ≠ fitBytes 48 r.2 then 6
  else 0

/-- ATTEST_RSP (R514). -/
def execAttestRsp (m : List Byte) (secured sigOk : Bool) (s : State) : Out :=
  transfer m secured 3 s (fun z c s =>
    if (s.peer z).nonce = [] then s
    else
      let r := s.checkRsp z c sigOk
      if r = 0 then s.setPeer z { s.peer z with state := 2, nonce := [], tries := 0 } else s.attestFailed z r)

/-- PEER_REVERIFY_EXPIRY (Table 17.3). -/
def execPeerReverifyExpiry (z : Fin 6) (s : State) : Out :=
  cohortDo s (fun s =>
    if (s.peer z.val).state = 2 then s.peerHeard z.val
    else if (s.peer z.val).state = 1 ∧ (s.peer z.val).nonce = [] then s.askAttest z.val
    else s)

/-- An unanswered ATTEST_REQ: sent again, or after the third time failed; which check it failed, the spec does not say. -/
def State.retryAttest (s : State) (z : Nat) : State :=
  let p := s.peer z
  if p.nonce = [] then s
  else if p.tries < 3 then (s.setPeer z { p with tries := p.tries + 1 }).sendMsg z 2 p.nonce
  else
    let d := s.draw 32
    d.2.attestFailed z d.1

/-- An unanswered OFFER: sent again, or after the third time given up with an ABORT (Table 17.5). -/
def State.retryOffer (s : State) (z : Nat) : State :=
  match s.cohort.outb.find? (fun o => o.pos == z && !o.committed) with
  | none => s
  | some o =>
    if o.tries < 3 then (s.setOut { o with tries := o.tries + 1 }).sendMsg z 4 o.offer
    else (s.giveUp o).sendMsg z 7 (leBytes 4 o.mig)

/-- An unanswered QUERY: sent again, by a source whose COMMIT is out without limit (Table 17.5). -/
def State.retryQuery (s : State) (z : Nat) : State :=
  match s.cohort.asked.find? (fun q => q.pos == z) with
  | none => s
  | some q =>
    if q.tries < 3 ∨ (s.outOf z q.mig).isSome then s.sendQuery z q.mig (q.tries + 1)
    else s.setCohort { s.cohort with asked := s.cohort.asked.filter (fun p => !(p.pos == z && p.mig == q.mig)) }

/-- TRANSFER_RETRY_TIMEOUT (R512). -/
def execTransferRetryTimeout (z : Fin 6) (typ : Fin 16) (s : State) : Out :=
  cohortDo s (fun s => match typ.val with
    | 2 => s.retryAttest z.val
    | 4 => s.retryOffer z.val
    | 9 => s.retryQuery z.val
    | _ => s)

end Sys2Proof.Machine
end

