-- ==== Sys2Proof/Machine/Crypto.lean ====
section
/-! DEFINITION. The crypto engine (R170, R480, R481, R485). The algorithms are those of published standards; here they are
constants of Config. -/

namespace Sys2Proof.Machine

/-- The crypto ring pairs. -/
def cryRings : List Ring :=
  [.cry 0, .cry 1, .cry 2, .cry 3, .cry 4, .cry 5, .cryVf 0, .cryVf 1, .cryVf 2, .cryVf 3, .cryVf 4, .cryVf 5, .cryVf 6, .cryVf 7]

/-- The ring pair belongs to the crypto engine. -/
def isCry (r : Ring) : Bool := cryRings.contains r

/-- A ring pair has a descriptor for the engine, and its function may run it: a VF in RUN, or one that freezes and had started it. -/
def State.cryWork (s : State) (r : Ring) : Bool :=
  s.engineOn r && !s.on (RING_STAT_STOPPED r.base) && (match s.nextItem r with
    | some it => (match r.fn with
      | some f => s.vfState f == 1 || (s.vfState f == 2 && it.started)
      | none => true)
    | none => false)

/-- The round of R170 lets the function of `r` run: it has not been served in this round, or no other function with work is
left. -/
def State.cryTurn (s : State) (r : Ring) : Bool :=
  !s.keys.round.contains (cryFn r)
    || cryRings.all (fun q => !s.cryWork q || s.keys.round.contains (cryFn q))

/-- The function of `r` is served: in this round, or, with all served, in a new one. -/
def State.cryServe (s : State) (r : Ring) : State :=
  let round := if s.keys.round.contains (cryFn r) then [cryFn r] else s.keys.round ++ [cryFn r]
  { s with keys := { s.keys with round := round } }

/-- The key of a descriptor: its register is loaded and mapped to the ring's function (R481). -/
def State.cryKey (s : State) (r : Ring) (d : List Byte) : Option (List Byte) :=
  let k := dbits d 104 4
  let owner := match r with
    | .cry n => if n.val < 4 then 2 else 1
    | r => cryFn r
  if s.get (CRY_KEYMAP k) = owner ∧ bit (s.get CRY_KEYS) k = true then (s.keys.cry.find? (fun p => p.1 == k)).map (·.2) else none

/-- A descriptor's result is written to DST and completes OK. -/
def State.cryOut (s : State) (r : Ring) (it : Item) (out : List Byte) : State :=
  let dst := dbits it.desc 152 40
  let w := s.ringWrite r dst out
  if w.1.cause = 0 then w.2.finish r it.idx 0 0 0 else w.2.dataFail r it.idx w.1 dst dst out.length

/-- The bytes a descriptor writes to DST. -/
def cryOutLen (d : List Byte) : Nat :=
  match dOp d with
  | 1 => dbits d 112 24 - dbits d 136 16
  | 2 => dbits d 112 24 - dbits d 136 16
  | 3 => 16
  | 4 => 48
  | _ => 0

/-- The next descriptor of a crypto ring, of OP `op`, is processed by `act` from its input bytes and its key. -/
def State.cryExec (s : State) (r : Ring) (op : Nat) (act : State → Item → List Byte → List Byte → State) : State :=
  match s.nextItem r with
  | none => s
  | some it =>
    if !isCry r || !s.cryWork r || dOp it.desc != op || !s.cryTurn r then s
    else
      let s := (s.cryServe r).startItem r it.idx
      match (if op = 0 ∨ op = 4 then some [] else s.cryKey r it.desc) with
      | none => (s.cryError 4 (cryFn r) 0).finish r it.idx 0x11 0 0
      | some key =>
        let src := dbits it.desc 64 40
        let x := if op = 0 then (.ok [], s) else s.ringRead r src (dbits it.desc 112 24)
        match x.1 with
        | .ok d => act x.2 it d key
        | e => x.2.dataFail r it.idx e src (dbits it.desc 152 40) (cryOutLen it.desc)

/-- CRY_NOP. -/
def execCryNop (r : Ring) (s : State) : Out := whenAwake s (fun s => s.cryExec r 0 (fun s it _ _ => s.finish r it.idx 0 0 0))

/-- The IV and the tag place of a GCM descriptor (Table 15.20). -/
def ivTag (d : List Byte) : Nat := dbits d 192 40

/-- CRY_GCM_ENC: the ciphertext to DST, the tag to IVTAG + 16. -/
def execCryGcmEnc (r : Ring) (s : State) : Out :=
  whenAwake s (fun s => s.cryExec r 1 (fun s it d key =>
    let n := dbits it.desc 136 16
    let iv := s.ringRead r (ivTag it.desc) 16
    match iv.1 with
    | .ok b =>
      let c := Config.gcmEnc key (b.take 12) (d.take n) (d.drop n)
      let dst := dbits it.desc 152 40
      let w := iv.2.ringWrite r dst (fitBytes (d.length - n) c.1)
      if w.1.cause = 0 then
        let u := (w.2.finish r it.idx 0 0 0).ringWrite r (ivTag it.desc + 16) (fitBytes 16 c.2)
        if u.1.cause = 0 then u.2 else u.2.dataFail r it.idx u.1 (ivTag it.desc + 16) dst (d.length - n)
      else w.2.dataFail r it.idx w.1 dst dst (d.length - n)
    | e => iv.2.dataFail r it.idx e (ivTag it.desc) (dbits it.desc 152 40) (d.length - n)))

/-- CRY_GCM_DEC: the text to DST; with a tag that differs, zeros and AUTH_FAIL (R481). -/
def execCryGcmDec (r : Ring) (s : State) : Out :=
  whenAwake s (fun s => s.cryExec r 2 (fun s it d key =>
    let n := dbits it.desc 136 16
    let iv := s.ringRead r (ivTag it.desc) 32
    match iv.1 with
    | .ok b =>
      let c := Config.gcmDec key (b.take 12) (d.take n) (d.drop n)
      if fitBytes 16 c.2 = b.drop 16 then iv.2.cryOut r it (fitBytes (d.length - n) c.1)
      else
        let dst := dbits it.desc 152 40
        let w := iv.2.ringWrite r dst (List.replicate (d.length - n) 0)
        if w.1.cause = 0 then ((w.2.count CRY_AUTHFAIL).cryError 3 (cryFn r) 0).finish r it.idx 0x10 0 0
        else w.2.dataFail r it.idx w.1 dst dst (d.length - n)
    | e => iv.2.dataFail r it.idx e (ivTag it.desc) (dbits it.desc 152 40) (d.length - n)))

/-- CRY_CMAC. -/
def execCryCmac (r : Ring) (s : State) : Out :=
  whenAwake s (fun s => s.cryExec r 3 (fun s it d key => s.cryOut r it (fitBytes 16 (Config.cmac key d))))

/-- CRY_SHA384. -/
def execCrySha384 (r : Ring) (s : State) : Out :=
  whenAwake s (fun s => s.cryExec r 4 (fun s it d _ => s.cryOut r it (fitBytes 48 (Config.sha384 d))))

/-- CRY_ERR_CTL.REARM (R485). -/
def execCryRearm (a : Agent) (s : State) : Out :=
  regCommand a CRY_ERR_CTL_REARM.addr s (fun s => s.set CRY_ERR_INFO_VALID 0)

/-- CRY_ERR_CTL.CLR_CNT (R485). -/
def execCryClrCnt (a : Agent) (s : State) : Out :=
  regCommand a CRY_ERR_CTL_CLR_CNT.addr s (fun s => s.set CRY_AUTHFAIL 0)

end Sys2Proof.Machine
end

