-- ==== Sys2Proof/Machine/Harts.lean ====
section
/-! DEFINITION. The harts: registers by their Debug Module number, interrupt inputs, exceptions, zone time (Voted Lane Groups, R84 to
R90, R103, R120; Application Cluster and Virtual Functions, R160 to R164, R175). The instruction sets are those of the published
RISC-V specifications; what an instruction does to registers is part of the command that executes it. -/

namespace Sys2Proof.Machine

/-- Hart `h`. -/
def State.hart (s : State) (h : Nat) : HartSt := look s.harts h ⟨[], false, false, false⟩

/-- Hart `h` is given a state. -/
def State.setHart (s : State) (h : Nat) (x : HartSt) : State := { s with harts := ins s.harts h x }

/-- The width of a hart's registers: a lane is RV32, a core RV64 (R84, R160). -/
def hartBits (h : Nat) : Nat := if h < 8 then 32 else 64

/-- The reset value of a register: misa names the extensions (R84, R160), dcsr (0x7B0) machine mode. PRESUMED: the fields' places are
those of the RISC-V specifications; every register for which the spec gives none starts at 0 (DESIGN CHOICE). -/
def hartInit (h n : Nat) : Nat :=
  if n = 0x301 then (if h < 8 then 0x40101124 else 2 ^ 63 + 0x1411AD)
  else if n = 0x7B0 then 0x40000003
  else 0

/-- A register of a hart as it stands. -/
def State.hartReg (s : State) (h n : Nat) : Nat := look (s.hart h).regs n (hartInit h n)

/-- A register of a hart is written. -/
def State.setHartReg (s : State) (h n v : Nat) : State := s.setHart h { s.hart h with regs := ins (s.hart h).regs n v }

/-- The application core executes: ISL_APP is powered and clocked, its PLL locked, the core not held in reset. -/
def State.coreRuns (s : State) (n : Nat) : Bool :=
  s.awake && !s.pwr.appOff && !s.on CLK_ISL_GATE_APP && !bit s.pwr.unlocked 2 && !bit (s.get RST_APP) n
    && !bit s.haltedHarts (8 + n)

/-! ### Interrupt inputs -/

/-- The line of virtual function `f` is asserted (R175). -/
def State.vfLine (s : State) (f : Nat) : Bool :=
  decide (s.vfState f = 1 ∨ s.vfState f = 2) && ((s.get (VFP_VF_EVT_PEND f) &&& s.get (VFP_VF_EVT_EN f)) != 0)

/-- hgeip of core `n` (R164, R175): bit GEI of every VF line routed to the core; GEI 0 routes nowhere. -/
def State.hgeip (s : State) (n : Nat) : Nat :=
  (List.range 32).foldl (fun m f =>
    let gei := s.get (VFM_VF_ROUTE_GEI f)
    if s.vfLine f && (s.get (VFM_VF_ROUTE_CORE f) == n) && gei != 0 then orBits m (2 ^ gei) else m) 0

/-- mip of hart `h`, as its inputs drive it (R42, R85, R99, R120, R163, R164). A lane has no machine timer. The bits of a core that
software sets stand beside them; VSEIP and SGEIP follow hgeip (PRESUMED: as the RISC-V specification derives them). -/
def State.mip (s : State) (h : Nat) : Nat :=
  if h < 8 then
    let g := h / 4
    let split := s.on (VOTE_STAT_MODE g)
    let meip := if split then h % 4 == 0 && s.irqLine g else (s.grp g).line
    2048 * b2n meip + 8 * b2n (split && bit (s.get (VOTE_SPLIT_IPI g)) (h % 4))
  else
    let n := h - 8
    let line := s.irqLine (2 + n)
    let ext := bit (s.get VFM_APP_EXT) n
    let gei := s.hgeip n
    orBits (s.hartReg h 0x344 &&& 0x206)
      (2048 * b2n (line && !ext) + 512 * b2n (line && ext) + 32 * b2n (s.hart h).fired + 64 * b2n (s.hart h).vfired
        + 1024 * b2n (bit (s.hartReg h 0x645) 10 || (bits (s.hartReg h 0x600) 12 6 != 0 && bit gei (bits (s.hartReg h 0x600) 12 6)))
        + 4096 * b2n ((gei &&& s.hartReg h 0x607) != 0))

/-! ### Reads and writes of registers -/

/-- The hart has the CSR (R84, R160): a lane has machine and user mode only; both have 16 PMP entries. -/
def csrExists (h n : Nat) : Bool :=
  (decide (8 ≤ h) || n / 256 % 4 == 0 || n / 256 % 4 == 3)
    && !(decide (0x3A4 ≤ n) && decide (n < 0x3B0)) && !(decide (0x3C0 ≤ n) && decide (n < 0x3F0))
    && !(decide (8 ≤ h) && (n == 0x3A1 || n == 0x3A3))

/-- A CSR that cannot be written: the two upper bits of its number are 1 (PRESUMED: as the RISC-V specification numbers them). -/
def csrReadOnly (n : Nat) : Bool := decide (0xC00 ≤ n) && decide (n < 0x1000)

/-- A register whose value the model derives: x0, mhartid, mip, the counters, QCKPT, time of a core, hgeip. -/
def State.hartDerived (s : State) (h n : Nat) : Option Nat :=
  if n = 0x1000 then some 0
  else if n = 0xF14 then some h
  else if n = 0x344 ∧ (h < 8 ∨ (s.hart h).lost = false) then some (s.mip h)
  else if h < 8 ∧ n = 0x7C1 then some 0
  else if 8 ≤ h ∧ n = 0xC01 then some s.zone
  else if 8 ≤ h ∧ n = 0xE12 then some (s.hgeip (h - 8))
  else none

/-- The register that a user counter shows: cycle and instret are mcycle and minstret (R86). -/
def counterOf (n : Nat) : Nat :=
  if n = 0xC00 ∨ n = 0xC02 ∨ n = 0xC80 ∨ n = 0xC82 then n - 0x100 else n

/-- A register of a core that has become unknown takes a free value. -/
def State.hartKnow (s : State) (h n : Nat) : State :=
  if (s.hart h).regs.all (fun p => p.1 != n) then
    let d := s.draw (hartBits h)
    d.2.setHartReg h n d.1
  else s

/-- The registers that mip of a core depends on beside its inputs: mip's own software bits, hvip, hstatus, hgeie. -/
def mipParts : List Nat := [0x344, 0x645, 0x600, 0x607]

/-- A read of a hart's register; one that has become unknown is a free value, which a halted hart then holds on to; mip of a core shows
its inputs all the same (R164). A core samples the epoch with its time (R163). -/
def State.hartRead (s : State) (h n : Nat) : Nat × State :=
  match s.hartDerived h n with
  | some v => (v, if n = 0xC01 then s.setHartReg h 0xCC0 s.epoch else s)
  | none =>
    if n = 0x344 then
      let t := mipParts.foldl (fun t n => t.hartKnow h n) s
      (t.mip h, if bit s.haltedHarts h then t else { s with fresh := t.fresh })
    else
    let n := counterOf n
    let x := s.hart h
    if x.lost && x.regs.all (fun p => p.1 != n) && !(decide (h < 8) && (n == 0xC81 || n == 0xCC0)) then
      let d := s.draw (hartBits h)
      (d.1, if bit s.haltedHarts h then d.2.setHartReg h n d.1 else d.2)
    else (s.hartReg h n, s)

/-- The bits of a register that a write reaches: QDWIN has its fields only (Table 3.1), of mip software sets SSIP, VSSIP and SEIP of a
core. -/
def writable (h n : Nat) : Nat :=
  if h < 8 ∧ n = 0x7C0 then 0x8000000F else if n = 0x344 then (if h < 8 then 0 else 0x206) else 2 ^ hartBits h - 1

/-- A write to a hart's register by an instruction or by the debugger; x0, QCKPT and the read-only CSRs hold nothing; one of stimecmp or
vstimecmp arms the comparison (R163). -/
def State.hartWrite (s : State) (h n v : Nat) : State :=
  if n = 0x1000 ∨ (h < 8 ∧ n = 0x7C1) ∨ csrReadOnly n = true then s
  else
    let s := s.setHartReg h n (v &&& writable h n)
    let x := s.hart h
    if n = 0x14D then s.setHart h { x with fired := false } else if n = 0x24D then s.setHart h { x with vfired := false } else s

/-- The registers that a retired instruction writes. -/
def State.hartWrites (s : State) (h : Nat) (l : List (Nat × Nat)) : State := l.foldl (fun s p => s.hartWrite h p.1 p.2) s

/-- A 64-bit counter in two registers of a lane counts `n` more. -/
def State.laneCount (s : State) (h lo hi n : Nat) : State :=
  let v := s.hartReg h lo + 2 ^ 32 * s.hartReg h hi + n
  (s.setHartReg h lo (v % 2 ^ 32)).setHartReg h hi (v / 2 ^ 32 % 2 ^ 32)

/-- A lane executes: its cycles and a retired instruction count (R86). -/
def State.laneTick (s : State) (h cycles : Nat) (retired : Bool) : State :=
  let s := s.laneCount h 0xB00 0xB80 cycles
  if retired then s.laneCount h 0xB02 0xB82 1 else s

/-- The registers of a core that commands of this model keep up to date while it runs: stimecmp, vstimecmp, QZEPOCH; of a lane its time
sample. -/
def keptCsrs : List Nat := [0x14D, 0x24D, 0xC01, 0xC81, 0xCC0]

/-- The hart has run instructions that no command shows: what its other registers hold is no longer known. -/
def State.forget (s : State) (h : Nat) : State :=
  let x := s.hart h
  s.setHart h { x with regs := x.regs.filter (fun p => keptCsrs.contains p.1), lost := true }

/-! ### Exceptions of a lane (R26, R89, R97, R104) -/

/-- The cause of an access fault: 1 fetch, 5 load, 7 store (PRESUMED: the codes of the RISC-V specification). -/
def faultCause (fetch write : Bool) : Nat := if write then 7 else if fetch then 1 else 5

/-- A lane takes an exception, into machine mode (R84). PRESUMED: what is saved and where the lane goes on is as the RISC-V privileged
specification gives it: mepc, mcause, mtval, mstatus.MPIE and MPP, the pc from mtvec. -/
def State.laneTrap (s : State) (h cause tval : Nat) : State :=
  let st := s.hartReg h 0x300
  let dcsr := s.hartReg h 0x7B0
  let st' := clearBits st 0x1888 + 128 * b2n (bit st 3) + 2048 * bits dcsr 0 2
  let s := (((s.setHartReg h 0x341 (s.hartReg h 0x7B1)).setHartReg h 0x342 cause).setHartReg h 0x343 tval).setHartReg h 0x300 st'
  (s.setHartReg h 0x7B0 (orBits dcsr 3)).setHartReg h 0x7B1 (s.hartReg h 0x305 / 4 * 4)

/-- Where a lane address reaches (R89): the DRAM window through QDWIN, `none` where the window is not usable. -/
def windowAddr (qdwin addr : Nat) : Option Nat :=
  if 0x60000000 ≤ addr ∧ addr < 0x70000000 then
    (if bit qdwin 31 = true ∧ qdwin % 16 < 14 then some (0x100000000 + qdwin % 16 * 0x10000000 + (addr - 0x60000000)) else none)
  else some (addr % 2 ^ 32)

/-! ### Zone time at the application cores (R163) -/

/-- APP_TIME_READ: CSR time (0xC01) gives zone time, QZEPOCH (0xCC0) the epoch sampled with it. -/
def execAppTimeRead (n : Fin 4) (s : State) : Out :=
  if s.coreRuns n then done ((s.setHartReg (8 + n) 0xC01 s.zone).setHartReg (8 + n) 0xCC0 s.epoch) else .next s

/-- STIMECMP_FIRE: the comparison of stimecmp (0x14D) or vstimecmp (0x24D) holds; one that has fired does not fire again, and the
timer interrupt is pending in mip. -/
def execStimecmpFire (n : Fin 4) (vs : Bool) (s : State) : Out :=
  let x := s.hart (8 + n)
  if !s.coreRuns n || (if vs then x.vfired else x.fired) then .next s
  else
    let cmp := s.hartReg (8 + n) (if vs then 0x24D else 0x14D)
    let s := if s.zone < cmp ∧ s.timeLive = true then { s with zone := cmp % 2 ^ 64, zoneFrac := 0 } else s
    if s.zone < cmp then done s
    else done (s.setHart (8 + n) (if vs then { x with vfired := true } else { x with fired := true }))

end Sys2Proof.Machine
end

