-- ==== Sys2Proof/Machine/Lanes.lean ====
section
/-! DEFINITION. The voted lane groups: lane status, mismatches, restarts, rejoin, the commands of VOTE0 and VOTE1 (Voted Lane Groups,
R84 to R127; Checkpoints, R131, R134 to R136, R144 to R146). -/

namespace Sys2Proof.Machine

/-! ### Status -/

/-- The field of the status of lane `k` of group `g`. -/
def laneFld (g k : Nat) : Fld := if k = 0 then VOTE_STAT_LANE0 g else if k = 1 then VOTE_STAT_LANE1 g else VOTE_STAT_LANE2 g

/-- The mask counter of lane `k`. -/
def maskFld (g k : Nat) : Fld :=
  if k = 0 then VOTE_MASK_CNT_LANE0 g else if k = 1 then VOTE_MASK_CNT_LANE1 g else VOTE_MASK_CNT_LANE2 g

/-- The held-disagreement counter of lane `k`. -/
def heldFld (g k : Nat) : Fld :=
  if k = 0 then VOTE_AGREE_HELD_LANE0 g else if k = 1 then VOTE_AGREE_HELD_LANE1 g else VOTE_AGREE_HELD_LANE2 g

/-- Lane `k` of group `g` takes a status of Table 3.4. -/
def State.setLane (s : State) (g k v : Nat) : State := s.set (laneFld g k) v

/-- The group state of Table 3.6. -/
def State.group (s : State) (g : Nat) : Nat := s.get (VOTE_STAT_GROUP g)

/-- The lanes of a group with a status. -/
def State.lanesIn (s : State) (g v : Nat) : List Nat := [0, 1, 2].filter (fun k => s.lane g k == v)

/-- The ACTIVE lanes. -/
def State.active (s : State) (g : Nat) : List Nat := s.lanesIn g 0

/-- The group runs SPLIT (R118). -/
def State.isSplit (s : State) (g : Nat) : Bool := s.on (VOTE_STAT_MODE g)

/-- TRIPLEX or DUPLEX, as the ACTIVE lanes make it (Table 3.6). -/
def State.settleGroup (s : State) (g : Nat) : State :=
  s.set (VOTE_STAT_GROUP g) (if (s.active g).length = 3 then 0 else 1)

/-- The group has its clock: SG1's is not gated (R80), its PLL has not lost lock, and the control die runs. -/
def State.groupClocked (s : State) (g : Nat) : Bool :=
  s.awake && !bit s.pwr.unlocked g && !(g == 1 && s.on CLK_ISL_GATE_SG1 && !s.pwr.sg1GateDue)

/-- The group is halted in debug mode. -/
def State.debugHalted (s : State) (g : Nat) : Bool := bit s.haltedHarts (4 * g)

/-- A VOTED group that executes: live, or in replay. -/
def State.groupSteps (s : State) (g : Nat) : Bool :=
  s.groupClocked g && !s.isSplit g && !s.debugHalted g
    && (decide (s.group g < 2) || (s.group g == 3 && (s.grp g).step == .replay))

/-- A VOTED group that is live: TRIPLEX or DUPLEX. -/
def State.groupLive (s : State) (g : Nat) : Bool := s.groupClocked g && !s.isSplit g && decide (s.group g < 2)

/-- A lane group is given a state, with the entry counts that CKPT_STAT shows of it. -/
def State.putGrp (s : State) (g : Nat) (x : LaneGrp) : State :=
  ((s.setGrp g x).set (IST_CKPT_STAT_UNDO g) x.undo.length).set (IST_CKPT_STAT_RELQ g) x.relq.length

/-- The architectural state of the group, by register (R131). -/
def State.voteRegs (s : State) (g : Nat) : List (Nat × Nat) := (s.hart (4 * g)).regs

/-! ### The undo log (Tables 4.2 and 4.3) -/

/-- An entry is appended, in execution order (R134), while one of the 2048 is free; bits [1:0] of its address are 0 (Table 4.2). -/
def State.logUndo (s : State) (g typ aux addr value : Nat) : State :=
  let x := s.grp g
  if 2048 ≤ x.undo.length then s
  else s.putGrp g { x with undo := x.undo ++ [⟨typ, aux, addr / 4 * 4, value, false⟩] }

/-- An input entry of the instruction that executes: it stays in the log where a commit comes before the instruction retires (R130). -/
def State.logInput (s : State) (g typ aux addr value : Nat) : State :=
  let s := s.logUndo g typ aux addr value
  s.setGrp g { s.grp g with tail := (s.grp g).tail ++ [⟨typ, aux, addr / 4 * 4, value, false⟩] }

/-- The first entry of a list that satisfies `p` is replaced. -/
def replaceFirst {α : Type} (p : α → Bool) (f : α → α) : List α → List α
  | [] => []
  | a :: t => if p a then f a :: t else a :: replaceFirst p f t

/-- The old word of a TCM or SRAM write: appended, or, in replay, written into the consumed slot it came from (R145). -/
def State.logOld (s : State) (g typ addr old : Nat) : State :=
  let x := s.grp g
  if x.step = .replay then
    let u := replaceFirst (fun e => e.typ == typ && e.used) (fun e => { e with addr := addr, value := old, used := false }) x.undo
    s.putGrp g { x with undo := u }
  else s.logUndo g typ 0 addr old

/-- The entries of an input kind that a replay has not consumed yet, oldest first. -/
def State.replayLeft (s : State) (g typ : Nat) : List UndoEnt :=
  ((s.grp g).undo).filter (fun e => e.typ == typ && !e.used)

/-- The oldest entry of a kind is consumed. -/
def State.consume (s : State) (g typ : Nat) : State :=
  let x := s.grp g
  let u := replaceFirst (fun e => e.typ == typ && !e.used) (fun e => { e with used := true }) x.undo
  s.putGrp g { x with undo := u }

/-- An input entry: READ, TIME, LINE, WERR. -/
def isInput (e : UndoEnt) : Bool := decide (3 ≤ e.typ)

/-! ### Mismatches and restarts (R94, R111, R125, R144) -/

/-- The mismatch capture (R125): kind, lanes, fields, address, cycle. -/
def State.captureMismatch (s : State) (g kind lanes fields addr cyc : Nat) : State :=
  if s.on (VOTE_MM_INFO_VALID g) && (kind == 1 || s.get (VOTE_MM_INFO_KIND g) != 1) then s
  else s.setAll [(VOTE_MM_INFO_VALID g, 1), (VOTE_MM_INFO_KIND g, kind), (VOTE_MM_INFO_LANES g, lanes),
    (VOTE_MM_INFO_FIELDS g, fields), (VOTE_MM_ADDR_LO g, addr), (VOTE_MM_ADDR_HI g, addr / 2 ^ 32),
    (VOTE_MM_CYC_LO g, cyc), (VOTE_MM_CYC_HI g, cyc / 2 ^ 32)]

/-- The group enters HALTED (R111): it issues nothing and its agreement port delivers nothing. -/
def State.groupHalts (s : State) (g : Nat) : State :=
  (s.set (VOTE_STAT_GROUP g) 4).setGrp g { s.grp g with window := false, step := .live, port := none }

/-- LANE_TEST_INCOMPLETE (R149): a restart ends the test of a lane of the group; the lane is MASKED, and due for its test again. -/
def State.testIncomplete (s : State) (g : Nat) : State :=
  if s.get IST_STAT_ITEM = g + 1 then
    let k := s.get IST_STAT_UNIT
    let s := s.setLane g k 1
    ({ s with ist := { s.ist with memBist := false, due := putBit s.ist.due g true } }).istEnd 3 1
  else s

/-- A duplex or group restart begins (R144 step 1), or the group halts at the limit (R111). -/
def State.groupRestart (s : State) (g : Nat) (triple : Bool) : State :=
  if max 1 (s.get (VOTE_CFG_RESTART_LIMIT g)) ≤ s.get (VOTE_RESTART_CNT_CONSEC g) then s.groupHalts g
  else
    let s := ((s.count (VOTE_RESTART_CNT_CONSEC g)).count (VOTE_RESTART_CNT_TOTAL g)).testIncomplete g
    let s := s.putGrp g { s.grp g with relq := [], window := false, step := .resetting, triple := triple, port := none, tail := [] }
    (s.set (VOTE_STAT_GROUP g) 3).raise (24 + g)

/-- A lane is outvoted (Table 3.5): held in reset, counted, FAILED at the limit, event 16 or 20. -/
def State.maskLane (s : State) (g k : Nat) : State :=
  let x := s.grp g
  let n := x.masks.getD k 0 + 1
  let limit := s.get (VOTE_CFG_FAIL_LIMIT g)
  let s := s.setGrp g { x with masks := x.masks.set k n, late := putBit x.late k false }
  let s := (s.count (maskFld g k)).setLane g k (if limit ≠ 0 ∧ limit ≤ n then 4 else 1)
  (if s.group g < 2 then s.settleGroup g else s).raise (16 + 4 * g)

/-! ### The voter (R92 to R94) -/

/-- A lane that puts out nothing. -/
def idleOut : LaneOut := ⟨false, 0, 0, 0, false, false, 0, false, false, 0, false, 0, 0, 0, 0, none⟩

/-- A lane's own access, in the cycle `o`, faults (R89, R97): an address in the DRAM window that QDWIN does not let through, or an
uncorrectable codeword in the array of lane `k`; with the cause and the address. -/
def State.laneFault (s : State) (g k : Nat) (o : LaneOut) : Option (Nat × Nat) :=
  match o.own with
  | some off =>
    if classify (s.synOf (arrayAddr k (0x20000000 + 0x100000 * g + off % 0x80000) / 16)) = .uncorrectable then
      some (faultCause o.fetch false, 0x20000000 + 0x100000 * g + off % 0x80000)
    else none
  | none =>
    if o.valid && (windowAddr (s.hartReg (4 * g) 0x7C0) o.addr).isNone then some (faultCause o.fetch o.write, o.addr) else none

/-- The compared outputs of lane `k` (R89, R92): its request with the 40-bit fabric address; a lane whose access faults puts out
nothing in that cycle. -/
def State.laneOut (s : State) (g k : Nat) (o : LaneOut) : LaneOut :=
  if (s.laneFault g k o).isSome then idleOut
  else { o with addr := (windowAddr (s.hartReg (4 * g) 0x7C0) o.addr).getD 0 }

/-- A lane reads its own array: what its check finds is reported (R27, R97). -/
def State.ownRead (s : State) (g k : Nat) (o : LaneOut) : State :=
  match o.own with
  | none => s
  | some off =>
    let a := 0x20000000 + 0x100000 * g + off % 0x80000
    s.codeReport a g (s.synOf (arrayAddr k a / 16))

/-- The outputs in which two lanes differ, as VOTE_MM_INFO.FIELDS names them. -/
def outDiff (p q : LaneOut) : Nat :=
  b2n (p.valid != q.valid) + 2 * b2n (p.addr != q.addr) + 4 * b2n (p.data != q.data || p.check != q.check)
    + 8 * b2n (p.write != q.write || p.beats != q.beats || p.secure != q.secure || p.prefetch != q.prefetch)
    + 16 * b2n (p.strobes != q.strobes)
    + 32 * b2n (p.tcmValid != q.tcmValid || p.tcmAddr != q.tcmAddr || p.tcmData != q.tcmData || p.tcmCheck != q.tcmCheck || p.tcmStrobes != q.tcmStrobes)

/-- What the voter finds. -/
inductive Vote where
  /-- the ACTIVE lanes agree -/
  | agree (o : LaneOut)
  /-- one lane differs from the two others -/
  | single (lane : Nat) (o : LaneOut) (fields : Nat)
  /-- the two ACTIVE lanes differ -/
  | duplex (fields : Nat)
  /-- all three differ -/
  | triple (fields : Nat)
deriving DecidableEq, Repr

/-- Table 3.2 over the outputs of the ACTIVE lanes. -/
def voteOf (l : List (Nat × LaneOut)) : Vote :=
  match l with
  | [(i, p), (j, q), (k, r)] =>
    if outDiff p q = 0 then (if outDiff p r = 0 then .agree p else .single k p (outDiff p r))
    else if outDiff p r = 0 then .single j p (outDiff p q)
    else if outDiff q r = 0 then .single i q (outDiff p q)
    else .triple (orBits (outDiff p q) (orBits (outDiff p r) (outDiff q r)))
  | [(_, p), (_, q)] => if outDiff p q = 0 then .agree p else .duplex (outDiff p q)
  | (_, p) :: _ => .agree p
  | [] => .agree idleOut

/-- The address that the capture shows of an output: the TCM offset where the TCM write port alone differs. -/
def mmAddr (fields : Nat) (o : LaneOut) : Nat := if fields = 32 then o.tcmAddr else o.addr

/-- The lanes as a mask. -/
def laneMask (l : List Nat) : Nat := l.foldl (fun m k => m + 2 ^ k) 0

/-! ### Restore (R144 step 3) -/

/-- A word of memory, as bytes. -/
def wordBytes (v : Nat) : List Byte := leBytes 4 v

/-- An applied entry puts its old word back: into the array of every lane that takes part, or into SRAM, over I0 (R144). -/
def State.applyOld (s : State) (g : Nat) (e : UndoEnt) : State :=
  if e.typ = 1 then
    (s.active g).foldl (fun (s : State) k => (s.writeMem (arrayAddr k e.addr) (0x12 + g) (wordBytes e.value)).2) s
  else if e.typ = 2 then (s.busWrite (.lane 0 0) e.addr (wordBytes e.value)).2
  else s

/-- The restore: old words newest first, input entries to be consumed anew, the committed checkpoint half in the lanes. -/
def State.restore (s : State) (g : Nat) : State :=
  let x := s.grp g
  let s := ((x.undo.filter (fun e => !isInput e && !e.used)).reverse).foldl (fun (s : State) e => s.applyOld g e) s
  let half := if s.on (IST_CKPT_STAT_HALF g) then x.half1 else x.half0
  let s := s.setHart (4 * g) { s.hart (4 * g) with regs := half }
  s.putGrp g { s.grp g with
    undo := x.undo.map (fun e => { e with used := !isInput e })
    line := x.line0, insns := 0, writes := 0, step := .restoring }

/-- RESTART_RESET_DONE. -/
def execRestartResetDone (g : Fin 2) (s : State) : Out :=
  if s.groupClocked g && s.group g == 3 && (s.grp g).step == .resetting then done (s.restore g) else .next s

/-- The bits that codewords of the log and of the checkpoint buffer have lost are added to their syndromes. -/
def State.codeFlips (s : State) (g : Nat) (flips : List Flip) : State :=
  let x := s.grp g
  s.setGrp g { x with codes := flips.foldl (fun m f => ins m f.1 (look m f.1 0 ^^^ flipSyndrome f.2)) x.codes }

/-- The codewords of the committed half: 64, from 2048 or 2112. -/
def State.halfWords (s : State) (g : Nat) : List Nat := (List.range 64).map (· + if s.on (IST_CKPT_STAT_HALF g) then 2112 else 2048)

/-- What a restart reads of the log and the buffer is checked: each word is reported, and whether one is uncorrectable (R134, R146). -/
def State.checkCodes (s : State) (g : Nat) (words : List Nat) : Bool × State :=
  let syns := words.map (fun w => look (s.grp g).codes w 0)
  (syns.any (fun v => classify v == .uncorrectable), syns.foldl (fun (s : State) v => s.codeReport 0 g v) s)

/-- The LINE entries that a replay has reached take effect (R145): each at the boundary after its recorded instruction count. -/
def State.applyLines (s : State) (g : Nat) : State :=
  let x := s.grp g
  let due (e : UndoEnt) : Bool := e.typ == 5 && !e.used && decide (e.value ≤ x.insns)
  match (x.undo.filter due).getLast? with
  | none => s
  | some e => s.setGrp g { x with
      undo := x.undo.map (fun e => if due e then { e with used := true } else e)
      line := bit e.aux 0, halt := bit e.aux 1 }

/-- RESTART_RESTORE_COMPLETE (R146). -/
def execRestartRestoreComplete (g : Fin 2) (flips : List Flip) (s : State) : Out :=
  if s.groupClocked g && s.group g == 3 && (s.grp g).step == .restoring then
    let s := s.codeFlips g flips
    let r := s.checkCodes g (List.range (s.grp g).undo.length ++ s.halfWords g)
    done (if r.1 then r.2.groupHalts g else (r.2.setGrp g { r.2.grp g with step := .replay }).applyLines g)
  else .next s

/-- REPLAY_COMPLETE (R144 steps 4 and 5): no input entry is left; the group commits at the first boundary; the record 0x0420.
DESIGN CHOICE: a time that the 16-bit fields of RESTART_LAST, RESTART_MAX and the record do not hold shows as 0xFFFF. -/
def execReplayComplete (g : Fin 2) (time : Nat) (s : State) : Out :=
  let x := s.grp g
  if s.groupClocked g && s.group g == 3 && x.step == .replay && x.undo.all (fun e => !isInput e || e.used) then
    let n := (x.undo.filter isInput).length
    let t := min time 0xFFFF
    let s := (s.setGrp g { x with step := .live, commitDue := true }).settleGroup g
    let s := s.setAll [(IST_RESTART_LAST_TIME g, t), (IST_RESTART_LAST_ENTRIES g, n),
      (IST_RESTART_MAX g, max t (s.get (IST_RESTART_MAX g)))]
    done (s.logDue 1 0x0420 0 g.val t n)
  else .next s

/-! ### Rejoin (R112 to R117) -/

/-- A MASKED lane is due (R112). -/
def State.rejoinDue (s : State) (g k : Nat) : Bool :=
  let x := s.grp g
  s.lane g k == 1 && (!s.on (VOTE_CFG_REJOIN_POL g) || x.window || bit x.late k || x.rejoinNow)

/-- The lanes that are due. -/
def State.dueLanes (s : State) (g : Nat) : List Nat := [0, 1, 2].filter (fun k => s.rejoinDue g k)

/-- The group view of a group. -/
def viewBase (g : Nat) : Nat := 0x20000000 + 0x100000 * g

/-- The codewords of an array that are not clean, by their address in the group view. -/
def State.dirtyWords (s : State) (g k : Nat) : List Nat :=
  (keepRange s.syn (arrayAddr k (viewBase g) / 16) (arrayAddr k (viewBase g + 0x80000) / 16)).map (fun p => p.1 * 16 - k * 2 ^ 40)

/-- One codeword of array `k` replaces that of array `t`, unchanged. -/
def State.copyWord (s : State) (a k t : Nat) : State :=
  (s.writeBytes (arrayAddr t a) (s.readBytes (arrayAddr k a) 16)).setSyn (arrayAddr t a / 16) (s.synOf (arrayAddr k a / 16))

/-- The copy of the TCM into a rejoining array (R114): from the lowest ACTIVE lane, an uncorrectable codeword from the other one;
what the copy finds as an intermediary is reported, of both (R25). -/
def State.copyTcm (s : State) (g t : Nat) : State :=
  match s.active g with
  | [] => s
  | k :: rest =>
    let lo := viewBase g
    let hi := lo + 0x80000
    let shift (p : Nat × Byte) : Nat × Byte := (p.1 - k * 2 ^ 40 + t * 2 ^ 40, p.2)
    let bytes := (keepRange s.mem (arrayAddr k lo) (arrayAddr k hi)).map shift
    let s := s.zeroFill (arrayAddr t lo) (arrayAddr t hi)
    let s := { s with mem := bytes.foldl (fun (m : List Host.Cell) (p : Nat × Byte) => ins m p.1 p.2) s.mem }
    (s.dirtyWords g k).foldl (fun (s : State) a =>
      let syn := s.synOf (arrayAddr k a / 16)
      let s := s.codeReport a g syn
      match (if classify syn == CodeClass.uncorrectable then rest.head? else none) with
      | some j =>
        let other := s.synOf (arrayAddr j a / 16)
        (s.codeReport a g other).copyWord a (if classify other == CodeClass.uncorrectable then k else j) t
      | none => s.copyWord a k t) s

/-- REJOIN_PAUSE_START (R113): the lanes that are due become REJOINING and their arrays are copied. -/
def State.rejoinStart (s : State) (g : Nat) : State :=
  let due := s.dueLanes g
  let s := due.foldl (fun (s : State) k => (s.copyTcm g k).setLane g k 2) s
  (s.set (VOTE_STAT_GROUP g) 2).setGrp g { s.grp g with rejoinNow := false, late := 0 }

/-- REJOIN_COMPLETE (R116, R117). -/
def execRejoinComplete (g : Fin 2) (pause : Nat) (flips : List Flip) (s : State) : Out :=
  if !s.groupClocked g || s.group g != 2 then .next s
  else
    let r := (s.codeFlips g flips).checkCodes g ((s.codeFlips g flips).halfWords g)
    let s := r.2
    let l := s.lanesIn g 2
    if r.1 then
      done ((l.foldl (fun (s : State) k => s.setLane g k 1) s).groupRestart g false)
    else
      let s := (l.foldl (fun (s : State) k => s.setLane g k 0) s).settleGroup g
      done (((s.set (VOTE_REJOIN_LAST g) (min pause 0xFFFF)).count (VOTE_REJOIN_CNT g)).raise (18 + 4 * g))

/-- REJOIN_MAXWAIT_EXPIRY (R112): the lane rejoins at the next commit. -/
def execRejoinMaxwaitExpiry (g : Fin 2) (n : Fin 3) (s : State) : Out :=
  if s.groupClocked g && s.lane g n == 1 && s.get (VOTE_CFG_REJOIN_MAXWAIT g) != 0 then
    done (s.setGrp g { s.grp g with late := putBit (s.grp g).late n true })
  else .next s

/-! ### VOTE_CTL, SPLIT registers (R107, R109, R112, R120, R121, R125, R126) -/

/-- A write to VOTE_CTL; it has no effect in SPLIT mode (R126). -/
def voteCtl (a : Agent) (g : Fin 2) (s : State) (act : State → State) : Out :=
  regCommand a (VOTE_CTL_REARM g).addr s (fun s => if s.isSplit g then s else act s)

/-- The lanes that VOTE_CTL.FAIL may mark FAILED: MASKED or ACTIVE. -/
def State.failable (s : State) (g m : Nat) : List Nat :=
  [0, 1, 2].filter (fun k => bit m k && (s.lane g k == 0 || s.lane g k == 1))

/-- VOTE_CTL.FAIL (R109). -/
def execVoteFail (a : Agent) (g : Fin 2) (m : Fin 8) (s : State) : Out :=
  voteCtl a g s (fun s =>
    let l := s.failable g m
    let act := l.filter (fun k => s.lane g k == 0)
    if act ≠ [] ∧ (s.active g).length < 2 + act.length then s.set (VOTE_STAT_CTL_REFUSED g) 1
    else
      let s := l.foldl (fun (s : State) k => s.setLane g k 4) s
      if s.group g < 2 then s.settleGroup g else s)

/-- VOTE_CTL.RELEASE. -/
def execVoteRelease (a : Agent) (g : Fin 2) (m : Fin 8) (s : State) : Out :=
  voteCtl a g s (fun s =>
    [0, 1, 2].foldl (fun (s : State) k => if bit m.val k && s.lane g k == 4 then
      (s.setLane g k 1).setGrp g { s.grp g with late := putBit (s.grp g).late k false } else s) s)

/-- VOTE_CTL.REJOIN_NOW. -/
def execVoteRejoinNow (a : Agent) (g : Fin 2) (s : State) : Out :=
  voteCtl a g s (fun s => s.setGrp g { s.grp g with rejoinNow := true })

/-- VOTE_CTL.REARM. -/
def execVoteRearm (a : Agent) (g : Fin 2) (s : State) : Out := voteCtl a g s (fun s => s.set (VOTE_MM_INFO_VALID g) 0)

/-- VOTE_CTL.AGREE_REARM. -/
def execVoteAgreeRearm (a : Agent) (g : Fin 2) (s : State) : Out := voteCtl a g s (fun s => s.set (VOTE_AGREE_INFO_VALID g) 0)

/-- VOTE_CTL.CLR_CNT: the counters at 0x024 to 0x03C; CONSEC is cleared by a commit only, and the mask counts of FAIL_LIMIT go
on. -/
def execVoteClrCnt (a : Agent) (g : Fin 2) (s : State) : Out :=
  voteCtl a g s (fun s => s.setAll [(VOTE_MASK_CNT_LANE0 g, 0), (VOTE_MASK_CNT_LANE1 g, 0), (VOTE_MASK_CNT_LANE2 g, 0),
    (VOTE_RESTART_CNT_TOTAL g, 0), (VOTE_AGREE_SKEW g, 0), (VOTE_AGREE_HELD_LANE0 g, 0), (VOTE_AGREE_HELD_LANE1 g, 0),
    (VOTE_AGREE_HELD_LANE2 g, 0), (VOTE_REJOIN_CNT g, 0)])

/-- SPLIT_RUN (R121): a lane released for the first time starts at its entry address, in machine mode: its pc is what the Debug
Module reads as dpc (0x7B1), its mode dcsr.prv (0x7B0). -/
def execSplitRun (a : Agent) (g : Fin 2) (v : Word) (s : State) : Out :=
  regCommand a (VOTE_SPLIT_RUN g).addr s (fun s =>
    if !s.isSplit g then s
    else
      let new := bits v.toNat 1 2 - (bits v.toNat 1 2 &&& s.get (VOTE_SPLIT_RUN g))
      let start (s : State) (n entry : Nat) : State :=
        if bit new (n - 1) then
          (s.setHartReg (4 * g + n) 0x7B0 (orBits (s.hartReg (4 * g + n) 0x7B0) 3)).setHartReg (4 * g + n) 0x7B1 (4 * entry)
        else s
      let s := (start s 1 (s.get (VOTE_SPLIT_ENTRY1 g)))
      (start s 2 (s.get (VOTE_SPLIT_ENTRY2 g))).setBits (VOTE_SPLIT_RUN g) new)

/-- SPLIT_IPI_SET (R120). -/
def execSplitIpiSet (a : Agent) (g : Fin 2) (v : Word) (s : State) : Out :=
  regCommand a (VOTE_SPLIT_IPI_SET g).addr s (fun s =>
    if s.isSplit g then s.setBits (VOTE_SPLIT_IPI g) (bits v.toNat 0 3) else s)

end Sys2Proof.Machine
end

