-- ==== Sys2Proof/Machine/Worlds.lean ====
section
/-! DEFINITION. Worlds: the hand-over of blocks, the worlds of the application cores, the world-violation capture (Worlds and Debug,
R486 to R494). -/

namespace Sys2Proof.Machine

/-- WLD_HO_STAT reports a result, with event 248 (Table 16.7). -/
def State.hoResult (s : State) (r : Nat) : State := (s.set WLD_HO_STAT_RESULT r).raise 248

/-- Every function is OFF and has no stale work (R491). -/
def State.vfmQuiet (s : State) : Bool :=
  (List.range 32).all (fun f => s.get (VFM_VF_STATE_STATE f) == 0 && s.get (VFM_VF_STATE_STALE f) == 0)

/-- The blocks that can be handed over (Table 16.2). -/
def handable (b : Nat) : Bool := decide (b < 15) || b == 16 || b == 18 || b == 19 || b == 23

/-- WLD_HO (R491): refused, or the block is fenced. -/
def execWldHandover (a : Agent) (v : Word) (s : State) : Out :=
  regCommand a WLD_HO_WORLD.addr s (fun s =>
    let b := bits v.toNat 0 5
    let w := bits v.toNat 8 1
    let busy := s.on WLD_HO_STAT_BUSY || s.on PWR_STAT_BUSY
    let s := s.set WLD_HO_STAT_BLOCK b
    if busy then s.hoResult 2
    else if !handable b then s.hoResult 3
    else if bits (s.get WLD_OWN) b 1 = w then s.hoResult 4
    else if b = 23 ∧ s.vfmQuiet = false then s.hoResult 5
    else
      let h : HandOver := ⟨b, if w = 1 then .secure else .normal, none⟩
      ({ s with dbg := { s.dbg with handOver := some h } }).set WLD_HO_STAT_BUSY 1)

/-- HANDOVER_DRAIN_END: the block is reset with every consequence its chapter gives, its clock gate is opened (R491 step 3); in the
reset every register, table, queue and key register takes the value the scrub of step 4 leaves. -/
def execHandoverDrainEnd (forced : Bool) (s : State) : Out :=
  whenAwake s (fun s => match s.dbg.handOver with
    | none => s
    | some h =>
      if h.drained.isSome then s
      else match blockOfBit h.block with
      | none => s
      | some b =>
        let s := (s.blockReset b).clrBits CLK_BLK_GATE (2 ^ h.block)
        { s with dbg := { s.dbg with handOver := some { h with drained := some forced } } })

/-- The events that follow a block (Table 16.2). -/
def followers (b : Nat) : List Nat :=
  if b < 12 then [144 + 4 * b, 145 + 4 * b, 146 + 4 * b, 147 + 4 * b]
  else match b with
    | 12 => [192, 194, 195, 196, 198, 199]
    | 13 => (List.range 8).map (32 + ·)
    | 14 => (List.range 8).map (40 + ·)
    | 16 => (List.range 9).map (120 + ·) ++ (List.range 6).map (130 + ·)
    | 18 => [208, 209, 210]
    | 19 => [245, 247]
    | 23 => [252, 253, 254, 255]
    | _ => []

/-- An event changes world: pending and enable bits 0, PRIO, VF and TGT as at reset (R59, R491). -/
def State.eventWorld (s : State) (e w : Nat) : State :=
  ((s.setAll [(EVC_CFG_WORLD e, w), (EVC_CFG_PRIO e, (EVC_CFG_PRIO e).reset), (EVC_CFG_VF e, (EVC_CFG_VF e).reset),
    (EVC_CFG_TGT e, (EVC_CFG_TGT e).reset)]).clrBits (EVC_PEND (e / 32)) (2 ^ (e % 32))).clrBits (EVC_EN (e / 32)) (2 ^ (e % 32))

/-- HANDOVER_COMPLETE (R491 steps 5 and 6). -/
def execHandoverComplete (s : State) : Out :=
  whenAwake s (fun s => match s.dbg.handOver with
    | some ⟨b, w, some forced⟩ =>
      let n := if w = .secure then 1 else 0
      let s := s.set WLD_OWN (putBit (s.get WLD_OWN) b (n == 1))
      let s := (followers b).foldl (fun (s : State) e => s.eventWorld e n) s
      (({ s with dbg := { s.dbg with handOver := none } }).set WLD_HO_STAT_BUSY 0).hoResult (if forced then 6 else 1)
    | _ => s)

/-- WLD_APPW (R487, R490): the bit of a core changes only while the core is held in reset; event 3 follows (R59). -/
def execWldAppwWrite (a : Agent) (v : Word) (s : State) : Out :=
  regCommand a WLD_APPW.addr s (fun s =>
    if s.on WLD_LOCK then s
    else
      let old := s.get WLD_APPW
      let want := bits v.toNat 0 4
      let new := (List.range 4).foldl (fun (m : Nat) n => if bit (s.get RST_APP) n then putBit m n (bit want n) else m) old
      let s := s.set WLD_APPW new
      let s := if (old == 0) = (new == 0) then s else s.eventWorld 3 (if new = 0 then 0 else 1)
      if new = want then s else s.worldRefusal a WLD_APPW.addr 6 true)

/-- WLD_CTL.REARM. -/
def execWldRearm (a : Agent) (s : State) : Out := regCommand a WLD_CTL_REARM.addr s (fun s => s.set WLD_VIOL_INFO_VALID 0)

/-- WLD_CTL.CLR_CNT. -/
def execWldClrCnt (a : Agent) (s : State) : Out := regCommand a WLD_CTL_CLR_CNT.addr s (fun s => s.set WLD_VIOL_CNT 0)

end Sys2Proof.Machine
end

