-- ==== Sys2Proof/Machine/Debug.lean ====
section
/-! DEFINITION. Debug: reaches and grants, the unlock token, the debug access port, the Debug Module (Worlds and Debug, R495 to
R503). -/

namespace Sys2Proof.Machine

/-- DBG is given a state. -/
def State.setDbg (s : State) (d : DbgSt) : State := { s with dbg := d }

/-- WATCH of a world is active. -/
def State.watch (s : State) (w : World) : Bool := bit s.reaches (if w = .secure then 1 else 0)

/-- STEER of a world is active. -/
def State.steer (s : State) (w : World) : Bool := bit s.reaches (if w = .secure then 3 else 2)

/-! ### Grants and tokens -/

/-- DBG_GRANT: bit 3 is ignored in FIELD and DECOMMISSIONED (Table 16.9). -/
def execDbgGrantWrite (a : Agent) (v : Word) (s : State) : Out :=
  regCommand a DBG_GRANT.addr s (fun s =>
    let g := if s.lifecycle = 2 ∨ s.lifecycle = 4 then bits v.toNat 0 3 else bits v.toNat 0 4
    (s.set DBG_GRANT g).reachesMoved s.reaches)

/-- DBG_CMD.LOCK. -/
def execDbgLock (a : Agent) (s : State) : Out :=
  regCommand a DBG_CMD_LOCK.addr s (fun s =>
    (s.setAll [(DBG_GRANT, 0), (DBG_STAT_TOKEN, 0), (DBG_STAT_LEFT, 0)]).reachesMoved s.reaches)

/-- DBG_TOKEN_MINUTE (R496). -/
def execDbgTokenMinute (s : State) : Out :=
  whenAwake s (fun s =>
    let n := s.get DBG_STAT_LEFT
    if n = 0 then s
    else if n = 1 then (s.setAll [(DBG_STAT_TOKEN, 0), (DBG_STAT_LEFT, 0)]).reachesMoved s.reaches
    else s.set DBG_STAT_LEFT (n - 1))

/-- DBG_CMD.CHALLENGE (R501). -/
def execDbgChallenge (a : Agent) (s : State) : Out :=
  regCommand a DBG_CMD_CHALLENGE.addr s (fun s =>
    let s := (List.range 4).foldl (fun (s : State) w =>
      let d := s.draw 32
      d.2.set (DBG_NONCE w) d.1) (s.bump DBG_CHAL)
    s.setDbg { s.dbg with challenge := true })

/-- DBG_CHALLENGE_EXPIRY (R501). -/
def execDbgChallengeExpiry (s : State) : Out := whenAwake s (fun s => s.setDbg { s.dbg with challenge := false })

/-- DBG_TBUF_DATA: the word at IDX, and IDX + 1. -/
def execDbgTbufWrite (a : Agent) (v : Word) (s : State) : Out :=
  regCommand a DBG_TBUF_DATA.addr s (fun s =>
    (s.setDbg { s.dbg with tbuf := ins s.dbg.tbuf (s.get DBG_TBUF_IDX) v.toNat }).bump DBG_TBUF_IDX)

/-- DBG_CMD.SUBMIT (R503): the token waits for key channel 0. -/
def execDbgSubmit (a : Agent) (s : State) : Out :=
  regCommand a DBG_CMD_SUBMIT.addr s (fun s => s.setDbg { s.dbg with checking := true })

/-- The 4 KiB token buffer as bytes. -/
def State.token (s : State) : List Byte := (List.range 1024).flatMap (fun i => leBytes 4 (look s.dbg.tbuf i 0))

/-- DBG_NONCE as bytes. -/
def State.nonceBytes (s : State) : List Byte := (List.range 4).flatMap (fun w => leBytes 4 (s.get (DBG_NONCE w)))

/-- The checks of an unlock token, the key manager's first (R503): the first that fails, or 1. -/
def State.tokenCheck (s : State) (m : List Byte) (sigOk : Bool) : Nat :=
  let b := m.drop 32
  let r := s.msgChecks m (msgFormat m 6 32) true sigOk
  if r ≠ 1 then r
  else if !s.dbg.challenge then 0x11
  else if fieldAt m 8 4 ≠ s.get DBG_CHAL ∨ (b.drop 0x10).take 16 ≠ s.nonceBytes then 0x10
  else if fieldAt b 0 1 = 0 ∨ 16 ≤ fieldAt b 0 1 ∨ fieldAt b 1 1 ≠ 0 ∨ allZero ((b.drop 4).take 12) = false
      ∨ fieldAt b 2 2 = 0 ∨ 1440 < fieldAt b 2 2 then 6
  else 1

/-- DBG_TOKEN_RESULT (R503): the challenge is void, the result written, and an accepted token granted and recorded. -/
def execDbgTokenResult (sigOk : Bool) (s : State) : Out :=
  whenLive .key s (fun s =>
    if !(s.dbg.checking && s.keys.run == some (.chan 0) && s.keys.runCmd.op == 15) then s
    else
      let m := s.token
      let r := s.tokenCheck m sigOk
      let old := s.reaches
      let s := (s.setKeys (s.keys.endFor (.chan 0))).setDbg { s.dbg with checking := false, challenge := false }
      let s := s.set DBG_TOK_RESULT r
      let s := if r = 1 then
          let e := fieldAt m 32 1
          let n := fieldAt m 34 2
          ((s.set DBG_STAT_TOKEN e).set DBG_STAT_LEFT n).logDue 2 0x0F20 0 e n (s.get DBG_CHAL)
        else s
      (s.reachesMoved old).raise 250)

/-- DBG_CMD.SYSRST (R500). -/
def execDebugReset (a : Agent) (s : State) : Out :=
  regCommand a DBG_CMD_SYSRST.addr s (fun s => if s.steer .secure then s.heldReset .debug RST_CAUSE_DBG else s)

/-! ### The debug access port (R499) -/

/-- DBG_ACC_CMD: an access that the reaches allow is issued; one that they forbid reports 0x3; one is outstanding at most. -/
def dbgIssue (a : Agent) (write : Bool) (s : State) : Out :=
  regCommand a DBG_ACC_CMD_READ.addr s (fun s =>
    let w : World := if s.on DBG_ACC_ADDR_HI_WORLD then .secure else .normal
    if s.dbg.acc.isSome then s
    else if !(if write then s.steer w else s.watch w) then s.set DBG_ACC_STAT_RESULT 3
    else
      let x : DbgAcc := ⟨write, w, 4 * s.get DBG_ACC_ADDR_LO + 2 ^ 32 * s.get DBG_ACC_ADDR_HI_ADDR, s.get DBG_ACC_DATA, none⟩
      (s.setDbg { s.dbg with acc := some x }).set DBG_ACC_STAT_BUSY 1)

/-- DBG_ACC_CMD.READ. -/
def execDbgAccRead (a : Agent) (s : State) : Out := dbgIssue a false s

/-- DBG_ACC_CMD.WRITE. -/
def execDbgAccWrite (a : Agent) (s : State) : Out := dbgIssue a true s

/-! ### Harts as the Debug Module sees them (R497) -/

/-- The hart exists: a VOTED group answers as the hart of its lane 0. -/
def State.hartExists (s : State) (h : Nat) : Bool :=
  if h < 8 then h % 4 == 0 || (decide (h % 4 < 3) && s.isSplit (h / 4)) else decide (h < 12)

/-- The world of a hart (Table 16.1). -/
def State.hartWorld (s : State) (h : Nat) : World := if h < 8 then .secure else if bit (s.get WLD_APPW) (h - 8) then .secure else .normal

/-- The hart is out of reset, powered and clocked. -/
def State.hartRuns (s : State) (h : Nat) : Bool :=
  if h < 8 then s.groupClocked (h / 4) && (h % 4 == 0 || bit (s.get (VOTE_SPLIT_RUN (h / 4))) (h % 4 - 1))
  else s.coreRuns (h - 8) || (bit s.haltedHarts h && s.awake)

/-- The hart is available: a reach of its world is active (R497), and it is out of reset, powered and clocked. -/
def State.hartAvail (s : State) (h : Nat) : Bool := s.hartExists h && s.watch (s.hartWorld h) && s.hartRuns h

/-- A command error of the Debug Module, kept until it is cleared. -/
def State.cmdErr (s : State) (e : Nat) : State :=
  if look s.dbg.dm 0x16 0 = 0 then s.setDbg { s.dbg with dm := ins s.dbg.dm 0x16 e } else s

/-- data0 and data1. -/
def State.dmArg (s : State) : Nat := look s.dbg.dm 4 0 + 2 ^ 32 * look s.dbg.dm 5 0

/-- data0 and data1 are written; a lane's commands use data0 alone. -/
def State.setDmArg (s : State) (h v : Nat) : State :=
  let dm := ins s.dbg.dm 4 (v % 2 ^ 32)
  s.setDbg { s.dbg with dm := if h < 8 then dm else ins dm 5 (v / 2 ^ 32 % 2 ^ 32) }

/-- The Access Register abstract command: for the GPRs, FPRs and CSRs that the hart has (R497, R84, R160); a write needs STEER and a halted hart, a read WATCH. -/
def State.dmAccess (s : State) (h : Nat) (write : Bool) (regno : Nat) : State :=
  if look s.dbg.dm 0x16 0 ≠ 0 then s
  else if !s.hartAvail h then s.cmdErr 4
  else if !((decide (regno < 0x1000) && csrExists h regno) || (decide (0x1000 ≤ regno) && decide (regno < 0x1040))) then s.cmdErr 3
  else if write && csrReadOnly regno then s.cmdErr 3
  else if write then
    (if s.steer (s.hartWorld h) && bit s.haltedHarts h then s.hartWrite h regno s.dmArg else s.cmdErr 4)
  else
    let r := s.hartRead h regno
    r.2.setDmArg h r.1

/-- A halt is asked of hart `h`: a VOTED group gets it through its agreement port (R498), any other hart halts. -/
def State.dmHalt (s : State) (h : Nat) : State :=
  if !s.hartAvail h || !s.steer (s.hartWorld h) then s.cmdErr 4
  else if h < 8 ∧ s.isSplit (h / 4) = false then s.setDbg { s.dbg with asks := putBit (clearBits s.dbg.asks (2 ^ (2 + h / 4))) (h / 4) true }
  else { s with haltedHarts := putBit s.haltedHarts h true }

/-- The resume of a halted hart is acknowledged (dmstatus.resumeack). -/
def State.resumeAck (s : State) (h : Nat) : State :=
  s.setDbg { s.dbg with dm := ins s.dbg.dm 0x80 (putBit (look s.dbg.dm 0x80 0) h true) }

/-- A resume is asked of hart `h`. -/
def State.dmResume (s : State) (h : Nat) : State :=
  if !s.hartAvail h || !s.steer (s.hartWorld h) then s.cmdErr 4
  else if !bit s.haltedHarts h then s
  else if h < 8 ∧ s.isSplit (h / 4) = false then s.setDbg { s.dbg with asks := putBit (clearBits s.dbg.asks (2 ^ (h / 4))) (2 + h / 4) true }
  else
    let s := { s with haltedHarts := putBit s.haltedHarts h false }
    (if h < 8 then s else s.forget h).resumeAck h

/-- DM_ACCESS_REGISTER (R497). -/
def execDmAccessRegister (h : Fin 12) (write : Bool) (regno : Fin 65536) (v : Nat) (s : State) : Out :=
  whenAwake s (fun s => (if write then s.setDmArg h.val v else s).dmAccess h.val write regno.val)

/-! ### The Debug Module's registers (R497) -/

/-- hartsel of dmcontrol. -/
def State.hartsel (s : State) : Nat := bits (look s.dbg.dm 0x10 0) 16 10 + 2 ^ 10 * bits (look s.dbg.dm 0x10 0) 6 10

/-- dmstatus of the selected hart. -/
def State.dmstatus (s : State) : Nat :=
  let h := s.hartsel
  let halted := bit s.haltedHarts h
  let two (lo : Nat) (b : Bool) : Nat := 3 * 2 ^ lo * b2n b
  let here := s.hartExists h
  let up := s.hartAvail h
  3 + 2 ^ 7 + two 8 (up && halted) + two 10 (up && !halted) + two 12 (here && !up) + two 14 (!here)
    + two 16 (bit (look s.dbg.dm 0x80 0) h) + two 18 (bit (look s.dbg.dm 0x81 0xF77) h)

/-- A read of the DM register at DM address `n`. -/
def State.dmRead (s : State) (n : Nat) : Nat :=
  match n with
  | 0x10 => look s.dbg.dm 0x10 0
  | 0x11 => s.dmstatus
  | 0x16 => 2 + 2 ^ 8 * look s.dbg.dm 0x16 0 + 8 * 2 ^ 24
  | 0x40 => s.haltedHarts
  | _ => if n = 4 ∨ n = 5 ∨ (0x20 ≤ n ∧ n < 0x28) then look s.dbg.dm n 0 else 0

/-- A write to command: Access Register only; with postexec the program buffer runs on the hart. -/
def State.dmCommand (s : State) (v : Nat) : State :=
  let h := s.hartsel
  let size := bits v 20 3
  if look s.dbg.dm 0x16 0 ≠ 0 then s
  else if bits v 24 8 ≠ 0 ∨ bit v 23 = true ∨ bit v 19 = true then s.cmdErr 2
  else if bit v 17 = true ∧ size ≠ 2 ∧ ¬(size = 3 ∧ 8 ≤ h) then s.cmdErr 2
  else
    let s := if bit v 17 then s.dmAccess h (bit v 16) (bits v 0 16) else s
    if bit v 18 = true ∧ look s.dbg.dm 0x16 0 = 0 then
      (if s.hartAvail h && s.steer (s.hartWorld h) && bit s.haltedHarts h then s.forget h else s.cmdErr 4)
    else s

/-- A write of dmcontrol. -/
def State.dmControl (s : State) (v : Nat) : State :=
  if !bit v 0 then s.setDbg { s.dbg with dm := s.dbg.dm.filter (fun p => p.1 == 0x81) }
  else
    let s := s.setDbg { s.dbg with dm := ins s.dbg.dm 0x10 (1 + 2 ^ 6 * bits v 6 20) }
    let h := s.hartsel
    let s := if bit v 28 then s.setDbg { s.dbg with dm := ins s.dbg.dm 0x81 (putBit (look s.dbg.dm 0x81 0xF77) h false) } else s
    if bit v 31 then s.dmHalt h
    else if bit v 30 then
      (s.setDbg { s.dbg with dm := ins s.dbg.dm 0x80 (putBit (look s.dbg.dm 0x80 0) h false) }).dmResume h
    else s

/-- A write to the DM register at DM address `n`; but for dmcontrol, none has an effect while the module is inactive. -/
def State.dmWrite (s : State) (n v : Nat) : State :=
  if n = 0x10 then s.dmControl v
  else if !bit (look s.dbg.dm 0x10 0) 0 then s
  else if n = 4 ∨ n = 5 ∨ (0x20 ≤ n ∧ n < 0x28) then s.setDbg { s.dbg with dm := ins s.dbg.dm n v }
  else if n = 0x16 then s.setDbg { s.dbg with dm := ins s.dbg.dm 0x16 (clearBits (look s.dbg.dm 0x16 0) (bits v 8 3)) }
  else if n = 0x17 then s.dmCommand v
  else s

end Sys2Proof.Machine
end

