-- ==== Sys2Proof/Machine/Events.lean ====
section
/-! DEFINITION. The event controller: setting and acknowledging events, and the word-code and fabric captures (R39 to R47). -/

namespace Sys2Proof.Machine

/-- The bits of EVC word `k` that an initiator reaches: all in the Secure world, the Normal events in the Normal world (R41). -/
def evcMask (a : Agent) (k : Nat) (s : State) : Nat :=
  if isNormal a s then
    (List.range 32).foldl (fun m b => if s.eventSecure (32 * k + b) then m else m + 2 ^ b) 0
  else 2 ^ 32 - 1

/-- EVC_SETk: each 1 sets its pending bit, for test (R44). -/
def execEvcSetWrite (a : Agent) (k : Fin 8) (v : Word) (s : State) : Out :=
  regCommand a (EVC_SET k).addr s (fun s =>
    let m := v.toNat &&& evcMask a k s
    (List.range 32).foldl (fun s b => if bit m b then s.setPend (32 * k + b) else s) s)

/-- EVC_PENDk: each 1 acknowledges its event (R43); a level source whose condition holds is set again at once (R39). -/
def execEvcAck (a : Agent) (k : Fin 8) (v : Word) (s : State) : Out :=
  regCommand a (EVC_PEND k).addr s (fun s => s.clrBits (EVC_PEND k) (v.toNat &&& evcMask a k s))

/-- WCE_CTL.REARM clears VALID (R46). -/
def execWceRearm (a : Agent) (s : State) : Out :=
  regCommand a EVC_WCE_CTL_REARM.addr s (fun s => s.set EVC_WCE_INFO_VALID 0)

/-- WCE_CTL.CLR_CNT clears both word-code counters (R46). -/
def execWceClrCnt (a : Agent) (s : State) : Out :=
  regCommand a EVC_WCE_CTL_CLR_CNT.addr s (fun s => (s.set EVC_WCE_CE_CNT 0).set EVC_WCE_UE_CNT 0)

/-- FAB_CTL.REARM clears VALID (R46). -/
def execFabRearm (a : Agent) (s : State) : Out :=
  regCommand a EVC_FAB_CTL.addr s (fun s => s.set EVC_FAB_INFO_VALID 0)

end Sys2Proof.Machine
end

