-- ==== Sys2Proof/Machine/Ist.lean ====
section
/-! DEFINITION. The in-service test: the tests of idle resources, the marks of IST_STAT, IST_CTL and IST_CMD (Checkpoints and
In-Service Test, R149 to R154, R157 to R159). -/

namespace Sys2Proof.Machine

/-- Lane tests of group `g` are enabled (IST_CTL). -/
def State.istEnabled (s : State) (g : Nat) : Bool := s.on (if g = 0 then IST_CTL_SG0 else IST_CTL_SG1)

/-- The mark OVERDUE of group `g`. -/
def overdueFld (g : Nat) : Fld := if g = 0 then IST_STAT_SG0_OVERDUE else IST_STAT_SG1_OVERDUE

/-- The next lane of group `g` in the rotation. -/
def nextFld (g : Nat) : Fld := if g = 0 then IST_STAT_SG0_NEXT else IST_STAT_SG1_NEXT

/-- A VOTED group whose clock runs: the only kind that can be due or OVERDUE (R151). -/
def State.istGroup (s : State) (g : Nat) : Bool := s.groupClocked g && !s.isSplit g

/-- Whether a lane test of group `g` is due. -/
def State.testDue (s : State) (g : Nat) : Bool := bit s.ist.due g && s.istGroup g && s.istEnabled g

/-- A lane test of group `g` becomes due or is no longer due. -/
def State.setDue (s : State) (g : Nat) (b : Bool) : State := { s with ist := { s.ist with due := putBit s.ist.due g b } }

/-- A lane test of group `g` can start: due, in an idle window, all three lanes ACTIVE, nothing under test (R149, R150). -/
def State.testStarts (s : State) (g : Nat) : Bool :=
  s.testDue g && (s.grp g).window && (s.group g == 0) && (s.get IST_STAT_ITEM == 0)

/-- IST_OVERDUE (R151). -/
def execIstOverdue (g : Fin 2) (s : State) : Out :=
  whenAwake s (fun s => if s.istGroup g then s.set (overdueFld g) 1 else s)

/-- What IST_CTL.TEST_NOW does (Table 4.10). -/
def State.istNow (s : State) : State :=
  [0, 1].foldl (fun (s : State) g => if s.istGroup g && s.istEnabled g then s.setDue g true else s) s

/-- IST_CMD.REARM: bit g clears RELQ_ERR_INFO.VALID of group g (Table 4.10). -/
def execIstRelqRearm (a : Agent) (m : Fin 4) (s : State) : Out :=
  regCommand a IST_CMD_REARM.addr s (fun s =>
    [0, 1].foldl (fun (s : State) g => if bit m.val g then s.set (IST_RELQ_ERR_INFO_VALID g) 0 else s) s)

/-- IST_CMD.CLR_CNT (Table 4.10). -/
def execIstClrCnt (a : Agent) (s : State) : Out :=
  regCommand a IST_CMD_CLR_CNT.addr s (fun s =>
    [0, 1].foldl (fun (s : State) g => s.setAll [(IST_CKPT_EARLY_IDLE g, 0), (IST_CKPT_EARLY_REQ g, 0),
        (IST_CKPT_EARLY_RELQ g, 0), (IST_CKPT_EARLY_UNDO g, 0), (IST_RESTART_MAX g, 0), (IST_RELQ_ERR_INFO_COUNT g, 0)])
      (s.setAll [(IST_COUNT_INC, 0), (IST_COUNT_FAIL, 0), (IST_COUNT_PASS, 0)]))

/-! ### Tests of idle resources (R152, R153) -/

/-- The first address of the test area (IST_AREA). -/
def State.testArea (s : State) : Nat := 0x21000000 + s.get IST_AREA_BASE * 4096

/-- The test writes its patterns into the test area, which firmware reserves for it; what they are, the spec does not say. -/
def State.areaUsed (s : State) : State :=
  let d := s.drawBytes 4096
  (d.2.writeMem s.testArea 0x14 d.1).2

/-- Item `i` of Table 4.7, in the order of R152, is enabled and eligible: 0 to 15 the DMA channels, 16 to 31 the FIFOs, 32 to 35 the
buffer halves. -/
def State.auxEligible (s : State) (i : Nat) : Bool :=
  if i < 16 then
    s.on IST_CTL_DMA && s.on IST_AREA_VALID && (if i < 8 then Block.live .dma0 s else Block.live .dma1 s)
      && !s.on (RING_CFG_EN (0x40030100 + 0x1000 * (i / 8) + 0x40 * (i % 8)))
  else if i < 32 then s.on IST_CTL_FIFO && s.on IST_AREA_VALID && Block.live .fifo s && !s.on (FIFO_CFG_EN (i - 16))
  else
    let g := (i - 32) / 2
    s.on IST_CTL_CKB && s.istGroup g && (s.grp g).window && decide (s.group g < 2)
      && (i % 2 != s.get (IST_CKPT_STAT_HALF g))

/-- The ITEM that IST_STAT shows for item `i`. -/
def auxItem (i : Nat) : Nat := if i < 16 then 3 else if i < 32 then 4 else 5

/-- The test of item `i` begins. -/
def State.auxBegin (s : State) (i : Nat) : State :=
  let s := s.setAll [(IST_STAT_ITEM, auxItem i), (IST_STAT_UNIT, i % 16)]
  let s := { s with ist := { s.ist with auxNext := (i + 1) % 36 } }
  let s := if i < 16 then
      (s.set (DMA_CH_STAT_TESTING (i / 8) (i % 8)) 1).setBits (DMA_STAT_TESTING (i / 8)) (2 ^ (i % 8))
    else s
  if i < 32 then s.areaUsed else s

/-- IDLE_RESOURCE_TEST_START: the next eligible item, where nothing is under test and no lane test could start (R150). -/
def execIdleResourceTestStart (s : State) : Out :=
  whenAwake s (fun s =>
    if s.get IST_STAT_ITEM ≠ 0 ∨ s.testStarts 0 = true ∨ s.testStarts 1 = true then s
    else match ((List.range 36).map (fun k => (s.ist.auxNext + k) % 36)).find? s.auxEligible with
      | some i => s.auxBegin i
      | none => s)

/-- IDLE_RESOURCE_TEST_COMPLETE. -/
def execIdleResourceTestComplete (pass : Bool) (sig : Fin 65536) (s : State) : Out :=
  whenAwake s (fun s =>
    let item := s.get IST_STAT_ITEM
    if 3 ≤ item then (if item < 5 then s.areaUsed else s).istEnd (if pass then 1 else 2) sig.val else s)

/-- LOGIC_BIST_COMPLETE (R149): the memory BIST that follows overwrites the TCM array of the lane; that it leaves zero codewords is this
model's choice (DESIGN CHOICE, log entry 169). -/
def execLogicBistComplete (s : State) : Out :=
  whenAwake s (fun s =>
    if s.get IST_STAT_ITEM = 1 ∨ s.get IST_STAT_ITEM = 2 then
      let lo := arrayAddr (s.get IST_STAT_UNIT) (0x20000000 + 0x100000 * (s.get IST_STAT_ITEM - 1))
      { (if s.ist.memBist then s else s.zeroFill lo (lo + 0x80000)) with ist := { s.ist with memBist := true } }
    else s)

end Sys2Proof.Machine
end

