-- ==== Sys2Proof/Machine/RegAccess.lean ====
section
/-! DEFINITION. Register accesses as the fabric makes them: a write goes to the rows that the written register has, the other fields
follow their access types (R4 to R12, R41 to R45); a read puts its word together, and a LO read loads its latch (R11, R338). -/

namespace Sys2Proof.Machine

/-! ### Which rows a register write is -/

/-- The rows a write carries, and whether the register has fields beside theirs that follow their access types. -/
abbrev RowCmds := List (State → Out) × Bool

/-- A row, where the bit that asks for it is written. -/
def onBit (c : Bool) (f : State → Out) : List (State → Out) := if c then [f] else []

/-- All ring pairs. -/
def allRings : List Ring :=
  [Ring.lcc] ++ (List.range 16).map (fun i => .dma (Fin.ofNat 2 (i / 8)) (Fin.ofNat 8 i))
    ++ (List.range 12).map (fun i => .eth (Fin.ofNat 12 i)) ++ (List.range 8).map (fun i => .cgw (Fin.ofNat 8 i))
    ++ (List.range 6).map (fun i => .cry (Fin.ofNat 6 i)) ++ (List.range 32).flatMap ringsOf

/-- The ring pair whose ring set an address lies in. -/
def ringAt (addr : Nat) : Option Ring := allRings.find? (fun r => decide (r.base ≤ addr) && decide (addr < r.base + 0x20))

/-- The ring pair one of whose doorbells an address is. -/
def bellAt (addr : Nat) : Option Ring := allRings.find? (fun r => r.doorbell == addr || r.doorbell + 4 == addr)

/-- RING_CFG and the doorbells of all rings. -/
def ringCmds (a : Agent) (addr : Nat) (v : Word) : Option RowCmds :=
  match bellAt addr with
  | some r => some ([if r.doorbell = addr then execSqDoorbell a r v else execCqDoorbell a r v], false)
  | none => match ringAt addr with
    | some r =>
      if addr = r.base + 0x18 then some ([if bit v.toNat 31 then execRingEnable a r v else execRingDisable a r v], false) else none
    | none => none

/-- The rows of PWR, CLK and RST. -/
def powerCmds (a : Agent) (addr : Nat) (v : Word) : RowCmds :=
  if addr = PWR_REQ.addr then
    ([match bits v.toNat 0 4 with
      | 1 => execPwrReqOpen a
      | 2 => execPwrReqShade a
      | 3 => execPwrReqDusk a
      | 4 => execPwrReqClosed a
      | t => execPwrReqInvalid a (Fin.ofNat 16 t)], false)
  else if addr = PWR_APP_PARK.addr then ([execAppPark a v], false)
  else if addr = CLK_ISL_GATE_APP.addr then ([execClockGate a true v], false)
  else if addr = CLK_BLK_GATE.addr then ([execClockGate a false v], false)
  else if addr = RST_SYS.addr then ([execSystemSwReset a v], false)
  else if addr = RST_BLK0_NMW.addr then ([execBlockReset a v], false)
  else if addr = RST_APP.addr then ([execAppCoreReset a v], false)
  else if addr = RST_STAGE_MD.addr then ([execStageDieReset a v], false)
  else if addr = RST_WDT_KICK.addr then ([execWdtKick a v], false)
  else ([], true)

/-- The rows of the EVC. -/
def evcCmds (a : Agent) (addr : Nat) (v : Word) : RowCmds :=
  if addr < 0x40010020 then ([execEvcAck a (Fin.ofNat 8 ((addr - 0x40010000) / 4)) v], false)
  else if 0x40010080 ≤ addr ∧ addr < 0x400100A0 then ([execEvcSetWrite a (Fin.ofNat 8 ((addr - 0x40010080) / 4)) v], false)
  else if addr = EVC_WCE_CTL_REARM.addr then
    (onBit (bit v.toNat 1) (execWceRearm a) ++ onBit (bit v.toNat 0) (execWceClrCnt a), false)
  else if addr = EVC_FAB_CTL.addr then (onBit (bit v.toNat 0) (execFabRearm a), false)
  else ([], true)

/-- The rows of VOTE0 and VOTE1 but for what the group does by itself. Of several bits in one write the spec gives no order; this one is
this model's choice (DESIGN CHOICE, log entry 151): AGREE_REARM, REARM, CLR_CNT, RELEASE, FAIL, REJOIN_NOW. -/
def voteCmds (a : Agent) (g : Fin 2) (addr : Nat) (v : Word) : RowCmds :=
  let w := v.toNat
  if addr = (VOTE_CTL_REARM g).addr then
    (onBit (bit w 13) (execVoteAgreeRearm a g) ++ onBit (bit w 12) (execVoteRearm a g) ++ onBit (bit w 11) (execVoteClrCnt a g)
      ++ onBit (bits w 8 3 != 0) (execVoteRelease a g (Fin.ofNat 8 (bits w 8 3)))
      ++ onBit (bits w 4 3 != 0) (execVoteFail a g (Fin.ofNat 8 (bits w 4 3))) ++ onBit (bit w 0) (execVoteRejoinNow a g), false)
  else if addr = (VOTE_SPLIT_RUN g).addr then ([execSplitRun a g v], false)
  else if addr = (VOTE_SPLIT_IPI_SET g).addr then ([execSplitIpiSet a g v], false)
  else ([], true)

/-- The rows of IST. -/
def istCmds (a : Agent) (addr : Nat) (v : Word) : RowCmds :=
  if addr = IST_CTL_TEST_NOW.addr then (onBit (bit v.toNat 8) (fun s => .next s.istNow), true)
  else if addr = IST_CMD_REARM.addr then
    (onBit (bits v.toNat 1 2 != 0) (execIstRelqRearm a (Fin.ofNat 4 (bits v.toNat 1 2))) ++ onBit (bit v.toNat 0) (execIstClrCnt a), false)
  else ([], true)

/-- DMA_ERR_CTL.REARM (R212). -/
def execDmaRearm (a : Agent) (m : Fin 2) (s : State) : Out :=
  regCommand a (DMA_ERR_CTL_REARM m).addr s (fun s => s.set (DMA_ERR_INFO_VALID m) 0)

/-- DMA_ERR_CTL.CLR_CNT (R212). -/
def execDmaClrCnt (a : Agent) (m : Fin 2) (s : State) : Out :=
  regCommand a (DMA_ERR_CTL_CLR_CNT m).addr s (fun s =>
    s.setAll [(DMA_DB_IGN m, 0), (DMA_BYTES_LO m, 0), (DMA_BYTES_HI m, 0)])

/-- The rows of DMA0 and DMA1 beside their rings. -/
def dmaCmds (a : Agent) (m : Fin 2) (addr : Nat) (v : Word) : RowCmds :=
  if addr = (DMA_ERR_CTL_REARM m).addr then
    (onBit (bit v.toNat (DMA_ERR_CTL_REARM m).lo) (execDmaRearm a m) ++ onBit (bit v.toNat (DMA_ERR_CTL_CLR_CNT m).lo) (execDmaClrCnt a m),
      false)
  else ([], true)

/-- The rows of FIFO. -/
def fifoCmds (a : Agent) (addr : Nat) (v : Word) : RowCmds :=
  if addr = FIFO_ERR_CTL_REARM.addr then
    (onBit (bit v.toNat FIFO_ERR_CTL_REARM.lo) (execFifoRearm a) ++ onBit (bit v.toNat FIFO_ERR_CTL_CLR_CNT.lo) (execFifoClrCnt a), false)
  else if addr < 0x40038100 then ([], true)
  else
    let n : Fin 16 := Fin.ofNat 16 ((addr - 0x40038100) / 0x20)
    if addr = (FIFO_CFG_EN n).addr then ([if bit v.toNat 31 then execFifoEnable a n v else execFifoDisable a n v], false)
    else if addr = (FIFO_PUSH_HI_WORDS n).addr then ([execFifoPush a n v], false)
    else if addr = (FIFO_POP n).addr then ([execFifoPop a n v], false)
    else ([], true)

/-- The rows of BRG. -/
def brgCmds (a : Agent) (addr : Nat) (v : Word) : RowCmds :=
  if addr = BRG_CTL_LINK_EN.addr then ([execBrgLinkEnWrite a v, execBrgHbEnWrite a v], true)
  else if addr = BRG_CFG_RETRAIN.addr then ([execBrgRetrainWrite a v], true)
  else if addr = BRG_PERR_CTL_POP.addr then
    (onBit (bit v.toNat 0) (execBrgPerrPop a) ++ onBit (bit v.toNat 1) (execBrgClrCnt a), false)
  else ([], true)

/-- The rows of the LCC beside its ring. -/
def lccCmds (a : Agent) (addr : Nat) (v : Word) : RowCmds :=
  if addr = LCC_CTL_LT_RUN.addr then ([execLtRunWrite a v], true)
  else if addr = LCC_ERR_CTL_REARM.addr then ([execLccRearm a v], false)
  else if 0x40050400 ≤ addr ∧ addr < 0x40050400 + 0x10 * 24 ∧ addr % 0x10 = 0 then
    (let n : Fin 24 := Fin.ofNat 24 ((addr - 0x40050400) / 0x10)
     ([if bit v.toNat 31 then execLtEnable a n v else execLtDisable a n v], false))
  else ([], true)

/-- The rows of ETH beside its rings. -/
def ethCmds (a : Agent) (addr : Nat) (v : Word) : RowCmds :=
  let w := v.toNat
  if addr = ETH_TBL_CMD_OP.addr then
    (let t : Fin 16 := Fin.ofNat 16 (bits w 0 4)
     let i : Fin 65536 := Fin.ofNat 65536 (bits w 8 16)
     match bits w 4 2 with
     | 0 => ([], false)
     | 1 => ([execEthTblRead a t i], false)
     | 2 => ([execEthTblWrite a t i], false)
     | _ => ([execEthFdbSearch a], false))
  else if addr = ETH_ERR_CTL.addr then (onBit (bit w 0) (execEthRearm a), false)
  else if 0x40061000 ≤ addr ∧ addr < 0x40061A00 then
    (let p := (addr - 0x40061000) / 0x100
     if addr = (PORT_QBV_CTL_APPLY p).addr ∧ p < 8 then ([execQbvApply a (Fin.ofNat 8 p) v], false)
     else if addr = (PORT_CNT_CTL p).addr then (onBit (bit w 0) (execEthPortClrCnt a (Fin.ofNat 10 p)), false)
     else ([], true))
  else ([], true)

/-- The rows of TIME. A SET goes before an ADJ of the same write, which it makes ignored (R345). -/
def timeCmds (a : Agent) (addr : Nat) (v : Word) : RowCmds :=
  let w := v.toNat
  if addr = TIME_CMD_SET.addr then
    (onBit (bit w 0) (execTimeSet a) ++ onBit (bit w 1 && !bit w 0) (execTimeAdj a) ++ onBit (bit w 2) (execTimeClrInt a)
      ++ onBit (bit w 3) (execTimeClrCnt a), false)
  else if addr = TIME_CTL_GM.addr then ([execTimeCtlWrite a v], false)
  else if addr = TIME_FREQ.addr then ([execTimeFreqWrite a v], false)
  else if addr = TIME_EPOCH_INIT.addr then ([execEpochInitWrite a v], false)
  else if 0x40070100 ≤ addr ∧ addr < 0x40070300 then
    (let u : Fin 16 := Fin.ofNat 16 ((addr - 0x40070100) / 0x20)
     if addr = (TIME_TCU_CFG_EN u).addr then ([execTcuEnable a u v], false)
     else if addr = (TIME_TCU_CMP_HI u).addr then ([execTcuCmpHiWrite a u v], false)
     else if addr = (TIME_TCU_PER u).addr then ([execTcuPerWrite a u v], false)
     else ([], true))
  else ([], true)

/-- The rows of CAN channel `c`. -/
def canCmds (a : Agent) (c : Fin 12) (addr : Nat) (v : Word) : RowCmds :=
  let w := v.toNat
  if addr = (CAN_CTL_EN c).addr then
    ([if bit w 0 then execCanEnable a c v else execCanDisable a c v] ++ onBit (bit w 16) (execCanRecover a c), false)
  else if addr = (CAN_CMD_REARM c).addr then
    (onBit (bit w (CAN_CMD_REARM c).lo) (execCanRearm a c) ++ onBit (bit w (CAN_CMD_CLR_CNT c).lo) (execCanClrCnt a c), false)
  else ([], true)

/-- The rows of CGW beside its rings. -/
def cgwCmds (a : Agent) (addr : Nat) (v : Word) : RowCmds :=
  let w := v.toNat
  if addr = CGW_TBL_CMD_OP.addr then
    (let t : Fin 16 := Fin.ofNat 16 (bits w 0 4)
     let i : Fin 65536 := Fin.ofNat 65536 (bits w 8 16)
     match bits w 4 2 with
     | 1 => ([execCgwTblRead a t i], false)
     | 2 => ([execCgwTblWrite a t i], false)
     | _ => ([], false))
  else if addr = CGW_ERR_CTL_REARM.addr then
    (onBit (bit w CGW_ERR_CTL_REARM.lo) (execCgwRearm a) ++ onBit (bit w CGW_ERR_CTL_CLR_CNT.lo) (execCgwClrCnt a), false)
  else if addr = (CGW_FIFOSRC_EN 0).addr ∧ bit w 31 = true then ([execCgwFifosrcEnable a 0 v], false)
  else if addr = (CGW_FIFOSRC_EN 1).addr ∧ bit w 31 = true then ([execCgwFifosrcEnable a 1 v], false)
  else ([], true)

/-- The rows of NMW. -/
def nmwCmds (a : Agent) (addr : Nat) (v : Word) : RowCmds :=
  let w := v.toNat
  if addr = NMW_CTL_EN.addr then ([execNmwEnWrite a v], false)
  else if addr = NMW_WAKE_REQ.addr then ([execNmwWakeReq a v], false)
  else if addr = NMW_ERR_CTL_REARM.addr then
    (onBit (bit w NMW_ERR_CTL_REARM.lo) (execNmwRearm a) ++ onBit (bit w NMW_ERR_CTL_CLR_CNT.lo) (execNmwClrCnt a), false)
  else if 0x400A0100 ≤ addr ∧ addr < 0x400A0100 + 0x40 * 20 then
    (let g : Fin 20 := Fin.ofNat 20 ((addr - 0x400A0100) / 0x40)
     if addr = (SEG_CTL_MANAGED g).addr then ([execSegManagedWrite a g v, execSegHoldWrite a g v], false)
     else if addr = (SEG_CURFEW_SET g).addr then ([execSegCurfewSet a g v], false)
     else ([], true))
  else ([], true)

/-- The rows of SNS. -/
def snsCmds (a : Agent) (addr : Nat) (v : Word) : RowCmds :=
  let w := v.toNat
  if addr = SNS_CMD_GO.addr then
    (onBit (bit w 0) (execSnsGo a false) ++ onBit (bit w 1) (execSnsRearm a) ++ onBit (bit w 2) (execSnsClrCnt a), false)
  else if addr = (SNS_BUF_HI_EN 0).addr then ([execSnsBufEnable a 0 v], false)
  else if addr = (SNS_BUF_HI_EN 1).addr then ([execSnsBufEnable a 1 v], false)
  else ([], true)

/-- The rows of REC. -/
def recCmds (a : Agent) (addr : Nat) (v : Word) : RowCmds :=
  let w := v.toNat
  if addr = REC_LB_PUT_CODE.addr then ([execRecLbPut a v], false)
  else if addr = REC_CMD_SNAP.addr then
    (onBit (bit w 0) (execRecSnap a) ++ onBit (bit w 1) (execRecStmt a) ++ onBit (bit w 2) (execRecClear a)
      ++ onBit (bit w 3) (execRecRearm a) ++ onBit (bit w 4) (execRecClrCnt a), false)
  else ([], true)

/-- The rows of KEY. -/
def keyCmds (a : Agent) (addr : Nat) (v : Word) : RowCmds :=
  let cmd (c : Fin 2) : RowCmds :=
    ([match bits v.toNat 0 4 with
      | 1 => execKeyDeliver a c v
      | 2 => execKeyUpdate a c v
      | 3 => execKeyAttest a c v
      | 4 => execKeyExtend a c v
      | 5 => execKeyVerifyImage a c v
      | 6 => execKeyExportPub a c v
      | 7 => execKeyRevoke a c v
      | 8 => execKeyPersonalise a c v
      | _ => execKeyInvalidOp a c v], false)
  if addr = (KEY_CMD_OP 0).addr then cmd 0
  else if addr = (KEY_CMD_OP 1).addr then cmd 1
  else if addr = KEY_CTL.addr then (onBit (bit v.toNat KEY_CTL.lo) (execKeyClrCnt a), false)
  else ([], true)

/-- The rows of CRY beside its rings. -/
def cryCmds (a : Agent) (addr : Nat) (v : Word) : RowCmds :=
  if addr = CRY_ERR_CTL_REARM.addr then
    (onBit (bit v.toNat CRY_ERR_CTL_REARM.lo) (execCryRearm a) ++ onBit (bit v.toNat CRY_ERR_CTL_CLR_CNT.lo) (execCryClrCnt a), false)
  else ([], true)

/-- The rows of WLD. -/
def wldCmds (a : Agent) (addr : Nat) (v : Word) : RowCmds :=
  if addr = WLD_HO_WORLD.addr then ([execWldHandover a v], false)
  else if addr = WLD_APPW.addr then ([execWldAppwWrite a v], false)
  else if addr = WLD_CTL_REARM.addr then
    (onBit (bit v.toNat 0) (execWldRearm a) ++ onBit (bit v.toNat 1) (execWldClrCnt a), false)
  else ([], true)

/-- The rows of VFM. -/
def vfmCmds (a : Agent) (addr : Nat) (v : Word) : RowCmds :=
  let f : Fin 32 := Fin.ofNat 32 (bits v.toNat 16 5)
  if addr = VFM_CMD_OP.addr then
    ([match bits v.toNat 0 4 with
      | 1 => execVfmEnable a f
      | 2 => execVfmDisable a f
      | 3 => execVfmReset a f
      | 4 => execVfmFreeze a f
      | 5 => execVfmResume a f
      | 6 => execVfmSave a f
      | 7 => execVfmRestore a f
      | _ => execVfmInvalidOp a v], false)
  else if addr = VFM_ERR_CTL_REARM.addr then
    (onBit (bit v.toNat VFM_ERR_CTL_REARM.lo) (execVfmRearm a) ++ onBit (bit v.toNat VFM_ERR_CTL_CLR_CNT.lo) (execVfmClrCnt a), false)
  else if 0x400F0800 ≤ addr ∧ addr % 0x10 = 8 then
    ([execVfmWindowEnable a (Fin.ofNat 32 ((addr - 0x400F0800) / 0x40)) (Fin.ofNat 4 (addr / 0x10)) v], false)
  else ([], true)

/-- The rows of DBG. -/
def dbgCmds (a : Agent) (addr : Nat) (v : Word) : RowCmds :=
  let w := v.toNat
  if addr = DBG_GRANT.addr then ([execDbgGrantWrite a v], false)
  else if addr = DBG_CMD_LOCK.addr then
    (onBit (bit w 0) (execDbgChallenge a) ++ onBit (bit w 1) (execDbgSubmit a) ++ onBit (bit w 2) (execDbgLock a)
      ++ onBit (bit w 3) (execDebugReset a), false)
  else if addr = DBG_TBUF_DATA.addr then ([execDbgTbufWrite a v], false)
  else if addr = DBG_ACC_CMD_READ.addr then
    (onBit (bit w 0) (execDbgAccRead a) ++ onBit (bit w 1) (execDbgAccWrite a), false)
  else ([], true)

/-- The function whose doorbell page an address lies in (Table 5.1). -/
def pageFn (addr : Nat) : Nat :=
  if addr < 0x41100000 then (addr - 0x41000000) / 0x1000
  else if addr < 0x41180000 then 16 + (addr - 0x41100000) / 0x1000
  else 24 + (addr - 0x41180000) / 0x1000

/-- The rows of a VF doorbell page beside its rings. -/
def vfpCmds (a : Agent) (addr : Nat) (v : Word) : RowCmds :=
  let f : Fin 32 := Fin.ofNat 32 (pageFn addr)
  if addr % 0x1000 = 0x44 then (onBit (bit v.toNat 0) (execVfCtlReset a f), false)
  else if addr % 0x1000 = 0x54 then ([execVfFwdAck a f v], false)
  else ([], true)

/-- The rows a write of `v` to the register at `addr` is. -/
def rowCmds (a : Agent) (addr : Nat) (v : Word) : RowCmds :=
  match ringCmds a addr v with
  | some r => r
  | none =>
    if 0x41000000 ≤ addr then vfpCmds a addr v
    else match blockOf addr with
    | some .pwr => powerCmds a addr v
    | some .clk => powerCmds a addr v
    | some .rst => powerCmds a addr v
    | some .evc => evcCmds a addr v
    | some .vote0 => voteCmds a 0 addr v
    | some .vote1 => voteCmds a 1 addr v
    | some .ist => istCmds a addr v
    | some .dma0 => dmaCmds a 0 addr v
    | some .dma1 => dmaCmds a 1 addr v
    | some .fifo => fifoCmds a addr v
    | some .brg => brgCmds a addr v
    | some .lcc => lccCmds a addr v
    | some .eth => ethCmds a addr v
    | some .time => timeCmds a addr v
    | some (.can n) => canCmds a (Fin.ofNat 12 n) addr v
    | some .cgw => cgwCmds a addr v
    | some .nmw => nmwCmds a addr v
    | some .sns => snsCmds a addr v
    | some .recorder => recCmds a addr v
    | some .key => keyCmds a addr v
    | some .cry => cryCmds a addr v
    | some .wld => wldCmds a addr v
    | some .vfm => vfmCmds a addr v
    | some .dbg => dbgCmds a addr v
    | _ => ([], true)

/-! ### Writes of fields without a row -/

/-- The register's other fields take no write now: CAN timing while the channel is enabled (R359), ring bases while the ring is
enabled (R172), regions while WLD is locked (R490), the FIFO pool while a FIFO is enabled (R219), the SPLIT registers in VOTED mode
(R126). -/
def State.shut (s : State) (addr : Nat) : Bool :=
  (match ringAt addr with
    | some r => decide (addr < r.base + 0x18) && s.on (RING_CFG_EN r.base)
    | none => false)
  || (match blockOf addr with
    | some (.can n) => (decide (addr % 0x1000 = 4 ∨ addr % 0x1000 = 8 ∨ addr % 0x1000 = 0xC)) && s.on (CAN_CTL_EN n)
    | some .wld => decide (0x400E0100 ≤ addr) && s.on WLD_LOCK
    | some .fifo => addr == FIFO_POOL.addr && (List.range 16).any (fun n => s.on (FIFO_CFG_EN n))
    | some .vote0 => decide (0x50 ≤ addr % 0x1000) && !s.isSplit 0
    | some .vote1 => decide (0x50 ≤ addr % 0x1000) && !s.isSplit 1
    | _ => false)

/-- The bits of a word that a write reaches: those of Secure events are closed to the Normal world (R41). -/
def State.openBits (s : State) (a : Agent) (addr v : Nat) : Option Nat :=
  if 0x40010100 ≤ addr ∧ addr < 0x40010120 then
    (let k := (addr - 0x40010100) / 4
     some (orBits (v &&& evcMask a k s) (clearBits (s.get (EVC_EN k)) (evcMask a k s))))
  else if 0x40011000 ≤ addr ∧ addr < 0x40011400 then
    (if isNormal a s && s.eventSecure ((addr - 0x40011000) / 4) then none else some v)
  else some v

/-- One field takes its part of a written word (Table 0.1, R6). -/
def State.writeField (s : State) (addr v : Nat) (r : FRow) : State :=
  let f := r.at addr
  let x := bits v f.lo f.w
  match r.acc with
  | .ro => s
  | .wo => s
  | .rw => s.set f x
  | .w1c => s.clrBits f x
  | .w1s => s.setBits f x
  | .rwo => if s.locks.contains addr then s else s.set f x

/-- A register with RWO fields locks (R6): RST_WDT_CFG and WLD_LOCK by EN and LOCK. -/
def State.lockReg (s : State) (addr : Nat) : State :=
  if (addr = RST_WDT_CFG_EN.addr ∧ s.on RST_WDT_CFG_EN = true) ∨ (addr = WLD_LOCK.addr ∧ s.on WLD_LOCK = true) then
    (if s.locks.contains addr then s else { s with locks := s.locks ++ [addr] })
  else s

/-- All fields of the register take their parts; a mirror's write goes on its way to ISL_AON (R19). -/
def State.writeFields (s : State) (addr v : Nat) : State :=
  let s := ((rowsAt addr).foldl (fun (s : State) r => s.writeField addr v r) s).lockReg addr
  if isMirror addr then { s with mirrorQ := s.mirrorQ ++ [⟨addr, v⟩] } else s

/-- The write of the fields without a row, with what its block has to say of it. -/
def State.plainWrite (s : State) (a : Agent) (addr v : Nat) : State :=
  if s.shut addr then s
  else match blockOf addr, s.openBits a addr v with
  | _, none => s
  | some .lcc, some v => if idOf a ≤ 2 then s.writeFields addr v else s.lccError 6 0 addr
  | some .clk, some v =>
    if addr = CLK_APP_DIV_APP_DIV.addr ∧ isNormal a s = true ∧ s.get WLD_APPW ≠ 0 then s.worldRefusal a addr 3 true
    else s.writeFields addr v
  | some .fifo, some v =>
    (let n := (addr - 0x40038100) / 0x20
     if addr = (FIFO_PUSH_LO n).addr ∧ 0x40038100 ≤ addr ∧ n < 16 then
       (if isNormal a s == s.on (FIFO_CFG_PWORLD n) then s.fifoError n 5 else s.set (FIFO_PUSH_LO n) (v / 16))
     else s.writeFields addr v)
  | some .recorder, some v =>
    if (REC_LB_P 0).addr ≤ addr ∧ addr < REC_LB_PUT_CODE.addr then
      s.setRec { s.recorder with stage := ins s.recorder.stage (4 * idOf a + (addr - (REC_LB_P 0).addr) / 4) v }
    else s.writeFields addr v
  | some .dbg, some v => if 0x40100400 ≤ addr ∧ addr < 0x40100600 then s.dmWrite ((addr - 0x40100400) / 4) v else s.writeFields addr v
  | _, some v => s.writeFields addr v

/-- The state a row gives. -/
def State.after (s : State) (f : State → Out) : State :=
  match f s with
  | .next t => t
  | _ => s

/-- A write of `v` to the register at `addr`, aligned: refused (R34, R81, R488, R491), or taken by its rows and fields. A put that is
refused is counted by its own row (R443). -/
def State.regWrite32 (s : State) (a : Agent) (addr : Nat) (v : Word) : State :=
  let c := rowCmds a addr v
  match s.refuse a addr true with
  | some s' => if addr = REC_LB_PUT_CODE.addr then s.after (execRecLbPut a v) else s'
  | none =>
    let s := if c.2 then s.plainWrite a addr v.toNat else s
    (c.1.foldl State.after s).answer 0

/-! ### Reads -/

/-- The word that three fields of a TOP register give. -/
def topWord (e : Option (Nat × Nat)) : Nat :=
  match e with
  | some (n, prio) => 2 ^ 31 + 2 ^ 8 * prio + n
  | none => 0

/-- An EVC read (R41, R43): the Normal world sees Normal events only. -/
def State.evcRead (s : State) (a : Agent) (addr : Nat) : Nat :=
  if addr < 0x40010020 then s.get (EVC_PEND ((addr - 0x40010000) / 4)) &&& evcMask a ((addr - 0x40010000) / 4) s
  else if 0x40010100 ≤ addr ∧ addr < 0x40010120 then s.get (EVC_EN ((addr - 0x40010100) / 4)) &&& evcMask a ((addr - 0x40010100) / 4) s
  else if 0x40011000 ≤ addr ∧ addr < 0x40011400 then
    (let n := (addr - 0x40011000) / 4
     if isNormal a s && s.eventSecure n then 0
     else s.get (EVC_CFG_TGT n) + 2 ^ 8 * s.get (EVC_CFG_VF n) + 2 ^ 16 * s.get (EVC_CFG_PRIO n) + 2 ^ 24 * s.get (EVC_CFG_WORLD n))
  else if 0x40012000 ≤ addr ∧ addr < 0x40012060 ∧ addr % 0x10 = 0 then
    topWord ((s.topEvent ((addr - 0x40012000) / 0x10) (isNormal a s)).map (fun e => (e, s.get (EVC_CFG_PRIO e))))
  else s.plainWord rowsEvc addr

/-- The highest event forwarded to function `f` (R176). -/
def State.fwdTop (s : State) (f : Nat) : Option (Nat × Nat) :=
  (((List.range 256).filter (fun e => s.forwardTo e == some f)).foldl s.better none).map (fun e => (e, s.get (EVC_CFG_PRIO e)))

/-- A read of a VF doorbell page. -/
def State.vfpRead (s : State) (addr : Nat) : Nat :=
  let f := pageFn addr
  if addr % 0x1000 = 0x40 then s.get (VFM_VF_STATE_GEN f) + 2 ^ 8 * s.get (VFM_VF_STATE_STATE f)
  else if addr % 0x1000 = 0x50 then topWord (s.fwdTop f)
  else s.plainWord rowsVfp addr

/-- A read of VOTE0 or VOTE1 (R126). -/
def State.voteRead (s : State) (g addr : Nat) : Nat :=
  let off := addr % 0x1000
  if s.isSplit g && decide (0x10 ≤ off ∧ off < 0x40) then 0
  else if !s.isSplit g && decide (0x50 ≤ off) then 0
  else s.plainWord rowsVote addr

/-- A read of REC: the staging set and the snapshot are those of the reader (R443, R449). -/
def State.recRead (s : State) (a : Agent) (addr : Nat) : Nat :=
  let id := idOf a
  let x := look s.recorder.snaps id ⟨0, 0, 0, 0, 0, 0, 0, 0⟩
  if addr = REC_SNAP_LB_OLD.addr then x.lbOld
  else if addr = REC_SNAP_LB_NEW.addr then x.lbNew
  else if addr = REC_SNAP_LG_OLD.addr then x.lgOld
  else if addr = REC_SNAP_LG_NEW.addr then x.lgNew
  else if addr = REC_SNAP_LG_ADDR.addr then x.lgOff / 16 * 16
  else if addr = REC_SNAP_INFO_NUM.addr then x.lbClr % 256 + 2 ^ 8 * (x.lgClr % 256) + 2 ^ 16 * x.num
  else if addr = REC_SNAP_LB_CLR.addr then x.lbClr
  else if addr = REC_SNAP_LG_CLR.addr then x.lgClr
  else if (REC_LB_P 0).addr ≤ addr ∧ addr < REC_LB_PUT_CODE.addr then
    look s.recorder.stage (4 * id + (addr - (REC_LB_P 0).addr) / 4) 0
  else s.plainWord rowsRec addr

/-- DBG_STAT (Table 16.9). -/
def State.dbgStat (s : State) : Nat :=
  let fw := if s.lifecycle = 2 ∨ s.lifecycle = 4 then s.get DBG_GRANT % 8 else s.get DBG_GRANT
  s.get DBG_STAT_LEFT + 2 ^ 16 * b2n (s.haltedHarts != 0) + 2 ^ 20 * fw + 2 ^ 24 * s.get DBG_STAT_TOKEN + 2 ^ 28 * s.reaches

/-- RST_WDT_CNT (R75, Table 2.13): PERIOD while the watchdog does not run. While it does, a free value, since the model has no
clock, that fits what is known: it lies in the half of the period that has begun, PERIOD 0 acting as 1 ms, and does not rise without
a kick. -/
def State.wdtLeft (s : State) : Nat × State :=
  let p := s.get RST_WDT_CFG_PERIOD
  if !s.on RST_WDT_CFG_EN then (p, s)
  else
    let p := max 1 p
    let hi := min (s.pwr.wdtLeft.getD p) (if s.pwr.wdtWarned then (p + 1) / 2 else p)
    let lo := min hi (if s.pwr.wdtWarned then 0 else p / 2)
    let d := s.draw 16
    let v := lo + d.1 % (hi - lo + 1)
    (v, { d.2 with pwr := { s.pwr with wdtLeft := some v } })

/-- The LO registers of R11 and R338. -/
def isCounterLo (addr : Nat) : Bool :=
  addr == 0x40001028 || addr == 0x4002001C || addr == 0x4002101C || addr == 0x40022100 || addr == 0x40022140 || addr == 0x400F0020
    || addr == 0x40030020 || addr == 0x40031020 || addr == 0x40070000 || addr == 0x40070048 || addr == 0x40070050
    || (decide (0x40061000 ≤ addr) && decide (addr < 0x40061A00)
      && [0x50, 0x58, 0xA0, 0xA8].contains (addr % 0x100))

/-- A register that a LO read latches: the HI register behind a LO register, and TIME_NOW_EP. -/
def isLatched (addr : Nat) : Bool := addr == 0x40070008 || (decide (4 ≤ addr) && isCounterLo (addr - 4))

/-- The stamp counter of a channel as it reads (R364): it runs by itself, so it is a free value. -/
def State.stampCounter (s : State) : Nat × State :=
  let d := s.draw 32
  (d.1, d.2)

/-- What the register at `addr` holds, but for latches. -/
def State.liveWord (s : State) (a : Agent) (addr : Nat) : Nat × State :=
  if 0x41000000 ≤ addr then (s.vfpRead addr, s)
  else match blockOf addr with
  | some .evc => (s.evcRead a addr, s)
  | some .vote0 => (s.voteRead 0 addr, s)
  | some .vote1 => (s.voteRead 1 addr, s)
  | some .ist =>
    (if 0x40022100 ≤ addr ∧ addr < 0x40022180 ∧ s.isSplit ((addr - 0x40022100) / 0x40) = true then 0 else s.plainWord rowsIst addr, s)
  | some .rst => if addr = RST_WDT_CNT.addr then s.wdtLeft else (s.plainWord rowsRst addr, s)
  | some .brg =>
    (s.plainWord rowsBrg addr + (if addr = BRG_STAT_HB_RUN.addr then
      2 ^ 16 * [0, 1, 2, 3, 4].foldl (fun (m : Nat) d => if s.hbRuns d then m + 2 ^ d else m) 0 else 0), s)
  | some .lcc => (s.plainWord rowsLcc addr + (if addr = LCC_STAT_LT_VALID.addr then 2 ^ 8 * b2n s.ltValid else 0), s)
  | some .time =>
    (if addr = 0x40070000 then s.zone % 2 ^ 32 else if addr = 0x40070004 then s.zone / 2 ^ 32 else if addr = 0x40070008 then s.epoch
      else s.plainWord rowsTime addr, s)
  | some (.can c) => if addr = (CAN_TS c).addr then s.stampCounter else (s.plainWord (Block.can c).rows addr, s)
  | some .recorder => (s.recRead a addr, s)
  | some .dbg =>
    (if addr = DBG_STAT_LEFT.addr then s.dbgStat
      else if 0x40100400 ≤ addr ∧ addr < 0x40100600 then s.dmRead ((addr - 0x40100400) / 4) else s.plainWord rowsDbg addr, s)
  | some b => (s.plainWord b.rows addr, s)
  | none => (0, s)

/-- The key of the latch of an initiator ID for a register. -/
def latchKey (a : Agent) (addr : Nat) : Nat := idOf a * 2 ^ 40 + addr

/-- A LO read loads the latches of its initiator. -/
def State.loadLatch (s : State) (a : Agent) (lo : Nat) : State :=
  if !isCounterLo lo then s
  else
    let hi := (s.liveWord a (lo + 4)).1
    let l := ins s.latches (latchKey a (lo + 4)) hi
    { s with latches := if lo = 0x40070000 then ins l (latchKey a 0x40070008) s.epoch else l }

/-- A read of the register at `addr`, aligned: refused, or its word is the answer. -/
def State.regRead32 (s : State) (a : Agent) (addr : Nat) : State :=
  match s.refuse a addr false with
  | some s' => s'
  | none =>
    if isLatched addr then s.answer (look s.latches (latchKey a addr) 0)
    else
      let r := s.liveWord a addr
      (r.2.loadLatch a addr).answer r.1

/-- An aligned 64-bit read: two reads at ascending addresses (R4), of a counter both halves from one instant (R11). -/
def State.regRead64 (s : State) (a : Agent) (addr : Nat) : State :=
  let p := s.regRead32 a addr
  let q := if isCounterLo addr then (match p.refuse a (addr + 4) false with
      | some t => t
      | none => p.answer (p.liveWord a (addr + 4)).1)
    else p.regRead32 a (addr + 4)
  if p.resp.err || q.resp.err then q.answerErr else q.answer (p.resp.data + 2 ^ 32 * q.resp.data)

/-- An access of `len` bytes to register space is one the space accepts (R4). -/
def regShape (addr len : Nat) : Bool := (len == 4 && addr % 4 == 0) || (len == 8 && addr % 8 == 0)

/-! ### The fabric, target by target -/

/-- The 32-bit words of a byte string. -/
def wordsIn (l : List Byte) : List Word := (List.range (l.length / 4)).map (fun i => BitVec.ofNat 32 (fieldAt l (4 * i) 4))

/-- A write of one initiator to any target (Table 1.7), once granted; `resp` says how it was answered. While an island on its way
stalls it waits, and has no effect. -/
def State.fabricWrite (s : State) (a : Agent) (addr : Nat) (data : List Byte) : State :=
  if s.fabStalls || s.islandStalls (islandOf a) then s
  else match targetOfRange addr data.length with
  | none => s.answerErr.fabError a addr 1 15
  | some t =>
    let s := s.grants a t (wordsOf addr data.length).length
    if t < 7 then
      (let r := s.memWrite a addr data
       if r.1 = .ok [] then r.2.answer 0 else r.2.answerErr)
    else if t = 9 then s.windowWrite a addr data.length (wordsIn data) []
    else if !regShape addr data.length then s.answerErr
    else
      let p := s.regWrite32 a addr (BitVec.ofNat 32 (fieldAt data 0 4))
      if data.length = 4 then p.oneGrant s.arb
      else
        let q := (p.regWrite32 a (addr + 4) (BitVec.ofNat 32 (fieldAt data 4 4))).oneGrant s.arb
        if p.resp.err || q.resp.err then q.answerErr else q.answer 0

/-- A read of one initiator from any target, once granted; the answer is in `resp`. A load or fetch and an engine check the
codewords they consume (R24): one that is uncorrectable gives a core its access fault and an engine its stop (R26), and in a group
view it is an error response (R87). While an island on its way stalls it waits, and has no effect. -/
def State.fabricRead (s : State) (a : Agent) (addr len : Nat) : State :=
  if s.fabStalls || s.islandStalls (islandOf a) then s
  else match targetOfRange addr len with
  | none => s.answerErr.fabError a addr 1 15
  | some t =>
    let s := s.grants a t (wordsOf addr len).length
    if t < 7 then
      (let r := s.memRead a addr len
       match r.1 with
       | .ok d => r.2.answer (leNat d)
       | .ue => r.2.answerUe
       | _ => r.2.answerErr)
    else if t = 9 then s.windowRead a addr len []
    else if !regShape addr len then s.answerErr
    else if len = 4 then (s.regRead32 a addr).oneGrant s.arb
    else (s.regRead64 a addr).oneGrant s.arb

/-- COUNTER_LO_READ (R11, R338). -/
def execCounterLoRead (a : Agent) (addr : Nat) (wide : Bool) (s : State) : Out :=
  whenAwake s (fun s => s.fabricRead a addr (if wide then 8 else 4))

end Sys2Proof.Machine
end

