-- ==== Sys2Proof/Machine/Dma.lean ====
section
/-! DEFINITION. The DMA engines: NOP and COPY, chains, read-back, timeouts, aborts (R202 to R212). -/

namespace Sys2Proof.Machine

/-- The key of a channel among the starts in progress. -/
def dmaKey (m : Fin 2) (n : Fin 8) : Nat := 8 * m.val + n.val

/-- The start of a channel, if one runs. -/
def State.dmaRun (s : State) (m : Fin 2) (n : Fin 8) : Option DmaRun :=
  (s.dma.find? (fun p => p.1 == dmaKey m n)).map Prod.snd

/-- The start of a channel goes on with `f`; a start that is gone stays gone. -/
def State.dmaStep (s : State) (m : Fin 2) (n : Fin 8) (f : DmaRun → DmaRun) : State :=
  { s with dma := s.dma.map (fun p => if p.1 = dmaKey m n then (p.1, f p.2) else p) }

/-- The start of a channel is over; BUSY clears. -/
def State.dmaOff (s : State) (m : Fin 2) (n : Fin 8) : State :=
  ({ s with dma := del s.dma (dmaKey m n) }.set (DMA_CH_STAT_BUSY m n) 0).clrBits (DMA_STAT_BUSY m) (2 ^ n.val)

/-- A start ends with a status and a stop cause (Tables 6.3 and 6.6): its one completion with BYTES and DESCS is due, which
DESCRIPTOR_COMPLETE writes, with the stop (R196, R199, R208); `tgt` is the target of a failing access. -/
def State.dmaEnd (s : State) (m : Fin 2) (n : Fin 8) (x : DmaRun) (status cause tgt : Nat) : State :=
  let r := Ring.dma m n
  let s := s.dmaOff m n
  match s.nextItem r with
  | some it =>
    let s := if cause = 0 then s else s.dmaError m n cause it.idx x.addr tgt
    s.finish r it.idx status (x.bytes % 2 ^ 32 + 2 ^ 32 * x.descs) cause
  | none => s

/-- A fetch of a linked descriptor has failed: the channel stops and writes no completion (Table 6.6). -/
def State.dmaLinkFail (s : State) (m : Fin 2) (n : Fin 8) (cause addr : Nat) : State :=
  let r := Ring.dma m n
  let s := s.dmaOff m n
  match s.nextItem r with
  | some it => ((s.dmaError m n cause it.idx addr addr).dropItem r it.idx).ringStop r cause addr
  | none => s

/-- NEXT of a descriptor. -/
def dmaNextAddr (d : List Byte) : Nat := dbits d 168 40

/-- A descriptor has been executed: the one at NEXT follows, or the start ends OK (R208). A channel that has stopped fetches nothing
(R200): its start stands until EN is written 0, which aborts it. The header of a linked descriptor is checked before the descriptor
is counted, so that one which is badly formed completes FORMAT even past CHAIN_LIMIT (DESIGN CHOICE, see the log). -/
def State.dmaNext (s : State) (m : Fin 2) (n : Fin 8) (x : DmaRun) : State :=
  if dbits x.desc 34 1 = 0 then s.dmaEnd m n x 0 0 0
  else if s.on (RING_STAT_STOPPED (Ring.dma m n).base) then s.dmaStep m n (fun _ => x)
  else
    let addr := dmaNextAddr x.desc
    let f := s.busRead (.dma m) addr 32
    match f.1 with
    | .ok d =>
      let x' : DmaRun := ⟨d, addr, x.descs, x.bytes, false, 0, [], none, none, x.aborting, x.past ++ [x.desc]⟩
      if dmaFormatOk d then f.2.dmaStep m n (fun _ => x') else f.2.dmaEnd m n x' 2 5 addr
    | e => f.2.dmaLinkFail m n e.cause addr

/-- A channel counts the descriptor it is about to execute (R208): `none` where the count would exceed CHAIN_LIMIT. -/
def State.dmaCount (s : State) (m : Fin 2) (n : Fin 8) (x : DmaRun) : Option (DmaRun × State) :=
  if x.begun then some (x, s)
  else if max 1 (s.get (DMA_CH_CFG m n)) ≤ x.descs then none
  else
    let x := { x with descs := x.descs + 1, begun := true }
    some (x, (s.dmaStep m n (fun _ => x)).set (DMA_CH_STAT_DESCS m n) x.descs)

/-- What a channel's turn on its current descriptor is: nothing of the kind, the limit, or the descriptor. -/
def dmaTurn (m : Fin 2) (n : Fin 8) (op : Nat) (s : State) (act : DmaRun → State → State) : Out :=
  whenLive (if m = 0 then .dma0 else .dma1) s (fun s =>
    match s.dmaRun m n with
    | none => s
    | some x =>
      if x.aborting ∨ dOp x.desc ≠ op ∨ x.check.isSome = true then s
      else match s.dmaCount m n x with
        | none => s.dmaEnd m n x 0x10 8 0
        | some (x, s) => act x s)

/-- DMA_NOP. -/
def execDmaNop (m : Fin 2) (n : Fin 8) (s : State) : Out := dmaTurn m n 0 s (fun x s => s.dmaNext m n x)

/-! ### The data of a COPY (R203 to R206) -/

/-- What one access of a channel comes to. -/
inductive DmaGo where
  /-- the data -/
  | data (d : List Byte) (s : State)
  /-- the channel waits: for a far response, or for a place in the queue of the stage bridge -/
  | wait (s : State)
  /-- the access failed at an address -/
  | bad (e : BusRes) (addr : Nat) (s : State)
deriving DecidableEq, Repr

/-- The codeword passes through unchanged (R205): equal offsets, and no side made of four-byte elements. The words of a far source
arrive clean, so that passing them on and writing them anew is one thing. -/
def dmaPasses (d : List Byte) : Bool :=
  let p := dmaSrc d
  let q := dmaDst d
  !(p.mode == 1 && p.elem == 4) && !(q.mode == 1 && q.elem == 4) && p.addr % 16 == q.addr % 16 && inT0to6 p.addr 1

/-- How many bytes from byte `k` on one access of a side takes: the rest of a codeword, or an element. -/
def DmaSide.unit (x : DmaSide) (k len : Nat) : Nat :=
  let a := x.at k
  let w := if x.mode = 1 ∧ x.elem = 4 then 4 - a % 4 else 16 - a % 16
  min w (x.run k (len - k))

/-- The two sides of a COPY reach common bytes: what the destination then gets the spec does not say. -/
def dmaOverlap (d : List Byte) : Bool :=
  let p := (dmaSrc d).reach (dmaLen d)
  let q := (dmaDst d).reach (dmaLen d)
  p.any (fun a => q.any (fun b => decide (a.1 < b.1 + b.2) && decide (b.1 < a.1 + a.2)))

/-- A channel reads from its side of memory, register space or the stage window; `wait` is the far read it waits for. -/
def State.dmaGet (s : State) (m : Fin 2) (wait : Option (Nat × Nat)) (addr len : Nat) : DmaGo :=
  match wait with
  | some (d, tag) =>
    match (s.lk d).accs.find? (fun y => y.tag == tag) with
    | none => .bad .err addr s
    | some y =>
      if y.got.length < y.data.length then .wait s
      else
        let s := s.dropAcc d tag
        if y.failed then .bad .err addr (s.count BRG_NP_ERR)
        else .data (leBytes len (joinWords y.got)) s
  | none =>
    if inT0to6 addr len then
      (let r := s.busRead (.dma m) addr len
       match r.1 with
       | .ok d => .data d r.2
       | e => .bad e addr r.2)
    else
      let t := (s.answer 0).fabricRead (.dma m) addr len
      if t.resp.err then .bad .err addr t
      else if (dieOf addr).isSome then .wait t
      else .data (leBytes len t.resp.data) t

/-- The far read a channel has just opened. -/
def State.farTag (s : State) (addr : Nat) : Option (Nat × Nat) :=
  (dieOf addr).bind (fun d => (s.lk d).accs.getLast?.map (fun y => (d, y.tag)))

/-- A channel writes to its side; a posted write waits for a place in the queue of the die (R235). -/
def State.dmaPut (s : State) (m : Fin 2) (addr : Nat) (data : List Byte) : DmaGo :=
  if inT0to6 addr data.length then
    (let r := s.busWrite (.dma m) addr data
     match r.1 with
     | .ok d => .data d r.2
     | e => .bad e addr r.2)
  else
    if s.windowFull (.dma m) addr (data.length / 4) then .wait s
    else
      let t := (s.answer 0).fabricWrite (.dma m) addr data
      if t.resp.err then .bad .err addr t else .data [] t

/-- The stored codeword at `src` is stored at `dst` with its check bytes. -/
def State.passRaw (t : State) (src dst : Nat) : State :=
  (t.writeBytes dst (t.readBytes src 16)).setSyn (dst / 16) (t.synOf (src / 16))

/-- A codeword passes through the channel to the stage window (R205, R235): the channel and the bridge report what they find in it, and
the far die, its consumer, discards the parts of an uncorrectable one (R25, R26). -/
def State.dmaFar (s : State) (m : Fin 2) (src dst len : Nat) : DmaGo :=
  if s.windowFull (.dma m) dst (len / 4) then .wait s
  else
    let at0 := s.viewWord (src / 16 * 16)
    let syn := s.synOf (at0 / 16)
    let data := (List.range len).map (fun i => s.correctedByte (at0 + src % 16 + i))
    let words := (List.range (len / 4)).map (fun i => BitVec.ofNat 32 (fieldAt data (4 * i) 4))
    let bad := if classify syn == .uncorrectable then List.range (len / 4) else []
    let t := ((s.checkView src len (portOf (.dma m))).codeReport dst 0x19 syn).grantsAt (.dma m) dst len
    let u := (t.answer 0).windowWrite (.dma m) dst len words bad
    if u.resp.err then .bad .err dst u else .data [] u

/-- A codeword, or the part of one at either end, passes through the channel (R205, R28): checked and reported, not refused. -/
def State.dmaPass (s : State) (m : Fin 2) (src dst len : Nat) : DmaGo :=
  match s.memGate (.dma m) false src len with
  | some t => .bad .err src t
  | none =>
    if tcmGroup ((targetOf src).getD 15) ≠ none ∧ s.viewBad src len = true then .bad .err src (s.checkView src len (portOf (.dma m)))
    else
      let s := s.grantsAt (.dma m) src len
      if inWindow dst len then s.dmaFar m src dst len
      else if len = 16 then
        (match s.memGate (.dma m) true dst 16 with
         | some t => .bad .err dst t
         | none => .data [] ((s.arraysOf dst).foldl (fun (t : State) k => t.passRaw (s.viewWord src) (arrayAddr k dst))
             ((s.checkView src 16 (portOf (.dma m))).grantsAt (.dma m) dst 16)))
      else
        let part := s.readBytes (s.viewWord (src / 16 * 16) + src % 16) len
        (s.checkView src len (portOf (.dma m))).dmaPut m dst part

/-- The bytes a channel wrote so far of a descriptor. -/
def DmaRun.put (x : DmaRun) : Nat := x.got - x.buf.length

/-- DMA_BYTES counts the bytes written, and saturates (R212). -/
def State.dmaBytes (s : State) (m : Fin 2) (k : Nat) : State :=
  s.set64 (DMA_BYTES_LO m) (DMA_BYTES_HI m) (min (2 ^ 64 - 1) (s.get64 (DMA_BYTES_LO m) (DMA_BYTES_HI m) + k))

/-- The last word of a COPY, for its read-back (R207): the bytes of it that the channel wrote, wherever in the COPY, where it is
memory. -/
def State.lastWord (s : State) (d : List Byte) : Nat × List (Option Byte) × Bool :=
  let q := dmaDst d
  let a := q.at (dmaLen d - 1)
  if inT0to6 a 1 = false then (a / 4 * 4, [], false)
  else
    let w := if q.mode = 1 ∧ q.elem = 4 then 4 else 16
    let lo := a / w * w
    let now := (s.viewBytes lo w).getD (s.readBytes lo w)
    (lo, now.zipIdx.map (fun p => if q.reaches (dmaLen d) (lo + p.2) then some p.1 else none), true)

/-- The bytes read back are those the channel wrote, where it wrote them. -/
def readsBack (want : List (Option Byte)) (got : List Byte) : Bool :=
  (want.zip got).all (fun p => match p.1 with
    | some b => b == p.2
    | none => true)

/-- A COPY goes on while nothing makes it wait: source units are read in turn, destination units written as soon as their bytes are
there. `none` for the start where it waits, else where an access failed. -/
def copyLoop (m : Fin 2) (n : Fin 8) : Nat → State → State × Option (BusRes × Nat)
  | 0, s => (s, none)
  | fuel + 1, s =>
    match s.dmaRun m n with
    | none => (s, none)
    | some x =>
      let len := dmaLen x.desc
      let p := dmaSrc x.desc
      let q := dmaDst x.desc
      let k := x.put
      let w := q.unit k len
      if x.aborting ∨ len ≤ k then (s, none)
      else if dmaPasses x.desc && !dmaOverlap x.desc then
        let u := min w (p.unit k len)
        match s.dmaPass m (p.at k) (q.at k) u with
        | .data _ t => copyLoop m n fuel ((t.dmaStep m n (fun x => { x with got := x.got + u, bytes := x.bytes + u })).dmaBytes m u)
        | .wait t => (t, none)
        | .bad e a t => (t, some (e, a))
      else if w ≤ x.buf.length then
        match s.dmaPut m (q.at k) (x.buf.take w) with
        | .data _ t =>
          copyLoop m n fuel ((t.dmaStep m n (fun x => { x with buf := x.buf.drop w, bytes := x.bytes + w })).dmaBytes m w)
        | .wait t => (t, none)
        | .bad e a t => (t, some (e, a))
      else
        let a := p.at x.got
        let u := p.unit x.got len
        match s.dmaGet m x.wait a u with
        | .data d t =>
          let f := if dmaOverlap x.desc then t.drawBytes u else (d, t)
          copyLoop m n fuel (f.2.dmaStep m n (fun x => { x with buf := x.buf ++ f.1, got := x.got + u, wait := none }))
        | .wait t => (t.dmaStep m n (fun y => { y with wait := if x.wait.isSome then x.wait else t.farTag a }), none)
        | .bad e a t => (t, some (e, a))

/-- An executed part of a COPY whose start ends before its data are all written: its destination is undefined (R195, R210). -/
def State.dmaBreak (s : State) (m : Fin 2) (x : DmaRun) : State := s.copySmear m x.desc

/-- DMA_COPY (R203 to R206): the data of the current descriptor move, up to the first far access that must be waited for; then the
read-back is due. -/
def execDmaCopy (m : Fin 2) (n : Fin 8) (s : State) : Out :=
  dmaTurn m n 1 s (fun x s =>
    let r := copyLoop m n (2 * dmaLen x.desc + 1) s
    match r.1.dmaRun m n with
    | none => r.1
    | some y =>
      match r.2 with
      | some (e, a) => (r.1.dmaBreak m y).dmaEnd m n y (if e.cause = 2 then 4 else 5) e.cause a
      | none =>
        if y.aborting = false ∧ dmaLen y.desc ≤ y.put then r.1.dmaStep m n (fun y => { y with check := some (r.1.lastWord y.desc) })
        else r.1)

/-- DMA_READBACK (R207). One that is uncorrectable or answered with an error leaves the descriptor partly executed (Table 6.3). -/
def execDmaReadback (m : Fin 2) (n : Fin 8) (s : State) : Out :=
  whenLive (if m = 0 then .dma0 else .dma1) s (fun s =>
    match s.dmaRun m n with
    | none => s
    | some x =>
      match x.check with
      | none => s
      | some (addr, want, isMem) =>
        if x.aborting then s
        else match s.dmaGet m x.wait addr (if isMem then want.length else 4) with
          | .wait t => t.dmaStep m n (fun y => { y with wait := if x.wait.isSome then x.wait else t.farTag addr })
          | .bad e a t => (t.dmaBreak m x).dmaEnd m n x (if e.cause = 2 then 4 else 5) e.cause a
          | .data d t =>
            if isMem && !readsBack want d then t.dmaEnd m n x 0x12 0xA addr
            else match t.dmaRun m n with
              | none => t
              | some y => t.dmaNext m n { y with check := none, wait := none })

/-! ### Timeouts and aborts (R209, R210) -/

/-- A completion write or write-back is abandoned: the entry is lost with its place in the ring, where it is the entry, and the
channel stops. -/
def State.dmaLate (s : State) (m : Fin 2) (n : Fin 8) (addr : Nat) (landed : Bool) : State :=
  let r := Ring.dma m n
  let ready := match s.nextDone r with
    | some it => match it.fin with
      | some f => if s.cqRoom r && !(dNocpl it.desc && f.1 == 0) then some (it, f) else none
      | none => none
    | none => none
  match ready with
  | some (it, st, res, _) =>
    let bytes := s.entryBytes r it st res
    let at0 := s.entryAddr r
    let s := s.dropItem r it.idx
    let s := if landed || addr == s.ciwbAddr r then (s.ringWrite r at0 bytes).2 else s
    let s := s.setRing r { s.ring r with cqPi := ((s.ring r).cqPi + 1) % 2 ^ 16 }
    (s.dmaCapture r it 9 addr).ringStop r 9 addr
  | none => if addr = s.ciwbAddr r then s.ringStop r 9 addr else s

/-- The data of the current descriptor have their responses, and `addr` is where the next one of its chain stands. -/
def DmaRun.fetchesNext (x : DmaRun) (addr : Nat) : Bool :=
  (dOp x.desc == 0 || x.check.isSome) && dbits x.desc 34 1 == 1 && addr == dmaNextAddr x.desc

/-- DMA_ACCESS_TIMEOUT (R209): of a completion or write-back (`late`), of a fetch from the ring, of the fetch of a linked descriptor, or
of a data access or read-back. -/
def execDmaAccessTimeout (m : Fin 2) (n : Fin 8) (addr : Nat) (late landed : Bool) (s : State) : Out :=
  let r := Ring.dma m n
  whenLive (if m = 0 then .dma0 else .dma1) s (fun s =>
    if !s.on (RING_CFG_EN r.base) || s.on (RING_STAT_STOPPED r.base) then s
    else if late then s.dmaLate m n addr landed
    else match s.dmaRun m n with
      | none => if s.mayFetch r && addr == s.slotAddr r (s.sqCi r) then s.ringStop r 9 addr else s
      | some x =>
        if x.aborting then s
        else if x.fetchesNext addr && x.begun then s.dmaEnd m n x 0x11 9 addr
        else match s.dmaCount m n x with
          | none => s.dmaEnd m n x 0x10 8 0
          | some (x, s) => (if x.check.isSome then s else s.dmaBreak m x).dmaEnd m n x 0x11 9 addr)

/-- DMA_ABORT_COMPLETE (R210): no completion, the destination of the whole start undefined, BUSY clear. -/
def execDmaAbortComplete (m : Fin 2) (n : Fin 8) (s : State) : Out :=
  whenAwake s (fun s =>
    match s.dmaRun m n with
    | none => s
    | some x => if x.aborting then (s.dmaOff m n).startSmear m x else s)

end Sys2Proof.Machine
end

