-- ==== Sys2Proof/Machine/LaneSteps.lean ====
section
/-! DEFINITION. What a lane group does: executing with the voter, the agreement port, commits, released writes, idle windows, lane
tests, debug halt (R92 to R105, R128 to R149, R498). -/

namespace Sys2Proof.Machine

/-! ### Once and idempotent targets (R138, Table 4.4) -/

/-- The attribute of the target of an address: `none` idempotent memory, `some none` fixed once, `some (some b)` selectable by bit b
of IST_ATTR. -/
def onceAttr (addr : Nat) : Option (Option Nat) :=
  if 0x41180000 ≤ addr ∧ addr < 0x41190000 then some (some 31)
  else if 0x41100000 ≤ addr ∧ addr < 0x41180000 then some (some 30)
  else if 0x41000000 ≤ addr ∧ addr < 0x41100000 then some (some 29)
  else match dieOf addr with
  | some d => some (some (24 + d))
  | none =>
    match blockOf addr with
    | none => none
    | some .clk => some (some 0)
    | some .dma0 => some (some 1)
    | some .dma1 => some (some 2)
    | some .brg => some (some 3)
    | some .lcc => some (some 4)
    | some .eth => some (some 5)
    | some .time => some (some 6)
    | some (.can n) => some (some (7 + n))
    | some .cgw => some (some 19)
    | some .nmw => some (some 20)
    | some .sns => some (some 21)
    | some .cry => some (some 22)
    | some .vfm => some (some 23)
    | some _ => some none

/-- A write to the address waits in the release queue (R138, R140). -/
def State.isOnce (s : State) (addr : Nat) : Bool :=
  match onceAttr addr with
  | none => false
  | some none => true
  | some (some b) => bit (s.get IST_ATTR) b

/-! ### Commits (R128 to R132, R140 to R143) -/

/-- A released once-write is answered with an error response (R143, R158). -/
def State.relqError (s : State) (g addr : Nat) : State :=
  let s := s.count (IST_RELQ_ERR_INFO_COUNT g)
  let s := if s.on (IST_RELQ_ERR_INFO_VALID g) then s
    else s.setAll [(IST_RELQ_ERR_INFO_VALID g, 1), (IST_RELQ_ERR_ADDR_LO g, addr), (IST_RELQ_ERR_ADDR_HI g, addr / 2 ^ 32)]
  (s.raise (26 + g)).logDue 1 0x0421 0 g (addr % 2 ^ 32) (addr / 2 ^ 32)

/-- The lowest and the number of bytes that a set of 16 strobes lets through, taken as one run. -/
def strobeRun (m : Nat) : Nat × Nat :=
  let l := (List.range 16).filter (fun i => bit m i)
  match l with
  | [] => (0, 0)
  | i :: _ => (i, (l.getLast?.getD i) + 1 - i)

/-- The bytes of a codeword that a set of strobes lets through. -/
def strobeBytes (m data : Nat) : List Byte := ((leBytes 16 data).drop (strobeRun m).1).take (strobeRun m).2

/-- The window access just opened at the address, a non-posted write, is `m` to its initiator (R143, R234). -/
def State.markAccess (s : State) (addr : Nat) (m : WinMark) : State :=
  match dieOf addr with
  | none => s
  | some d =>
    match (s.lk d).accs.getLast? with
    | some x => if x.write && !x.posted && x.addr == addr then
        s.setLk d { s.lk d with accs := (s.lk d).accs.dropLast ++ [{ x with mark := m }] } else s
    | none => s

/-- A release queue goes to the fabric in issue order (R140); a reset that one of its writes causes ends it. A write into a window
that fails later does so as a released write (R143). -/
def State.releaseAll (s : State) (g : Fin 2) (l : List RelqEnt) : State :=
  l.foldl (fun (s : State) e =>
    if !s.awake then s
    else
      let addr := e.addr + (strobeRun e.strobes).1
      let s := (s.answer 0).fabricWrite (.lane g 0) addr (strobeBytes e.strobes e.data)
      if s.resp.err then s.relqError g addr else s.markAccess addr .released) s

/-- The group may commit: it is live and not halted in debug mode (R144, R155, R498). -/
def State.canCommit (s : State) (g : Nat) : Bool := s.groupLive g && !s.debugHalted g

/-- A lane test starts at the commit that opens the window (R149). -/
def State.testStart (s : State) (g : Nat) : State :=
  let k := s.get (nextFld g)
  let s := s.setAll [(IST_STAT_ITEM, g + 1), (IST_STAT_UNIT, k), (overdueFld g, 0)]
  let s := ((s.setLane g k 3).settleGroup g).setDue g false
  { s with ist := { s.ist with memBist := false } }

/-- The gate of ISL_SG1 that waited for a checkpoint takes effect; SG1 is then neither due nor OVERDUE (R80, R151). -/
def State.sg1Gates (s : State) : State :=
  ((s.setPwr { s.pwr with sg1GateDue := false }).setDue 1 false).set IST_STAT_SG1_OVERDUE 0

/-- What begins at a commit: the gating of SG1, a lane test, or a rejoin. REJOIN_NOW speaks of this commit alone (R112). -/
def State.atCommit (s : State) (g : Nat) : State :=
  let s := if g = 1 ∧ s.pwr.sg1GateDue = true then s.sg1Gates
    else if s.testStarts g && !(g == 1 && s.testStarts 0) then s.testStart g
    else if s.group g = 1 ∧ s.dueLanes g ≠ [] then s.rejoinStart g
    else s
  s.setGrp g { s.grp g with rejoinNow := false }

/-- The counter of early commits by reason: 1 undo log, 2 release queue, 3 QCKPT, 4 idle window; 0 the interval has none. -/
def earlyFld (g why : Nat) : Option Fld :=
  if why = 1 then some (IST_CKPT_EARLY_UNDO g) else if why = 2 then some (IST_CKPT_EARLY_RELQ g)
  else if why = 3 then some (IST_CKPT_EARLY_REQ g) else if why = 4 then some (IST_CKPT_EARLY_IDLE g) else none

/-- A commit (R131): the other half takes the architectural state and becomes the committed one, the undo log is emptied but for the
input entries of an instruction not yet retired (R130), the queue released, CONSEC cleared (R111); a test of a half of the group
gives way (R152). -/
def State.commitGroup (s : State) (g : Fin 2) (why : Nat) : State :=
  let s := if s.get IST_STAT_ITEM = 5 ∧ s.get IST_STAT_UNIT / 2 = g.val then s.istEnd 3 3 else s
  let x := s.grp g
  let other := !s.on (IST_CKPT_STAT_HALF g)
  let regs := s.voteRegs g
  let s := s.putGrp g { x with
    half0 := if other then x.half0 else regs
    half1 := if other then regs else x.half1
    undo := x.tail, relq := [], writes := 0, insns := 0, line0 := x.line, commitDue := false
    codes := x.codes.filter (fun p => decide (2048 ≤ p.1) && (decide (p.1 < 2112) == other)) }
  let s := (s.set (IST_CKPT_STAT_HALF g) (b2n other)).set64 (IST_CKPT_CNT_LO g) (IST_CKPT_CNT_HI g)
    (satInc (s.get64 (IST_CKPT_CNT_LO g) (IST_CKPT_CNT_HI g)) 64)
  let s := match earlyFld g why with
    | some f => s.count f
    | none => s
  ((s.set (VOTE_RESTART_CNT_CONSEC g) 0).atCommit g).releaseAll g x.relq

/-! ### What a group takes up between instructions -/

/-- A VOTED group enters debug mode (R498). -/
def State.enterDebug (s : State) (g : Fin 2) : State :=
  let s := s.setGrp g { s.grp g with halt := true, window := false }
  let s := s.setDbg { s.dbg with asks := clearBits s.dbg.asks (2 ^ g.val) }
  let s := s.commitGroup g 0
  { s with haltedHarts := putBit s.haltedHarts (4 * g.val) true }

/-- A VOTED group leaves debug mode, and commits (R498). -/
def State.leaveDebug (s : State) (g : Fin 2) : State :=
  let s := s.setDbg { s.dbg with asks := clearBits s.dbg.asks (2 ^ (2 + g.val)) }
  let s := { s with haltedHarts := putBit s.haltedHarts (4 * g.val) false }
  let s := s.setGrp g { s.grp g with halt := false }
  (if s.groupLive g then s.commitGroup g 0 else s).resumeAck (4 * g.val)

/-- An idle-window rejoin is due: the window is open and lanes wait under REJOIN_POL 1 (R112, R128). -/
def State.windowRejoin (s : State) (g : Nat) : Bool :=
  (s.grp g).window && s.on (VOTE_CFG_REJOIN_POL g) && (s.group g == 1) && (s.dueLanes g != [])

/-- One group takes up what is asked of it: a debug halt or resume, or a commit of an idle window. -/
def State.groupWork (s : State) (g : Fin 2) : State :=
  if bit s.dbg.asks g.val && s.canCommit g then s.enterDebug g
  else if bit s.dbg.asks (2 + g.val) && s.debugHalted g then s.leaveDebug g
  else if s.canCommit g && (s.windowRejoin g || (s.testStarts g && !(g.val == 1 && s.canCommit 0 && s.testStarts 0))) then
    s.commitGroup g 4
  else s

/-- Both groups take up what is asked of them, SG0 first (R150); a write that a commit releases may ask for more. While the fabric
stalls no commit takes place. -/
def State.laneWork (s : State) : State := if s.fabStalls then s else (((s.groupWork 0).groupWork 1).groupWork 0).groupWork 1

/-- SG1 runs only once SG0's firmware has started it, after the boot ROM (Table 2.7). While the fabric stalls (event 4 of Table 2.10)
the groups wait with it (DESIGN CHOICE, log entry 173). -/
def State.groupRuns (s : State) (g : Nat) : Bool :=
  s.groupClocked g && !s.fabStalls && (g == 0 || (s.pwr.phase != Phase.bootRom && s.pwr.phase != Phase.hold))

/-- A command of a lane group: the group has left reset, and takes up what is asked of it before and after. -/
def laneCmd (g : Fin 2) (s : State) (act : State → State) : Out :=
  if !s.groupRuns g then .next s else done (act ((s.groupStart g).laneWork)).laneWork

/-! ### What the lanes put out (R92 to R94, R134 to R142, R145) -/

/-- The old word at an aligned address of memory, as read (R136). -/
def State.oldWord (s : State) (addr : Nat) : Nat := leNat ((List.range 4).map (fun i => s.correctedByte (addr + i)))

/-- A commit at an instruction boundary (R130): where a log or queue threshold is reached (R128), or the interval ran out in a
restart (R144). -/
def State.earlyCommit (s : State) (g : Fin 2) : State :=
  let x := s.grp g
  if !s.canCommit g then s
  else if 1792 ≤ x.undo.length then s.commitGroup g 1
  else if 56 ≤ x.relq.length then s.commitGroup g 2
  else if x.commitDue then s.commitGroup g 0
  else s

/-- A VOTED group takes an access fault in all its lanes: the instruction does not retire, and what it logged is history. -/
def State.groupTrap (s : State) (g : Fin 2) (cause tval : Nat) : State :=
  let s := s.laneTrap (4 * g.val) cause tval
  s.setGrp g { s.grp g with tail := [], window := false }

/-- The voted TCM write of a cycle: the old word is logged from the lowest-numbered ACTIVE lane, and every ACTIVE array takes the
bytes. -/
def State.tcmWrite (s : State) (g : Fin 2) (o : LaneOut) : State :=
  let p := strobeRun o.tcmStrobes
  let addr := viewBase g + o.tcmAddr % 0x80000 / 16 * 16 + p.1
  let data := strobeBytes o.tcmStrobes o.tcmData
  if !o.tcmValid || p.2 = 0 then s
  else
    let l := s.active g
    let s := s.logOld g 1 (addr / 4 * 4) (s.oldWord (arrayAddr (l.headD 0) (addr / 4 * 4)))
    l.foldl (fun (s : State) k => (s.writeMem (arrayAddr k addr) (0x12 + g.val) data).2) s

/-- The group counts one fabric write since the checkpoint. -/
def State.countWrite (s : State) (g : Nat) : State := s.setGrp g { s.grp g with writes := (s.grp g).writes + 1 }

/-- A once-write joins the release queue of a VOTED group, after a commit where that is full (R140, R142). -/
def State.queueWrite (s : State) (g : Fin 2) (e : RelqEnt) : State :=
  let x := s.grp g
  let s := if x.step == .live && decide (64 ≤ x.relq.length) then s.commitGroup g 2 else s
  let x := s.grp g
  (s.putGrp g { x with relq := x.relq ++ [e] }).countWrite g

/-- The write of the group whose ordinal since the checkpoint is `ord` was answered with an error (R135). -/
def State.logWerr (s : State) (g addr ord : Nat) : State := s.logUndo g 6 0 addr ord

/-- The voted fabric write of a cycle (R140, R142, R145): a once-write joins the release queue; in replay one with a WERR entry is not
issued; any other is issued at once, with its SRAM_OLD, TCM_OLD or WERR entry. -/
def State.voteWrite (s : State) (g : Fin 2) (o : LaneOut) : State :=
  let x := s.grp g
  let live := x.step == .live
  let addr := o.addr / 16 * 16 + (strobeRun o.strobes).1
  let data := strobeBytes o.strobes o.data
  if s.isOnce addr then s.queueWrite g ⟨o.addr / 16 * 16, o.data, o.check, o.strobes, o.beats, o.secure⟩
  else if !live && x.undo.any (fun e => e.typ == 6 && !e.used && e.value == x.writes) then
    let u := replaceFirst (fun e => e.typ == 6 && !e.used && e.value == x.writes) (fun e => { e with used := true }) x.undo
    ((s.putGrp g { x with undo := u }).countWrite g).answerErr
  else
    let t := targetOf addr
    let old := s.oldWord (if t = some (2 + g.val) then arrayAddr ((s.active g).headD 0) (addr / 4 * 4) else addr / 4 * 4)
    let s := ((s.answer 0).fabricWrite (.lane g 0) addr data).markAccess addr (.voted x.writes)
    let s := if s.resp.err then (if live then s.logWerr g addr x.writes else s)
      else if t = some 4 then s.logOld g 2 (addr / 4 * 4) old
      else if t = some (2 + g.val) then s.logOld g 1 (addr / 4 * 4) old
      else s
    s.countWrite g

/-- The boot ROM and the NOR flash window, which no fabric write changes (R135, R145). -/
def isRom (addr : Nat) : Bool := targetOf addr == some 0 || targetOf addr == some 5

/-- The aligned word that holds the first byte of what a read at the address answered (Table 4.3). -/
def alignedWord (addr data : Nat) : Nat := data * 2 ^ (8 * (addr % 4)) % 2 ^ 32

/-- The part of a request that its strobes name; without strobes its whole codewords. -/
def requestRange (o : LaneOut) : Nat × Nat :=
  let p := strobeRun o.strobes
  if p.2 = 0 then (o.addr / 16 * 16, 16 * o.beats) else (o.addr / 16 * 16 + p.1, p.2)

/-- A lane's request to read goes to the fabric; a prefetch of register space is refused (R9). -/
def State.issueRead (s : State) (a : Agent) (o : LaneOut) : State :=
  let r := requestRange o
  if o.prefetch && decide (0x40000000 ≤ r.1) && decide (r.1 < 0x41000000) then s.answerErr else s.fabricRead a r.1 r.2

/-- A read request leaves the group; its response comes to the agreement port (R99). In replay a read that was recorded takes its entry
instead, and one that differs has diverged (R145). `va` is the lane's own address. -/
def State.voteIssueRead (s : State) (g : Fin 2) (o : LaneOut) (va : Nat) : State :=
  let x := s.grp g
  let addr := (requestRange o).1
  if x.step == .replay && !isRom addr then
    match (s.replayLeft g 3).head? with
    | none => s
    | some e =>
      if e.addr / 4 ≠ addr / 4 then
        (s.captureMismatch g 2 (laneMask (s.active g)) 2 addr x.cycle).groupRestart g false
      else
        let s := s.consume g 3
        if bit e.aux 0 then (s.answerErr).groupTrap g (faultCause o.fetch false) va else s.answer e.value
  else
    let s := s.issueRead (.lane g 0) o
    s.setGrp g { s.grp g with port := some ⟨va, addr, s.resp.data, s.resp.err, s.resp.fault, o.fetch⟩ }

/-- A retired instruction of a VOTED group: its registers, the counts, the end of an idle window (R148); in replay the LINE entries
that it reaches (R145); a write of QCKPT.REQ (R133), or a commit that has become due, at its boundary (R130). -/
def State.retire (s : State) (g : Fin 2) (wr : List (Nat × Nat)) : State :=
  let s := (s.hartWrites (4 * g.val) wr).laneTick (4 * g.val) 0 true
  let x := s.grp g
  let s := s.setGrp g { x with insns := x.insns + 1, window := false, tail := [] }
  let s := if x.step = .replay then s.applyLines g else s
  if wr.any (fun p => p.1 == 0x7C1 && bit p.2 0) && s.canCommit g then s.commitGroup g 3 else s.earlyCommit g

/-- The voted outputs of a cycle take effect, and its instruction retires or takes an access fault: its own (`fault`), or that of a
write answered with an error. -/
def State.voteOut (s : State) (g : Fin 2) (o : LaneOut) (va : Nat) (fault : Option (Nat × Nat)) (retired : Option (List (Nat × Nat))) :
    State :=
  let s := s.tcmWrite g o
  let writes := o.valid && o.write && (strobeRun o.strobes).2 != 0
  let s := if writes then s.voteWrite g o else if o.valid && !o.write then s.voteIssueRead g o va else s
  match fault with
  | some f => s.groupTrap g f.1 f.2
  | none =>
    if writes && s.resp.err && !s.isOnce (requestRange o).1 then s.groupTrap g 7 va
    else match retired with
    | some wr => if s.awake then s.retire g wr else s
    | none => s

/-- A lane of a SPLIT group issues its own requests, at once, and takes what they answer itself (R118, Table 3.8). -/
def State.splitOut (s : State) (g : Fin 2) (n : Fin 3) (o : LaneOut) (retired : Option (List (Nat × Nat))) (cycles : Nat) : State :=
  let h := 4 * g.val + n.val
  if !s.hartRuns h || bit s.haltedHarts h then s
  else
    let s := s.laneTick h cycles false
    match windowAddr (s.hartReg h 0x7C0) o.addr with
    | none => if o.valid then s.laneTrap h (faultCause o.fetch o.write) o.addr else s
    | some pa =>
      let va := o.addr
      let o := { o with addr := pa }
      let q := strobeRun o.tcmStrobes
      let s := if o.tcmValid && q.2 != 0 then
          (let addr := viewBase g + o.tcmAddr % 0x80000 / 16 * 16 + q.1
           (s.writeMem (arrayAddr (splitOwner addr) addr) (0x12 + g.val) (strobeBytes o.tcmStrobes o.tcmData)).2)
        else s
      let own := viewBase g + (o.own.getD 0) % 0x80000
      let syn := s.synOf (arrayAddr (splitOwner own) own / 16)
      let s := if o.own.isSome then s.codeReport own g.val syn else s
      let s := if !o.valid then s
        else if o.write then (if (strobeRun o.strobes).2 = 0 then s.answer 0
          else (s.answer 0).fabricWrite (.lane g n) (requestRange o).1 (strobeBytes o.strobes o.data))
        else s.issueRead (.lane g n) o
      if o.own.isSome && classify syn == .uncorrectable then s.laneTrap h (faultCause o.fetch false) own
      else if o.valid && s.resp.err then s.laneTrap h (faultCause o.fetch o.write) va
      else match retired with
      | some wr => (s.hartWrites h wr).laneTick h 0 true
      | none => s

/-- I0 serves the lanes of a SPLIT group round-robin, from behind the one it served last (R118). -/
def State.splitCycle (s : State) (g : Fin 2) (l : Fin 3 → LaneOut) (retired : Option (List (Nat × Nat))) (cycles : Nat) : State :=
  let order : List (Fin 3) := [1, 2, 3].map (fun i => Fin.ofNat 3 ((s.grp g).turn + i))
  let s := order.foldl (fun s n => s.splitOut g n (l n) retired cycles) s
  match (order.filter (fun n => (l n).valid)).getLast? with
  | some n => s.setGrp g { s.grp g with turn := n }
  | none => s

/-- A VOTED cycle: Table 3.2 decides what is issued. DESIGN CHOICE: in a duplex or triple mismatch whose lane 0 is not ACTIVE the
capture shows the address of the lowest-numbered ACTIVE lane. -/
def State.voteCycle (s : State) (g : Fin 2) (l : List (Nat × LaneOut)) (retired : Option (List (Nat × Nat))) : State :=
  let outs := l.map (fun p => (p.1, s.laneOut g p.1 p.2))
  let first := (outs.map Prod.snd).headD idleOut
  let cyc := (s.grp g).cycle
  let raw (out : Nat) : Nat × LaneOut := (l.filter (fun p => p.1 != out)).headD (0, idleOut)
  let issue (t : State) (out : Nat) (o : LaneOut) : State :=
    t.voteOut g o (raw out).2.addr (s.laneFault g (raw out).1 (raw out).2) retired
  let s := l.foldl (fun (s : State) p => s.ownRead g p.1 p.2) s
  match voteOf outs with
  | .agree o => issue s 3 o
  | .single k o f => issue ((s.captureMismatch g 1 (2 ^ k) f (mmAddr f o) cyc).maskLane g k) k o
  | .duplex f => (s.captureMismatch g 2 (laneMask (l.map Prod.fst)) f (mmAddr f first) cyc).groupRestart g false
  | .triple f => (s.captureMismatch g 3 (laneMask (l.map Prod.fst)) f (mmAddr f first) cyc).groupRestart g true

/-- LANE_GROUP_STEP (R92 to R94, R118). -/
def execLaneGroupStep (g : Fin 2) (a b c : LaneOut) (retired : Option (List (Nat × Nat))) (cycles : Nat) (s : State) : Out :=
  laneCmd g s (fun s =>
    if s.isSplit g then s.splitCycle g (fun n => if n = 0 then a else if n = 1 then b else c) retired cycles
    else if !s.groupSteps g then s
    else
      let s := (s.laneTick (4 * g.val) cycles false).setGrp g { s.grp g with cycle := (s.grp g).cycle + cycles }
      s.voteCycle g ([(0, a), (1, b), (2, c)].filter (fun p => s.lane g p.1 == 0)) retired)

/-! ### Agreement port (R98 to R103) -/

/-- What the port delivers of a level that now stands at `now` (R101): the lanes `late` capture what it delivered `before`; what all or
most ACTIVE lanes captured, else what it delivered before. -/
def State.level (s : State) (g : Nat) (late : Nat) (now before : Bool) : Bool × State :=
  let l := s.active g
  let n := (l.filter (fun k => if bit late k then before else now)).length
  if n = l.length then (true, s)
  else if n = 0 then (false, s)
  else (if 2 * n = l.length then before else decide (l.length < 2 * n), s.count (VOTE_AGREE_SKEW g))

/-- A change of a delivered level is recorded for replay (R135). -/
def State.lineEntry (s : State) (g : Nat) : State :=
  let x := s.grp g
  s.logUndo g 5 (b2n x.line + 2 * b2n x.halt) 0 x.insns

/-- The agreed interrupt line is delivered as mip.MEIP; asserted, it ends a WFI. -/
def State.deliverLine (s : State) (g : Nat) (v : Bool) : State :=
  let x := s.grp g
  if v = x.line then s
  else (s.setGrp g { x with line := v, window := x.window && !v }).lineEntry g

/-- A read response is delivered (R99, R104): recorded unless it comes from the boot ROM or the NOR flash (R135); an error response or
an uncorrectable codeword is an access fault in every lane (R26). -/
def State.deliverRead (s : State) (g : Fin 2) (p : PortRead) : State :=
  let s := s.setGrp g { s.grp g with port := none }
  let bad := p.err || p.fault
  let s := if bad then s.answerErr else s.answer p.data
  let s := if isRom p.addr then s
    else s.logInput g 3 (b2n bad + 2 * b2n p.fetch) p.addr (if bad then 0 else alignedWord p.addr p.data)
  if bad then s.groupTrap g (faultCause p.fetch false) p.lane else s

/-- A held value reaches the port with captures that fail in the lanes `bad` (R100): `none` where nothing is delivered. -/
def State.held (s : State) (g : Fin 2) (bad src : Nat) (deliver : State → State) : State :=
  let l := s.active g
  let b := l.filter (fun k => bit bad k)
  match b with
  | [] => deliver s
  | k :: rest =>
    if rest = [] ∧ l.length = 3 then
      let s := (s.count (heldFld g k)).raise (17 + 4 * g.val)
      let s := if s.on (VOTE_AGREE_INFO_VALID g) then s
        else s.setAll [(VOTE_AGREE_INFO_VALID g, 1), (VOTE_AGREE_INFO_LANE g, 2 ^ k), (VOTE_AGREE_INFO_SOURCE g, src)]
      deliver s
    else
      (s.captureMismatch g (l.length) (laneMask l) 0 0 (s.grp g).cycle).groupRestart g (decide (l.length = 3))

/-- A response at the port is delivered while the group executes; in replay only a read of the boot ROM or the NOR flash has one. In
PAUSE it stays at the port (R113). -/
def State.arriveRead (s : State) (g : Fin 2) (bad : Nat) : State :=
  match (s.grp g).port with
  | some p => if s.groupSteps g then s.held g bad 1 (fun s => s.deliverRead g p) else s
  | none => s

/-- The debug halt request passes the port (R105): a slot in which the captures differ counts, and all lanes enter debug mode together. -/
def State.arriveHalt (s : State) (g : Fin 2) (late : Nat) : State :=
  if !s.groupLive g || !bit s.dbg.asks g.val then s
  else
    let d := s.level g late true (s.grp g).halt
    if d.1 && d.2.canCommit g then (d.2.setGrp g { d.2.grp g with halt := true }).enterDebug g else d.2

/-- AGREEMENT_ARRIVAL (R98 to R105). In RESTART the live line is ignored, HALTED delivers nothing (R111, R145). -/
def execAgreementArrival (g : Fin 2) (x : Arrival) (s : State) : Out :=
  if !s.groupRuns g then .next s
  else
    let s := s.groupStart g
    match x with
    | .line late =>
      let s := s.laneWork
      done (if !s.groupLive g then s
        else
          let d := s.level g late.val (s.irqLine g) (s.grp g).line
          d.2.deliverLine g d.1).laneWork
    | .halt late => done (s.arriveHalt g late.val).laneWork
    | .read bad => done ((s.laneWork).arriveRead g bad.val).laneWork

/-- The sample that time, timeh and QZEPOCH read until the next read of time (R103). -/
def State.timeSample (s : State) (h zone epoch : Nat) : State :=
  ((s.setHartReg h 0xC01 (zone % 2 ^ 32)).setHartReg h 0xC81 (zone / 2 ^ 32 % 2 ^ 32)).setHartReg h 0xCC0 (epoch % 2 ^ 16)

/-- LANE_TIME_READ (R103, R145, Table 3.8). -/
def execLaneTimeRead (g : Fin 2) (n : Fin 3) (bad : Fin 8) (s : State) : Out :=
  laneCmd g s (fun s =>
    if s.isSplit g then
      (if s.hartRuns (4 * g.val + n.val) then s.timeSample (4 * g.val + n.val) s.zone s.epoch else s)
    else if !s.groupSteps g then s
    else if (s.grp g).step = .replay then
      match (s.replayLeft g 4).head? with
      | none => s
      | some e => (s.consume g 4).timeSample (4 * g.val) e.value e.aux
    else s.held g bad.val 2 (fun s => (s.timeSample (4 * g.val) s.zone s.epoch).logInput g 4 s.epoch 0 s.zone))

/-! ### Commit commands -/

/-- CHECKPOINT_COMMIT (R128). -/
def execCheckpointCommit (g : Fin 2) (s : State) : Out :=
  laneCmd g s (fun s =>
    if !s.canCommit g then s
    else
      let x := s.grp g
      s.commitGroup g (if 1792 ≤ x.undo.length then 1 else if 56 ≤ x.relq.length then 2 else 0))

/-- QCKPT_REQ (R133): without effect in SPLIT mode. -/
def execQckptReq (g : Fin 2) (s : State) : Out := laneCmd g s (fun s => if s.canCommit g then s.commitGroup g 3 else s)

/-- WINDOW_ACCESS_COMPLETE: the oldest open read or non-posted write of which every part has its response leaves the bridge and
answers its initiator (R233, R234); a DMA channel and DBG take the responses to their accesses themselves. A failed write of a
VOTED group is a WERR entry and a store access fault, a failed released write goes to the IST. -/
def execWindowAccessComplete (d : Fin 5) (s : State) : Out :=
  whenLive .brg s (fun s =>
    match s.answeredAcc d with
    | none => s
    | some x =>
      let s := (s.dropAcc d x.tag).accAnswer x
      match x.mark, x.agent with
      | .voted ord, .lane g _ =>
        if x.failed && s.groupLive g then ((s.logWerr g x.addr ord).groupTrap g 7 x.addr).laneWork else s
      | .released, .lane g _ => if x.failed then s.relqError g x.addr else s
      | _, _ => s)

/-- RELEASED_WRITE_ERROR (R143). -/
def execReleasedWriteError (g : Fin 2) (addr : Nat) (s : State) : Out :=
  whenAwake s (fun s => if s.isSplit g then s else s.relqError g addr)

/-! ### Idle windows and lane tests (R148, R149) -/

/-- IDLE_WINDOW_BEGIN (R148): no interrupt is deliverable to the group. -/
def execIdleWindowBegin (g : Fin 2) (s : State) : Out :=
  laneCmd g s (fun s => if s.canCommit g && !s.irqLine g then s.setGrp g { s.grp g with window := true } else s)

/-- LANE_TEST_DUE (R149, R151). -/
def execLaneTestDue (g : Fin 2) (s : State) : Out := whenAwake s (fun s => (if s.istGroup g then s.setDue g true else s).laneWork)

/-- LANE_TEST_COMPLETE (R149): the rotation advances; a lane that passed waits for its rejoin, one that failed is FAILED. -/
def execLaneTestComplete (pass : Bool) (sig : Fin 65536) (s : State) : Out :=
  whenAwake s (fun s =>
    let item := s.get IST_STAT_ITEM
    if !(decide (item = 1 ∨ item = 2) && s.ist.memBist) then s
    else
      let g := item - 1
      let k := s.get IST_STAT_UNIT
      let s := (s.setLane g k (if pass then 1 else 4)).set (nextFld g) ((k + 1) % 3)
      let s := s.setGrp g { s.grp g with late := putBit (s.grp g).late k false }
      (({ s with ist := { s.ist with memBist := false } }).istEnd (if pass then 1 else 2) sig.val).laneWork)

/-- IST_TEST_NOW (Table 4.10). -/
def execIstTestNow (a : Agent) (s : State) : Out := regCommand a IST_CTL_TEST_NOW.addr s (fun s => s.istNow.laneWork)

/-! ### Debug halt, resume, step (R497, R498) -/

/-- DM_HALT_REQUEST. -/
def execDmHaltRequest (h : Fin 12) (s : State) : Out := whenAwake s (fun s => (s.dmHalt h.val).laneWork)

/-- DM_RESUME. -/
def execDmResume (h : Fin 12) (s : State) : Out := whenAwake s (fun s => (s.dmResume h.val).laneWork)

/-- DM_STEP: one instruction of a halted hart, with the registers it writes; a VOTED group commits after it. -/
def execDmStep (x : HartStep) (s : State) : Out :=
  whenAwake s (fun s =>
    let h := x.h
    if !s.hartAvail h.val || !s.steer (s.hartWorld h.val) then s.cmdErr 4
    else if !bit s.haltedHarts h.val || (decide (h.val < 8) && s.fabStalls) then s
    else
      let s := (s.hartWrites h.val x.wr).resumeAck h.val
      if h.val < 8 then
        (let s := s.laneTick h.val 1 true
         let g : Fin 2 := Fin.ofNat 2 (h.val / 4)
         if s.isSplit g || !s.groupLive g then s else s.commitGroup g 0)
      else s)

end Sys2Proof.Machine
end

