-- ==== Sys2Proof/Machine/Fabric.lean ====
section
/-! DEFINITION. The fabric: register writes, transfers with their arbitration, header parity and word code, target timeouts, scrubbing
(R5, R9, R20 to R36). -/

namespace Sys2Proof.Machine

/-- The release queue that a write waits in (R124, R140): that of the VOTED group whose lanes write to a once target. -/
def State.queueOf (s : State) (a : Agent) (addr : Nat) : Option (Fin 2) :=
  match a with
  | .lane g _ => if !s.isSplit g && s.isOnce addr && addr % 4 == 0 then some g else none
  | _ => none

/-- The release queue entry of a 4-byte write. -/
def regEntry (addr : Nat) (v : Word) : RelqEnt :=
  let d := carried addr (leBytes 4 v.toNat) (addr / 16)
  ⟨addr / 16 * 16, leNat d, checkP d + 256 * checkQ d, 15 * 2 ^ (addr % 16), 1, true⟩

/-- REG_WRITE (R4, R5): a 32-bit write; a lane group then takes up what the write asked of it. One of a VOTED group to a once target
reaches it at the group's next commit (R124). -/
def execRegWrite (a : Agent) (addr : Nat) (v : Word) (s : State) : Out :=
  whenAwake s (fun s =>
    match s.queueOf a addr with
    | some g => ((s.answer 0).queueWrite g (regEntry addr v)).laneWork
    | none => (s.fabricWrite a addr (leBytes 4 v.toNat)).laneWork)

/-! ### Codewords on their way (R22, R24 to R28) -/

/-- A write reaches memory with flipped bits: whole codewords are stored as they arrive, parts are merged as they arrive (R28). -/
def State.storeFlipped (s : State) (a : Agent) (addr : Nat) (data : List Byte) (flips : List Flip) : State :=
  let ws := (wordsOf addr data.length).zipIdx
  let raw := carve addr data.length (ws.map (fun p => flipBytes flips p.2 (carried addr data p.1)))
  let r := s.busWrite a addr raw
  if r.1 ≠ .ok [] then r.2.answerErr
  else
    let arrays := r.2.arraysOf addr
    let mark (s : State) (p : Nat × Nat) : State :=
      if coversWord addr data.length p.1 then arrays.foldl (fun (s : State) k => s.setSyn (arrayAddr k (16 * p.1) / 16) (flipsOn flips p.2)) s
      else s
    (ws.foldl mark r.2).answer 0

/-- The 4-byte parts of a transfer that lie in a codeword which arrives uncorrectable. -/
def badParts (addr len : Nat) (flips : List Flip) : List Nat :=
  (List.range (len / 4)).filter (fun i =>
    classify (flipsOn flips ((addr + 4 * i) / 16 - addr / 16)) == CodeClass.uncorrectable)

/-- A write with flipped bits: memory stores it; a register target is its consumer and discards what is uncorrectable (R26); the stage
bridge reports what it finds as an intermediary and passes it on, and the far die, its consumer, discards what is uncorrectable (R25). -/
def State.writeFlipped (s : State) (a : Agent) (addr : Nat) (data : List Byte) (flips : List Flip) : State :=
  match targetOfRange addr data.length with
  | none => s.fabricWrite a addr data
  | some t =>
    if t < 7 then s.storeFlipped a addr data flips
    else if t = 9 then
      let c := (s.grants a 9 (wordsOf addr data.length).length).consumeAll 0x19 addr data (fun _ => 0) flips
      c.2.2.windowWrite a addr data.length (wordsIn c.2.1) (badParts addr data.length flips)
    else
      let c := s.consumeAll (0x10 + t) addr data (fun _ => 0) flips
      if c.1 then c.2.2.answerErr else c.2.2.fabricWrite a addr c.2.1

/-- A read whose response loses bits: the initiator is its consumer. The stored codeword's own wrong bits add to them. -/
def State.readFlipped (s : State) (a : Agent) (addr len : Nat) (flips : List Flip) : State :=
  match targetOfRange addr len with
  | none => s.fabricRead a addr len
  | some t =>
    if t < 7 then
      let s := s.grants a t (wordsOf addr len).length
      match s.memGate a false addr len with
      | some s' => s'.answerErr
      | none =>
        if (tcmGroup t).isSome && s.viewBad addr len then (s.checkView addr len (portOf a)).answerErr
        else
          let raw := (List.range len).map (fun i => s.readByte (s.viewWord ((addr + i) / 16 * 16) + (addr + i) % 16))
          let c := s.consumeAll (portOf a) addr raw (fun w => s.synOf (s.viewWord (16 * w) / 16)) flips
          if c.1 then c.2.2.answerUe else c.2.2.answer (leNat c.2.1)
    else if t = 9 then (s.grants a 9 (wordsOf addr len).length).windowRead a addr len flips
    else
      let s := s.fabricRead a addr len
      if s.resp.err then s
      else
        let c := s.consumeAll (portOf a) addr (leBytes len s.resp.data) (fun _ => 0) flips
        if c.1 then c.2.2.answerUe else c.2.2.answer (leNat c.2.1)

/-- A transfer of one to four codeword beats (R32). -/
def transferOk (t : Transfer) : Bool :=
  decide (1 ≤ t.len) && decide ((wordsOf t.addr t.len).length ≤ 4) && (!t.write || t.data.length == t.len)

/-- A granted transfer is served. -/
def State.serve (s : State) (t : Transfer) : State :=
  if t.write then (if t.flips = [] then s.fabricWrite t.agent t.addr t.data else s.writeFlipped t.agent t.addr t.data t.flips)
  else if t.flips = [] then s.fabricRead t.agent t.addr t.len
  else s.readFlipped t.agent t.addr t.len t.flips

/-- FABRIC_TRANSFER: a header with a parity error is refused (R33), so is a prefetch of register space (R9); an unassigned address is
refused (R34); a transfer that the arbitration does not grant waits (R32); else it is served. -/
def execFabricTransfer (t : Transfer) (s : State) : Out :=
  if !s.awake || !transferOk t || s.fabStalls || s.islandStalls (islandOf t.agent) then .next s
  else if !t.parityOk then done (s.answerErr.fabError t.agent t.addr 2 ((targetOf t.addr).getD 15))
  else if t.prefetch && !t.write && decide (0x40000000 ≤ t.addr) && decide (t.addr < 0x41000000) then done s.answerErr
  else match targetOfRange t.addr t.len with
    | none => done (s.answerErr.fabError t.agent t.addr 1 15)
    | some port =>
      let me := portOf t.agent
      if (s.arbOf port).grant (me :: t.waiting) = some me then done (s.serve t).laneWork else .next s

/-- TARGET_TIMEOUT (R34). -/
def execTargetTimeout (a : Agent) (addr : Nat) (write : Bool) (s : State) : Out :=
  whenAwake s (fun s =>
    match targetOf addr with
    | none => s
    | some t =>
      let s := s.answerErr.fabError a addr 3 t
      match a with
      | .lane g _ => if write && !s.isSplit g && s.isOnce addr then s.relqError g addr else s
      | _ => s)

/-! ### Scrubbing (R29) -/

/-- The first and the last but one address of a memory, its target port, and whether it has an array for each lane. -/
def storeRange : Store → Nat × Nat × Nat × Bool
  | .mram => (0x10000000, 0x11000000, 0x11, false)
  | .tcm0 => (0x20000000, 0x20080000, 0x12, true)
  | .tcm1 => (0x20100000, 0x20180000, 0x13, true)
  | .sram => (0x21000000, 0x21400000, 0x14, false)
  | .dram => (0x100000000, 0x1E0000000, 0x16, false)

/-- The codewords of a memory, as ranges of their numbers, with the offset of the array from the address that is reported. -/
def storeWords (st : Store) : List (Nat × Nat × Nat) :=
  let r := (storeRange st)
  (if r.2.2.2 then [0, 1, 2] else [0]).map (fun k => (arrayAddr k r.1 / 16, arrayAddr k r.2.1 / 16, k * 2 ^ 40))

/-- The memory can be scrubbed: DRAM once it is ready and out of self-refresh. -/
def State.scrubs (s : State) (st : Store) : Bool :=
  st != .dram || (s.on PWR_STAT_DRAM_RDY && (s.get PWR_STATE_CUR == 1))

/-- SCRUB_PASS: bits that have flipped since the last pass; then each codeword that is not clean is reported, and written back
corrected where it can be. -/
def execScrubPass (st : Store) (flips : List Flip) (s : State) : Out :=
  whenAwake s (fun s =>
    let ws := storeWords st
    let s := flips.foldl (fun (s : State) f =>
      if ws.any (fun r => decide (r.1 ≤ f.1) && decide (f.1 < r.2.1)) && decide (f.2 < 144) then s.flipStored f.1 f.2 else s) s
    if !s.scrubs st then s
    else ws.foldl (fun (s : State) r =>
      ((keepRange s.syn r.1 r.2.1).map Prod.fst).foldl (fun (s : State) w =>
        (s.codeReport (16 * w - r.2.2) (storeRange st).2.2.1 (s.synOf w)).correctStored w) s) s)

end Sys2Proof.Machine
end

