-- ==== Sys2Proof/Machine/Service.lean ====
section
/-! DEFINITION. The debug access port's responses, the TAP and the service UART (Worlds and Debug, R499, R504, R505). -/

namespace Sys2Proof.Machine

/-! ### DBG_ACC (R499) -/

/-- The debug access ends: RESULT, and for a read that went well DATA. -/
def State.accEnd (s : State) (ok : Bool) (data : Option Nat) : State :=
  let s := (s.setDbg { s.dbg with acc := none }).setAll [(DBG_ACC_STAT_BUSY, 0), (DBG_ACC_STAT_RESULT, if ok then 1 else 2)]
  match data with
  | some v => if ok then s.set DBG_ACC_DATA v else s
  | none => s

/-- A debug read: from memory as a consumer (R26), from a register, or from a far register, for whose response it waits. -/
def State.accRead (s : State) (x : DbgAcc) : State :=
  let a := Agent.dbg x.world
  match x.wait with
  | some (d, tag) =>
    match (s.lk d).accs.find? (fun y => y.tag == tag) with
    | none => s.accEnd false none
    | some y =>
      if y.got.length < y.data.length then s
      else
        let s := s.dropAcc d tag
        if y.failed then (s.count BRG_NP_ERR).accEnd false none else s.accEnd true (some (joinWords y.got))
  | none =>
    if inT0to6 x.addr 4 then
      (let r := s.busRead a x.addr 4
       match r.1 with
       | .ok d => r.2.accEnd true (some (leNat d))
       | _ => r.2.accEnd false none)
    else
      let t := (s.answer 0).fabricRead a x.addr 4
      match t.resp.err, dieOf x.addr with
      | true, _ => t.accEnd false none
      | false, some d => t.setDbg { t.dbg with acc := some { x with wait := (t.lk d).accs.getLast?.map (fun y => (d, y.tag)) } }
      | false, none => t.accEnd true (some t.resp.data)

/-- DBG_ACC_COMPLETE: while the fabric stalls the access waits. -/
def execDbgAccComplete (s : State) : Out :=
  whenAwake s (fun s =>
    match s.dbg.acc with
    | none => s
    | some x =>
      if s.fabStalls || (x.write && s.windowFull (.dbg x.world) x.addr 1) then s
      else if x.write then
        let t := (s.answer 0).fabricWrite (.dbg x.world) x.addr (leBytes 4 x.data)
        (t.accEnd (!t.resp.err) none).laneWork
      else s.accRead x)

/-! ### The DBG page from outside (R504, R505) -/

/-- The DBG registers that can be read while no enable is active. -/
def openRead (off : Nat) : Bool :=
  off == 0 || off == 4 || (decide (0x10 ≤ off) && decide (off ≤ 0x2C))

/-- What a service write may carry: all of it under an enable, else the token buffer registers, and CHALLENGE and SUBMIT. -/
def State.serviceMask (s : State) (off v : Nat) : Option Nat :=
  if s.reaches ≠ 0 then some v
  else if off = 0x28 ∨ off = 0x2C then some v
  else if off = 0xC ∧ v % 4 ≠ 0 then some (v % 4)
  else none

/-- A service read of a DBG register. -/
def State.serviceRead (s : State) (off : Nat) : Nat × State :=
  if s.reaches = 0 ∧ openRead off = false then (0, s)
  else
    let t := s.regRead32 (.dbg .secure) (0x40100000 + off)
    (t.resp.data, t)

/-- A service write to a DBG register; answers whether it was allowed. -/
def State.serviceWrite (s : State) (off v : Nat) : Bool × State :=
  match s.serviceMask off v with
  | none => (false, s)
  | some v => (true, (s.regWrite32 (.dbg .secure) (0x40100000 + off) (BitVec.ofNat 32 v)).laneWork)

/-! ### TAP (R504) -/

/-- What the cells of the boundary register capture: contact levels, free values of the outside world; the returns, supplies and
reference of X4 and X7 capture 0. -/
def State.boundary (s : State) : Nat × State :=
  let d := s.draw 78
  (clearBits d.1 (0xF * 2 ^ 64 + 7 * 2 ^ 75), d.2)

/-- The instruction in force: EXTEST is accepted in RAW and SERVICE only; every code without an instruction is BYPASS. -/
def State.tapIr (s : State) (ir : Nat) : Nat :=
  if ir = 0 then (if s.lifecycle = 0 ∨ s.lifecycle = 3 then 0 else 0x1F)
  else if ir = 1 ∨ ir = 2 ∨ ir = 0x10 then ir
  else 0x1F

/-- The TAP and the UART answer: from the boot ROM's hold state onward (R540). -/
def State.portAnswers (s : State) : Bool := s.awake && s.pwr.phase != .bootRom

/-- TAP_INSTRUCTION: the instruction is loaded and its data register scanned once: what it captured leaves, `dr` enters and is
applied. -/
def execTapInstruction (ir : Fin 32) (dr : Nat) (s : State) : Out :=
  if !s.portAnswers then .next s
  else done (
    let i := s.tapIr ir.val
    let s := s.setDbg { s.dbg with ir := i }
    if i = 1 then s.setDbg { s.dbg with tdo := 0xA72400A3 }
    else if i = 0 ∨ i = 2 then
      let c := s.boundary
      c.2.setDbg { c.2.dbg with tdo := c.1, bsr := dr % 2 ^ 78 }
    else if i = 0x10 then
      let d := s.draw 11
      let s := d.2.setDbg { d.2.dbg with tdo := d.2.dbg.tapRead + 2 ^ 32 * d.1 }
      let off := 4 * bits dr 32 10
      if bit dr 42 then (s.serviceWrite off (dr % 2 ^ 32)).2
      else
        let r := s.serviceRead off
        r.2.setDbg { r.2.dbg with tapRead := r.1 }
    else s.setDbg { s.dbg with tdo := 2 * dr })

/-! ### Service UART (R505) -/

/-- An answer of the service UART. -/
def uartAnswer (status data : Nat) : List Byte :=
  let body := BitVec.ofNat 8 status :: leBytes 4 data
  0x5A :: body ++ [BitVec.ofNat 8 (crc8 0 body)]

/-- The UART has answered. -/
def State.uartSays (s : State) (status data : Nat) : State := s.setDbg { s.dbg with uart := uartAnswer status data }

/-- UART_REQUEST: nine bytes that begin with 0xA5. -/
def execUartRequest (req : List Byte) (s : State) : Out :=
  if !s.portAnswers then .next s
  else done (
    if req.length ≠ 9 ∨ fieldAt req 0 1 ≠ 0xA5 then s
    else if crc8 0 ((req.drop 1).take 7) ≠ fieldAt req 8 1 then s.uartSays 1 0
    else
      let op := fieldAt req 1 1
      let off := fieldAt req 2 2
      if 0x1000 ≤ off ∨ off % 4 ≠ 0 ∨ (op ≠ 1 ∧ op ≠ 2) then s.uartSays 2 0
      else if op = 1 then
        let r := s.serviceRead off
        r.2.uartSays 0 r.1
      else
        let w := s.serviceWrite off (fieldAt req 4 4)
        let d := w.2.draw 32
        if w.1 then d.2.uartSays 0 d.1 else w.2.uartSays 2 0)

end Sys2Proof.Machine
end

