-- ==== Sys2Proof/Machine/Dispatch.lean ====
section
/-! DEFINITION. The meaning of each command: one arm per row of spec/opcode_table.json. -/

namespace Sys2Proof.Machine

def exec (i : Instr) (s : State) : Host.Outcome State Fault Refusal :=
  match i with
  | .regWrite a addr v => Sys2Proof.Machine.execRegWrite a addr v s
  | .counterLoRead a addr wide => Sys2Proof.Machine.execCounterLoRead a addr wide s
  | .fabricTransfer t => Sys2Proof.Machine.execFabricTransfer t s
  | .targetTimeout a addr write => Sys2Proof.Machine.execTargetTimeout a addr write s
  | .scrubPass st flips => Sys2Proof.Machine.execScrubPass st flips s
  | .evcSetWrite a k v => Sys2Proof.Machine.execEvcSetWrite a k v s
  | .evcAck a k v => Sys2Proof.Machine.execEvcAck a k v s
  | .wceRearm a => Sys2Proof.Machine.execWceRearm a s
  | .wceClrCnt a => Sys2Proof.Machine.execWceClrCnt a s
  | .fabRearm a => Sys2Proof.Machine.execFabRearm a s
  | .mirrorWriteLand => Sys2Proof.Machine.execMirrorWriteLand s
  | .vbatSample v => Sys2Proof.Machine.execVbatSample v s
  | .powerOnRelease => Sys2Proof.Machine.execPowerOnRelease s
  | .powerOnReset => Sys2Proof.Machine.execPowerOnReset s
  | .ethPhyHold => Sys2Proof.Machine.execEthPhyHold s
  | .ethPhyRelease => Sys2Proof.Machine.execEthPhyRelease s
  | .pwrReqOpen a => Sys2Proof.Machine.execPwrReqOpen a s
  | .shadeExitComplete => Sys2Proof.Machine.execShadeExitComplete s
  | .pwrReqShade a => Sys2Proof.Machine.execPwrReqShade a s
  | .pwrReqDusk a => Sys2Proof.Machine.execPwrReqDusk a s
  | .pwrReqClosed a => Sys2Proof.Machine.execPwrReqClosed a s
  | .pwrReqInvalid a t => Sys2Proof.Machine.execPwrReqInvalid a t s
  | .appPark a v => Sys2Proof.Machine.execAppPark a v s
  | .parkTimeout => Sys2Proof.Machine.execParkTimeout s
  | .powerdownContinue cal => Sys2Proof.Machine.execPowerdownContinue cal s
  | .aonWakeSource src ticks => Sys2Proof.Machine.execAonWakeSource src ticks s
  | .dwellExpiry ticks => Sys2Proof.Machine.execDwellExpiry ticks s
  | .convertersInRegulation => Sys2Proof.Machine.execConvertersInRegulation s
  | .otpLoad zone => Sys2Proof.Machine.execOtpLoad zone s
  | .zeroFillComplete => Sys2Proof.Machine.execZeroFillComplete s
  | .bootRomStart sigA sigB => Sys2Proof.Machine.execBootRomStart sigA sigB s
  | .dramReady => Sys2Proof.Machine.execDramReady s
  | .pllUnlock idx => Sys2Proof.Machine.execPllUnlock idx s
  | .pllRelock idx => Sys2Proof.Machine.execPllRelock idx s
  | .controlDieTempChange t => Sys2Proof.Machine.execControlDieTempChange t s
  | .wdtKick a v => Sys2Proof.Machine.execWdtKick a v s
  | .wdtWarn => Sys2Proof.Machine.execWdtWarn s
  | .watchdogReset => Sys2Proof.Machine.execWatchdogReset s
  | .systemSwReset a v => Sys2Proof.Machine.execSystemSwReset a v s
  | .blockReset a v => Sys2Proof.Machine.execBlockReset a v s
  | .appCoreReset a v => Sys2Proof.Machine.execAppCoreReset a v s
  | .stageDieReset a v => Sys2Proof.Machine.execStageDieReset a v s
  | .clockGate a islands v => Sys2Proof.Machine.execClockGate a islands v s
  | .laneGroupStep g a b c retired cycles => Sys2Proof.Machine.execLaneGroupStep g a b c retired cycles s
  | .agreementArrival g x => Sys2Proof.Machine.execAgreementArrival g x s
  | .laneTimeRead g n bad => Sys2Proof.Machine.execLaneTimeRead g n bad s
  | .voteFail a g m => Sys2Proof.Machine.execVoteFail a g m s
  | .voteRelease a g m => Sys2Proof.Machine.execVoteRelease a g m s
  | .voteRejoinNow a g => Sys2Proof.Machine.execVoteRejoinNow a g s
  | .voteRearm a g => Sys2Proof.Machine.execVoteRearm a g s
  | .voteAgreeRearm a g => Sys2Proof.Machine.execVoteAgreeRearm a g s
  | .voteClrCnt a g => Sys2Proof.Machine.execVoteClrCnt a g s
  | .rejoinMaxwaitExpiry g n => Sys2Proof.Machine.execRejoinMaxwaitExpiry g n s
  | .rejoinComplete g pause flips => Sys2Proof.Machine.execRejoinComplete g pause flips s
  | .splitRun a g v => Sys2Proof.Machine.execSplitRun a g v s
  | .splitIpiSet a g v => Sys2Proof.Machine.execSplitIpiSet a g v s
  | .checkpointCommit g => Sys2Proof.Machine.execCheckpointCommit g s
  | .qckptReq g => Sys2Proof.Machine.execQckptReq g s
  | .releasedWriteError g addr => Sys2Proof.Machine.execReleasedWriteError g addr s
  | .restartResetDone g => Sys2Proof.Machine.execRestartResetDone g s
  | .restartRestoreComplete g flips => Sys2Proof.Machine.execRestartRestoreComplete g flips s
  | .replayComplete g time => Sys2Proof.Machine.execReplayComplete g time s
  | .idleWindowBegin g => Sys2Proof.Machine.execIdleWindowBegin g s
  | .laneTestDue g => Sys2Proof.Machine.execLaneTestDue g s
  | .logicBistComplete => Sys2Proof.Machine.execLogicBistComplete s
  | .laneTestComplete pass sig => Sys2Proof.Machine.execLaneTestComplete pass sig s
  | .idleResourceTestStart => Sys2Proof.Machine.execIdleResourceTestStart s
  | .idleResourceTestComplete pass sig => Sys2Proof.Machine.execIdleResourceTestComplete pass sig s
  | .istOverdue g => Sys2Proof.Machine.execIstOverdue g s
  | .istTestNow a => Sys2Proof.Machine.execIstTestNow a s
  | .istRelqRearm a m => Sys2Proof.Machine.execIstRelqRearm a m s
  | .istClrCnt a => Sys2Proof.Machine.execIstClrCnt a s
  | .appTimeRead n => Sys2Proof.Machine.execAppTimeRead n s
  | .stimecmpFire n vs => Sys2Proof.Machine.execStimecmpFire n vs s
  | .sqDoorbell a r v => Sys2Proof.Machine.execSqDoorbell a r v s
  | .cqDoorbell a r v => Sys2Proof.Machine.execCqDoorbell a r v s
  | .ringEnable a r v => Sys2Proof.Machine.execRingEnable a r v s
  | .ringDisable a r v => Sys2Proof.Machine.execRingDisable a r v s
  | .descriptorFetched r => Sys2Proof.Machine.execDescriptorFetched r s
  | .descriptorComplete r => Sys2Proof.Machine.execDescriptorComplete r s
  | .dmaNop m n => Sys2Proof.Machine.execDmaNop m n s
  | .dmaCopy m n => Sys2Proof.Machine.execDmaCopy m n s
  | .dmaReadback m n => Sys2Proof.Machine.execDmaReadback m n s
  | .dmaAccessTimeout m n addr late landed => Sys2Proof.Machine.execDmaAccessTimeout m n addr late landed s
  | .dmaAbortComplete m n => Sys2Proof.Machine.execDmaAbortComplete m n s
  | .dmaRearm a m => Sys2Proof.Machine.execDmaRearm a m s
  | .dmaClrCnt a m => Sys2Proof.Machine.execDmaClrCnt a m s
  | .fifoEnable a n v => Sys2Proof.Machine.execFifoEnable a n v s
  | .fifoDisable a n v => Sys2Proof.Machine.execFifoDisable a n v s
  | .fifoPush a n v => Sys2Proof.Machine.execFifoPush a n v s
  | .fifoPushComplete n => Sys2Proof.Machine.execFifoPushComplete n s
  | .fifoPop a n v => Sys2Proof.Machine.execFifoPop a n v s
  | .fifoRearm a => Sys2Proof.Machine.execFifoRearm a s
  | .fifoClrCnt a => Sys2Proof.Machine.execFifoClrCnt a s
  | .brgLinkEnWrite a v => Sys2Proof.Machine.execBrgLinkEnWrite a v s
  | .brgHbEnWrite a v => Sys2Proof.Machine.execBrgHbEnWrite a v s
  | .brgRetrainWrite a v => Sys2Proof.Machine.execBrgRetrainWrite a v s
  | .linkTrainingComplete d => Sys2Proof.Machine.execLinkTrainingComplete d s
  | .stageFrameReceive d up flips x => Sys2Proof.Machine.execStageFrameReceive d up flips x s
  | .stageRetransmitTimeout d up => Sys2Proof.Machine.execStageRetransmitTimeout d up s
  | .windowRead a addr len => Sys2Proof.Machine.execWindowRead a addr len s
  | .windowNonpostedWrite a addr len data => Sys2Proof.Machine.execWindowNonpostedWrite a addr len data s
  | .windowPostedWrite a addr len data => Sys2Proof.Machine.execWindowPostedWrite a addr len data s
  | .windowAccessComplete d => Sys2Proof.Machine.execWindowAccessComplete d s
  | .pollSend => Sys2Proof.Machine.execPollSend s
  | .heartbeatSend => Sys2Proof.Machine.execHeartbeatSend s
  | .brgPerrPop a => Sys2Proof.Machine.execBrgPerrPop a s
  | .brgClrCnt a => Sys2Proof.Machine.execBrgClrCnt a s
  | .shadowWordWrite d off v => Sys2Proof.Machine.execShadowWordWrite d off v s
  | .shadowCommit d off v => Sys2Proof.Machine.execShadowCommit d off v s
  | .heartbeatReceive d count => Sys2Proof.Machine.execHeartbeatReceive d count s
  | .supervisionHoldEnter d => Sys2Proof.Machine.execSupervisionHoldEnter d s
  | .fallbackApply d => Sys2Proof.Machine.execFallbackApply d s
  | .holdMsWrite d v => Sys2Proof.Machine.execHoldMsWrite d v s
  | .chCmdWrite d v => Sys2Proof.Machine.execChCmdWrite d v s
  | .chClearWrite d v => Sys2Proof.Machine.execChClearWrite d v s
  | .brCmdWrite d v => Sys2Proof.Machine.execBrCmdWrite d v s
  | .chLimWrite d v => Sys2Proof.Machine.execChLimWrite d v s
  | .infoClrCh d v => Sys2Proof.Machine.execInfoClrCh d v s
  | .infoClrDie d v => Sys2Proof.Machine.execInfoClrDie d v s
  | .diagLatchWrite d v => Sys2Proof.Machine.execDiagLatchWrite d v s
  | .channelDiagSample d l tdie vstage => Sys2Proof.Machine.execChannelDiagSample d l tdie vstage s
  | .controlLineChange line high => Sys2Proof.Machine.execControlLineChange line high s
  | .currentLimitEngage d x => Sys2Proof.Machine.execCurrentLimitEngage d x s
  | .limitTimeTrip d k => Sys2Proof.Machine.execLimitTimeTrip d k s
  | .junctionTrip d k => Sys2Proof.Machine.execJunctionTrip d k s
  | .channelRetry d k => Sys2Proof.Machine.execChannelRetry d k s
  | .retryCountClear d k => Sys2Proof.Machine.execRetryCountClear d k s
  | .inrushWindowEnd d k => Sys2Proof.Machine.execInrushWindowEnd d k s
  | .wireModelUpdate d => Sys2Proof.Machine.execWireModelUpdate d s
  | .undervoltageTurnOff d => Sys2Proof.Machine.execUndervoltageTurnOff d s
  | .uvRestartBegin d => Sys2Proof.Machine.execUvRestartBegin d s
  | .uvRestartSlot d => Sys2Proof.Machine.execUvRestartSlot d s
  | .dieDeratingEnter d => Sys2Proof.Machine.execDieDeratingEnter d s
  | .dieDeratingExit d => Sys2Proof.Machine.execDieDeratingExit d s
  | .deferredTurnOnSlot d => Sys2Proof.Machine.execDeferredTurnOnSlot d s
  | .dieOvertempShutdown d => Sys2Proof.Machine.execDieOvertempShutdown d s
  | .dieSensorFail d => Sys2Proof.Machine.execDieSensorFail d s
  | .currentSumUpdate d => Sys2Proof.Machine.execCurrentSumUpdate d s
  | .stageShed d => Sys2Proof.Machine.execStageShed d s
  | .offStatePhaseEnd d k above => Sys2Proof.Machine.execOffStatePhaseEnd d k above s
  | .bridgeBrakeEnd d p => Sys2Proof.Machine.execBridgeBrakeEnd d p s
  | .ltEnable a n v => Sys2Proof.Machine.execLtEnable a n v s
  | .ltDisable a n v => Sys2Proof.Machine.execLtDisable a n v s
  | .loadTimerWrap n => Sys2Proof.Machine.execLoadTimerWrap n s
  | .ltRunWrite a v => Sys2Proof.Machine.execLtRunWrite a v s
  | .lccNop => Sys2Proof.Machine.execLccNop s
  | .lccReq => Sys2Proof.Machine.execLccReq s
  | .lccBridge => Sys2Proof.Machine.execLccBridge s
  | .lccClear => Sys2Proof.Machine.execLccClear s
  | .lccLimit => Sys2Proof.Machine.execLccLimit s
  | .lccDiag => Sys2Proof.Machine.execLccDiag s
  | .lccClrinfo => Sys2Proof.Machine.execLccClrinfo s
  | .lccDescriptorComplete => Sys2Proof.Machine.execLccDescriptorComplete s
  | .lccSnapshotTrigger => Sys2Proof.Machine.execLccSnapshotTrigger s
  | .lccSnapshotComplete => Sys2Proof.Machine.execLccSnapshotComplete s
  | .lccLoadSum => Sys2Proof.Machine.execLccLoadSum s
  | .lccRearm a v => Sys2Proof.Machine.execLccRearm a v s
  | .ethFrameReceive p data fcsOk sec => Sys2Proof.Machine.execEthFrameReceive p data fcsOk sec s
  | .ethFrameTransmit p => Sys2Proof.Machine.execEthFrameTransmit p s
  | .ethFrameSent p => Sys2Proof.Machine.execEthFrameSent p s
  | .ethSend r => Sys2Proof.Machine.execEthSend r s
  | .ethRecv r => Sys2Proof.Machine.execEthRecv r s
  | .fdbAgeOut idx => Sys2Proof.Machine.execFdbAgeOut idx s
  | .portLinkChange p up sqi plca => Sys2Proof.Machine.execPortLinkChange p up sqi plca s
  | .qbvApply a p v => Sys2Proof.Machine.execQbvApply a p v s
  | .qbvScheduleChange p => Sys2Proof.Machine.execQbvScheduleChange p s
  | .qbvGateChange p => Sys2Proof.Machine.execQbvGateChange p s
  | .ethTblRead a table index => Sys2Proof.Machine.execEthTblRead a table index s
  | .ethTblWrite a table index => Sys2Proof.Machine.execEthTblWrite a table index s
  | .ethFdbSearch a => Sys2Proof.Machine.execEthFdbSearch a s
  | .frerRecoveryReset idx => Sys2Proof.Machine.execFrerRecoveryReset idx s
  | .ethRearm a => Sys2Proof.Machine.execEthRearm a s
  | .ethPortClrCnt a p => Sys2Proof.Machine.execEthPortClrCnt a p s
  | .followUpTimeout => Sys2Proof.Machine.execFollowUpTimeout s
  | .syncTimeout => Sys2Proof.Machine.execSyncTimeout s
  | .timeSet a => Sys2Proof.Machine.execTimeSet a s
  | .timeAdj a => Sys2Proof.Machine.execTimeAdj a s
  | .timeClrInt a => Sys2Proof.Machine.execTimeClrInt a s
  | .timeClrCnt a => Sys2Proof.Machine.execTimeClrCnt a s
  | .timeCtlWrite a v => Sys2Proof.Machine.execTimeCtlWrite a v s
  | .timeFreqWrite a v => Sys2Proof.Machine.execTimeFreqWrite a v s
  | .epochInitWrite a v => Sys2Proof.Machine.execEpochInitWrite a v s
  | .tcuEnable a u v => Sys2Proof.Machine.execTcuEnable a u v s
  | .tcuCmpHiWrite a u v => Sys2Proof.Machine.execTcuCmpHiWrite a u v s
  | .tcuPerWrite a u v => Sys2Proof.Machine.execTcuPerWrite a u v s
  | .tcuFire u => Sys2Proof.Machine.execTcuFire u s
  | .canTimeStrobe counts => Sys2Proof.Machine.execCanTimeStrobe counts s
  | .canEnable a c v => Sys2Proof.Machine.execCanEnable a c v s
  | .canDisable a c v => Sys2Proof.Machine.execCanDisable a c v s
  | .canRecover a c => Sys2Proof.Machine.execCanRecover a c s
  | .canRecoveryComplete c => Sys2Proof.Machine.execCanRecoveryComplete c s
  | .canRearm a c => Sys2Proof.Machine.execCanRearm a c s
  | .canClrCnt a c => Sys2Proof.Machine.execCanClrCnt a c s
  | .canFrameReceive c f stamp => Sys2Proof.Machine.execCanFrameReceive c f stamp s
  | .canArbitrationStart c stamp => Sys2Proof.Machine.execCanArbitrationStart c stamp s
  | .canArbitrationLost c => Sys2Proof.Machine.execCanArbitrationLost c s
  | .canTxError c kind dataPhase exempt tdcFail => Sys2Proof.Machine.execCanTxError c kind dataPhase exempt tdcFail s
  | .canTxComplete c tdcv => Sys2Proof.Machine.execCanTxComplete c tdcv s
  | .canDominantTimeout c => Sys2Proof.Machine.execCanDominantTimeout c s
  | .gwSlotLoad c => Sys2Proof.Machine.execGwSlotLoad c s
  | .cgwSend r => Sys2Proof.Machine.execCgwSend r s
  | .cgwCancel r => Sys2Proof.Machine.execCgwCancel r s
  | .cgwRecv r => Sys2Proof.Machine.execCgwRecv r s
  | .cgwFifoRecord j => Sys2Proof.Machine.execCgwFifoRecord j s
  | .cgwFifosrcEnable a j v => Sys2Proof.Machine.execCgwFifosrcEnable a j v s
  | .cgwEthFrameReceive => Sys2Proof.Machine.execCgwEthFrameReceive s
  | .cgwTblRead a table index => Sys2Proof.Machine.execCgwTblRead a table index s
  | .cgwTblWrite a table index => Sys2Proof.Machine.execCgwTblWrite a table index s
  | .cgwRearm a => Sys2Proof.Machine.execCgwRearm a s
  | .cgwClrCnt a => Sys2Proof.Machine.execCgwClrCnt a s
  | .nmwEnWrite a v => Sys2Proof.Machine.execNmwEnWrite a v s
  | .segManagedWrite a g v => Sys2Proof.Machine.execSegManagedWrite a g v s
  | .segHoldWrite a g v => Sys2Proof.Machine.execSegHoldWrite a g v s
  | .nmwWakeReq a v => Sys2Proof.Machine.execNmwWakeReq a v s
  | .segCurfewSet a g v => Sys2Proof.Machine.execSegCurfewSet a g v s
  | .lanternReceive => Sys2Proof.Machine.execLanternReceive s
  | .ownLanternSend g => Sys2Proof.Machine.execOwnLanternSend g s
  | .ownLanternLate g => Sys2Proof.Machine.execOwnLanternLate g s
  | .sourceNeedExpiry g idx => Sys2Proof.Machine.execSourceNeedExpiry g idx s
  | .segmentClose g => Sys2Proof.Machine.execSegmentClose g s
  | .segmentCommit g => Sys2Proof.Machine.execSegmentCommit g s
  | .segmentWakeDetect g routed => Sys2Proof.Machine.execSegmentWakeDetect g routed s
  | .segmentAwake g => Sys2Proof.Machine.execSegmentAwake g s
  | .wakingTimeout g => Sys2Proof.Machine.execWakingTimeout g s
  | .curfewExpiry g idx secs => Sys2Proof.Machine.execCurfewExpiry g idx secs s
  | .nmwRearm a => Sys2Proof.Machine.execNmwRearm a s
  | .nmwClrCnt a => Sys2Proof.Machine.execNmwClrCnt a s
  | .mdStrobe m => Sys2Proof.Machine.execMdStrobe m s
  | .mdIntervalTimeout m => Sys2Proof.Machine.execMdIntervalTimeout m s
  | .mdLatchWrite v => Sys2Proof.Machine.execMdLatchWrite v s
  | .mdIsoFault => Sys2Proof.Machine.execMdIsoFault s
  | .mbufRead => Sys2Proof.Machine.execMbufRead s
  | .senseSample mv => Sys2Proof.Machine.execSenseSample mv s
  | .directControlChange j closed => Sys2Proof.Machine.execDirectControlChange j closed s
  | .snsGo a strobe => Sys2Proof.Machine.execSnsGo a strobe s
  | .snsScanComplete codes => Sys2Proof.Machine.execSnsScanComplete codes s
  | .snsRearm a => Sys2Proof.Machine.execSnsRearm a s
  | .snsClrCnt a => Sys2Proof.Machine.execSnsClrCnt a s
  | .snsBufEnable a b v => Sys2Proof.Machine.execSnsBufEnable a b v s
  | .recLbPut a v => Sys2Proof.Machine.execRecLbPut a v s
  | .recRecordRequest => Sys2Proof.Machine.execRecRecordRequest s
  | .recRecordWrite ledger upTo => Sys2Proof.Machine.execRecRecordWrite ledger upTo s
  | .energyStatementDue => Sys2Proof.Machine.execEnergyStatementDue s
  | .recStmt a => Sys2Proof.Machine.execRecStmt a s
  | .energyStatementSigned sig upTo => Sys2Proof.Machine.execEnergyStatementSigned sig upTo s
  | .recClear a => Sys2Proof.Machine.execRecClear a s
  | .recClearVerified sigOk upTo => Sys2Proof.Machine.execRecClearVerified sigOk upTo s
  | .recSnap a => Sys2Proof.Machine.execRecSnap a s
  | .recRearm a => Sys2Proof.Machine.execRecRearm a s
  | .recClrCnt a => Sys2Proof.Machine.execRecClrCnt a s
  | .recStartupRecovery => Sys2Proof.Machine.execRecStartupRecovery s
  | .keyDeliver a c v => Sys2Proof.Machine.execKeyDeliver a c v s
  | .keyUpdate a c v => Sys2Proof.Machine.execKeyUpdate a c v s
  | .keyAttest a c v => Sys2Proof.Machine.execKeyAttest a c v s
  | .keyExtend a c v => Sys2Proof.Machine.execKeyExtend a c v s
  | .keyVerifyImage a c v => Sys2Proof.Machine.execKeyVerifyImage a c v s
  | .keyExportPub a c v => Sys2Proof.Machine.execKeyExportPub a c v s
  | .keyRevoke a c v => Sys2Proof.Machine.execKeyRevoke a c v s
  | .keyPersonalise a c v => Sys2Proof.Machine.execKeyPersonalise a c v s
  | .keyInvalidOp a c v => Sys2Proof.Machine.execKeyInvalidOp a c v s
  | .keyOperationStart => Sys2Proof.Machine.execKeyOperationStart s
  | .keyOperationComplete sigOk sig upTo => Sys2Proof.Machine.execKeyOperationComplete sigOk sig upTo s
  | .keySeal => Sys2Proof.Machine.execKeySeal s
  | .keyUnseal => Sys2Proof.Machine.execKeyUnseal s
  | .keyStartupRecovery => Sys2Proof.Machine.execKeyStartupRecovery s
  | .keyClrCnt a => Sys2Proof.Machine.execKeyClrCnt a s
  | .tamperMonitorFire m ticks => Sys2Proof.Machine.execTamperMonitorFire m ticks s
  | .cryNop r => Sys2Proof.Machine.execCryNop r s
  | .cryGcmEnc r => Sys2Proof.Machine.execCryGcmEnc r s
  | .cryGcmDec r => Sys2Proof.Machine.execCryGcmDec r s
  | .cryCmac r => Sys2Proof.Machine.execCryCmac r s
  | .crySha384 r => Sys2Proof.Machine.execCrySha384 r s
  | .cryRearm a => Sys2Proof.Machine.execCryRearm a s
  | .cryClrCnt a => Sys2Proof.Machine.execCryClrCnt a s
  | .vfCtlReset a f => Sys2Proof.Machine.execVfCtlReset a f s
  | .vfFwdAck a f v => Sys2Proof.Machine.execVfFwdAck a f v s
  | .vfmEnable a f => Sys2Proof.Machine.execVfmEnable a f s
  | .vfmDisable a f => Sys2Proof.Machine.execVfmDisable a f s
  | .vfmReset a f => Sys2Proof.Machine.execVfmReset a f s
  | .vfmFreeze a f => Sys2Proof.Machine.execVfmFreeze a f s
  | .vfmResume a f => Sys2Proof.Machine.execVfmResume a f s
  | .vfmSave a f => Sys2Proof.Machine.execVfmSave a f s
  | .vfmRestore a f => Sys2Proof.Machine.execVfmRestore a f s
  | .vfmInvalidOp a v => Sys2Proof.Machine.execVfmInvalidOp a v s
  | .vfmCommandComplete => Sys2Proof.Machine.execVfmCommandComplete s
  | .vfFreezeDrained f => Sys2Proof.Machine.execVfFreezeDrained f s
  | .vfDrainBoundExpiry f => Sys2Proof.Machine.execVfDrainBoundExpiry f s
  | .staleItemEnd f => Sys2Proof.Machine.execStaleItemEnd f s
  | .vfmWindowEnable a f w v => Sys2Proof.Machine.execVfmWindowEnable a f w v s
  | .vfmRearm a => Sys2Proof.Machine.execVfmRearm a s
  | .vfmClrCnt a => Sys2Proof.Machine.execVfmClrCnt a s
  | .wldHandover a v => Sys2Proof.Machine.execWldHandover a v s
  | .handoverDrainEnd forced => Sys2Proof.Machine.execHandoverDrainEnd forced s
  | .handoverComplete => Sys2Proof.Machine.execHandoverComplete s
  | .wldAppwWrite a v => Sys2Proof.Machine.execWldAppwWrite a v s
  | .wldRearm a => Sys2Proof.Machine.execWldRearm a s
  | .wldClrCnt a => Sys2Proof.Machine.execWldClrCnt a s
  | .dbgGrantWrite a v => Sys2Proof.Machine.execDbgGrantWrite a v s
  | .dbgChallenge a => Sys2Proof.Machine.execDbgChallenge a s
  | .dbgSubmit a => Sys2Proof.Machine.execDbgSubmit a s
  | .dbgTokenResult sigOk => Sys2Proof.Machine.execDbgTokenResult sigOk s
  | .dbgLock a => Sys2Proof.Machine.execDbgLock a s
  | .debugReset a => Sys2Proof.Machine.execDebugReset a s
  | .dbgTbufWrite a v => Sys2Proof.Machine.execDbgTbufWrite a v s
  | .dbgAccRead a => Sys2Proof.Machine.execDbgAccRead a s
  | .dbgAccWrite a => Sys2Proof.Machine.execDbgAccWrite a s
  | .dbgAccComplete => Sys2Proof.Machine.execDbgAccComplete s
  | .dbgTokenMinute => Sys2Proof.Machine.execDbgTokenMinute s
  | .dbgChallengeExpiry => Sys2Proof.Machine.execDbgChallengeExpiry s
  | .dmHaltRequest h => Sys2Proof.Machine.execDmHaltRequest h s
  | .dmResume h => Sys2Proof.Machine.execDmResume h s
  | .dmStep x => Sys2Proof.Machine.execDmStep x s
  | .dmAccessRegister h write regno v => Sys2Proof.Machine.execDmAccessRegister h write regno v s
  | .tapInstruction ir dr => Sys2Proof.Machine.execTapInstruction ir dr s
  | .uartRequest req => Sys2Proof.Machine.execUartRequest req s
  | .cohortBeaconSend => Sys2Proof.Machine.execCohortBeaconSend s
  | .cohortBeaconReceive m secured => Sys2Proof.Machine.execCohortBeaconReceive m secured s
  | .peerAbsentTimeout z => Sys2Proof.Machine.execPeerAbsentTimeout z s
  | .attestReq m secured => Sys2Proof.Machine.execAttestReq m secured s
  | .attestRsp m secured sigOk => Sys2Proof.Machine.execAttestRsp m secured sigOk s
  | .peerReverifyExpiry z => Sys2Proof.Machine.execPeerReverifyExpiry z s
  | .transferReassemblyTimeout z id => Sys2Proof.Machine.execTransferReassemblyTimeout z id s
  | .transferRetryTimeout z typ => Sys2Proof.Machine.execTransferRetryTimeout z typ s
  | .offer m secured => Sys2Proof.Machine.execOffer m secured s
  | .ack m secured => Sys2Proof.Machine.execAck m secured s
  | .commit m secured => Sys2Proof.Machine.execCommit m secured s
  | .abort m secured => Sys2Proof.Machine.execAbort m secured s
  | .done m secured => Sys2Proof.Machine.execDone m secured s
  | .query m secured => Sys2Proof.Machine.execQuery m secured s
  | .status m secured => Sys2Proof.Machine.execStatus m secured s
  | .migrationCommitWaitExpiry z mig => Sys2Proof.Machine.execMigrationCommitWaitExpiry z mig s
  | .migrationDoneWaitExpiry mig => Sys2Proof.Machine.execMigrationDoneWaitExpiry mig s
  | .timeTrustChange err => Sys2Proof.Machine.execTimeTrustChange err s
  | .canRxError c kind dataPhase eight => Sys2Proof.Machine.execCanRxError c kind dataPhase eight s
  | .canBusIntegration c => Sys2Proof.Machine.execCanBusIntegration c s
  | .mdIsoRestore => Sys2Proof.Machine.execMdIsoRestore s

end Sys2Proof.Machine
end

