-- ==== Sys2Proof/Safety.lean ====
section
/-! DEFINITION. What counts as a safe state: memory and the sparse tables in canonical form, and every level source whose condition
holds pending (R39); and what a command may leave changed besides the fields a statement names. -/

namespace Sys2Proof.Machine

/-- Memory is in canonical form: strictly rising addresses, no byte listed that equals what an unlisted one reads as. -/
def State.memOk (s : State) : Bool := Memory.wf s.mem

/-- Every level source whose condition holds and that can raise its event has its pending bit set (R39). -/
def State.levelsPending (s : State) : Bool :=
  levelEvents.all (fun e => !(eventLive s e && s.levelHolds e) || s.isPending e)

/-- The fields that raising an event may change: the pending words of the EVC, and VF_EVT_PEND of the VF doorbell pages. -/
def pendFld (f : Fld) : Bool :=
  (decide (0x40010000 * 32 ≤ f.key) && decide (f.key < 0x40010020 * 32))
    || (decide (0x41000000 * 32 ≤ f.key) && decide (f.key < 0x42000000 * 32) && f.key % (0x1000 * 32) == 0x48 * 32)

/-- From `s` to `t` no register field changes but `fs`; no pending bit is lost, and none appears but those of `evs`, of a level
source whose condition holds in `t` (R39), and of event 254, which a Secure event aimed at a VF raises (R176); VF_EVT_PEND gains
at most its bit 7 (R176). -/
structure Keeps (fs : List Fld) (evs : List Nat) (s t : State) : Prop where
  fields : ∀ f : Fld, pendFld f = false → (∀ g ∈ fs, g.key ≠ f.key) → t.get f = s.get f
  stays : ∀ e, e < 256 → s.isPending e = true → t.isPending e = true
  appears : ∀ e, e < 256 → t.isPending e = true →
    s.isPending e = true ∨ e ∈ evs ∨ e = 254 ∨ (e ∈ levelEvents ∧ t.levelHolds e = true)
  forwarded : ∀ f, f < 32 → t.get (VFP_VF_EVT_PEND f) = s.get (VFP_VF_EVT_PEND f)
    ∨ t.get (VFP_VF_EVT_PEND f) = orBits (s.get (VFP_VF_EVT_PEND f)) 128 % 2 ^ (VFP_VF_EVT_PEND f).w

/-- The command answers a next state, and that state satisfies `P`. -/
def Does (i : Instr) (s : State) (P : State → Prop) : Prop := ∃ t : State, exec i s = .next t ∧ P t

/-- Only registers differ: memory, the word code and every unit's own state are those of `s`. -/
def RegsOnly (s t : State) : Prop := t = { s with regs := t.regs }

/-- Only registers and the arbiters' turns differ, and the fabric has answered a write without an error. -/
def Answered (s t : State) : Prop := t = { s with regs := t.regs, arb := t.arb, resp := ⟨false, 0, false⟩ }

/-- Only the fields `fs` and pending words of the events `evs` change, and nothing else of the state. -/
def Changes (fs : List Fld) (evs : List Nat) (s t : State) : Prop := Keeps fs evs s t ∧ RegsOnly s t

/-- As `Changes`, after a register write, which is answered without an error. -/
def Writes (fs : List Fld) (evs : List Nat) (s t : State) : Prop := Keeps fs evs s t ∧ Answered s t

/-- Only stage die `d` changes: the fields outside its window, the other dies, and the rest of the state stay; no pending bit is
lost, and none appears but of a level source whose condition holds, and of event 254 (R176). -/
structure DieOnly (d : Nat) (s t : State) : Prop where
  fields : ∀ f : Fld, pendFld f = false → f.key < (0x50000000 + 0x10000 * d) * 32 ∨ (0x50010000 + 0x10000 * d) * 32 ≤ f.key →
    t.get f = s.get f
  stays : ∀ e, e < 256 → s.isPending e = true → t.isPending e = true
  appears : ∀ e, e < 256 → t.isPending e = true → s.isPending e = true ∨ e = 254 ∨ (e ∈ levelEvents ∧ t.levelHolds e = true)
  dies : ∀ c, c ≠ d → t.dieSt c = s.dieSt c ∧ ∀ k, k < 12 → t.ch c k = s.ch c k
  rest : t = { s with regs := t.regs, chan := t.chan, die := t.die }

/-- A received codeword: its 16 data bytes, check byte P, check byte Q (R20). -/
abbrev Codeword := List Byte × Nat × Nat

/-- The codeword of a data word (R21). -/
def encodeWord (d : List Byte) : Codeword := (d, checkP d, checkQ d)

/-- The two syndrome bytes of a codeword (R22), as S_P + 256 · S_Q. -/
def Codeword.syndrome (c : Codeword) : Nat := syndromeP c.1 c.2.1 c.2.2 + 256 * syndromeQ c.1 c.2.2

/-- Byte `j` of a codeword, 16 for P and 17 for Q, is changed by the bits of `e`. -/
def Codeword.disturb (c : Codeword) (j : Nat) (e : Byte) : Codeword :=
  if j < 16 then (c.1.set j (c.1.getD j 0 ^^^ e), c.2)
  else if j = 16 then (c.1, c.2.1 ^^^ e.toNat, c.2.2)
  else (c.1, c.2.1, c.2.2 ^^^ e.toNat)

/-- Bit `b` of a codeword flips (R20). -/
def Codeword.flip (c : Codeword) (b : Nat) : Codeword := c.disturb (b / 8) (BitVec.ofNat 8 (2 ^ (b % 8)))

/-- The two lane groups have nothing to take up: no debug halt or resume is asked for, and neither is in an idle window. -/
def State.lanesQuiet (s : State) : Bool := s.dbg.asks == 0 && !(s.grp 0).window && !(s.grp 1).window

end Sys2Proof.Machine
end

