-- ==== Sys2Proof/Certificates/Slice0/Obligations.lean ====
section
/-! DEFINITION. The statements about the module, from the rules of its spec. -/

open Sys2Proof Sys2Proof.Machine

/-- For every command c and state s, step of s with c put at the front of its queue is exec of c on s, whose queue is the rest. That
the block takes its commands first in, first out from one queue is the model's own form (assumption log, entry 1). (00_scope.md,
Readers and actors; 95_what_each_step_holds.md) -/
def Obligations.StepRunsTheFrontCommand : Prop :=
  ∀ (c : Instr) (s : State), step { s with pending := c :: s.pending } = exec c s

/-- On an empty queue a step answers a next state that differs from the state before in the zone-time counter and its fraction
alone. Where zone time counts, and TIME_FREQ and the fraction are within their widths, the 64-bit counter advances by 3 or 4 ns;
where it does not count, nothing changes. That the block ticks one ISL_NET cycle there is the model's choice (assumption log,
entry 2). (10_ethernet_switch_zone_time.md, Zone time) -/
def Obligations.EmptyQueueStepOnlyAdvancesZoneTime : Prop :=
  ∀ s : State, s.pending = [] → ∃ t : State, step s = .next t
    ∧ t = { s with zone := t.zone, zoneFrac := t.zoneFrac }
    ∧ (s.timeLive = false → t = s)
    ∧ (s.timeLive = true → s.get TIME_FREQ < 2 ^ 30 → s.zoneFrac < 2 ^ 32 →
        t.zoneFrac < 2 ^ 32 ∧ (t.zone = (s.zone + 3) % 2 ^ 64 ∨ t.zone = (s.zone + 4) % 2 ^ 64))

/-- For every command and every state, exec answers a next state: no fault and no refusal is ever raised, and so every step answers
a next state. (95_what_each_step_holds.md; 00_scope.md, Readers and actors) -/
def Obligations.EveryCommandAnswersANextState : Prop :=
  (∀ (i : Instr) (s : State), ∃ t : State, exec i s = .next t) ∧ (∀ s : State, ∃ t : State, step s = .next t)

/-- Invariant: in a state where every level source that is live and whose condition holds is pending, every step leads to a state
where that is so again; and every command that changes the state at all leads to such a state from any state.
(01_module_architecture.md, Events (R39)) -/
def Obligations.LevelSourcesStayPendingAfterEveryStep : Prop :=
  (∀ s t : State, s.levelsPending = true → step s = .next t → t.levelsPending = true)
  ∧ (∀ (i : Instr) (s t : State), exec i s = .next t → t = s ∨ t.levelsPending = true)

/-- At State.reset every level source that is live and whose condition holds is pending, and memory is in its canonical form.
(01_module_architecture.md, Events (R39)) -/
def Obligations.ResetHasNoLevelSourceUnserved : Prop :=
  State.reset.levelsPending = true ∧ State.reset.memOk = true

/-- At State.reset every register field holds the reset value of its map, no event is pending, every codeword is clean, the queue is
empty, no hart is halted, the control die does not run. That memory which nothing has written reads as zero is the model's
choice (assumption log, entry 3), and so are the values of fields whose Reset column says OTP, pins, MRAM or session before they
are loaded (entry 4). (00_scope.md, Registers (R12); 02_power_states_boot.md, Resets; 01_module_architecture.md, EVC register
map) -/
def Obligations.ResetGivesEveryFieldItsResetValue : Prop :=
  (∀ f : Fld, State.reset.get f = f.reset) ∧ (∀ e : Nat, e < 256 → State.reset.isPending e = false)
  ∧ (∀ a : Nat, State.reset.readByte a = 0) ∧ (∀ w : Nat, State.reset.synOf w = 0)
  ∧ State.reset.pending = [] ∧ State.reset.haltedHarts = 0 ∧ State.reset.awake = false

/-- A write to EVC_PENDk that reaches the EVC completes. Event 32k+b stays pending afterwards only if its bit was not written, or is
not open to the writer's world, or its level source's condition holds, or it is event 254, which a level source may raise again;
an event that is not named stays as it was pending; a live level source whose condition holds is pending. No field but pending
words changes, nothing else of the state changes, and the write is answered without an error. (01_module_architecture.md, EVC
register map (R43, R44); 01_module_architecture.md, Events (R39, R41)) -/
def Obligations.AcknowledgeClearsPendingEvents : Prop :=
  ∀ (s : State) (a : Agent) (k : Fin 8) (v : Word), s.gate a (EVC_PEND k).addr true = .pass →
    Does (.evcAck a k v) s (fun t =>
      (∀ e, e < 256 → e ≠ 254 → s.levelHolds e = false → e / 32 = k.val → bit (v.toNat &&& evcMask a k s) (e % 32) = true →
        t.isPending e = false)
      ∧ (∀ e, e < 256 → s.isPending e = true → ¬ (e / 32 = k.val ∧ bit (v.toNat &&& evcMask a k s) (e % 32) = true) →
        t.isPending e = true)
      ∧ (∀ e ∈ levelEvents, eventLive s e = true → s.levelHolds e = true → t.isPending e = true)
      ∧ (∀ f : Fld, pendFld f = false → t.get f = s.get f) ∧ Answered s t)

/-- A write to EVC_SETk that reaches the EVC completes: every event whose bit is written and open to the writer's world is pending,
no pending bit is lost, no other event becomes pending but level sources whose condition holds and event 254, no field but
pending words changes, nothing else of the state changes, and the write is answered without an error.
(01_module_architecture.md, EVC register map (R44); 01_module_architecture.md, Events (R41)) -/
def Obligations.SetRegistersMakeEventsPending : Prop :=
  ∀ (s : State) (a : Agent) (k : Fin 8) (v : Word), s.gate a (EVC_SET k).addr true = .pass →
    Does (.evcSetWrite a k v) s (fun t =>
      (∀ b, b < 32 → bit (v.toNat &&& evcMask a k s) b = true → t.isPending (32 * k.val + b) = true)
      ∧ Writes [] ((List.range 256).filter (fun e => e / 32 == k.val && bit (v.toNat &&& evcMask a k s) (e % 32))) s t)

/-- If initiator a is Normal and reaches the EVC, then EVC_ACK and EVC_SET_WRITE leave the pending bit of every Secure event of the
word as it was, but for a level source whose condition holds and for event 254. A Secure initiator reaches every bit of the
word. (01_module_architecture.md, Events (R41)) -/
def Obligations.NormalWorldReachesNoSecureEvent : Prop :=
  (∀ (s : State) (a : Agent) (k : Fin 8) (v : Word) (e : Nat), isNormal a s = true → e < 256 → e / 32 = k.val → e ≠ 254 →
    s.eventSecure e = true → s.levelHolds e = false →
    (s.gate a (EVC_PEND k).addr true = .pass → Does (.evcAck a k v) s (fun t => t.isPending e = s.isPending e))
    ∧ (s.gate a (EVC_SET k).addr true = .pass → Does (.evcSetWrite a k v) s (fun t => t.isPending e = s.isPending e)))
  ∧ (∀ (s : State) (a : Agent) (k : Nat), isNormal a s = false → evcMask a k s = 2 ^ 32 - 1)

/-- For a target t, the event that EVC_TOP reports to a Secure reader is deliverable: pending, enabled, aimed at t and of a priority
above the threshold; every other deliverable event has a lower priority, or an equal one and a higher number; an event with
priority 0 is deliverable to no target; and where nothing is deliverable nothing is reported and the interrupt line is not
asserted. (R40) -/
def Obligations.TopEventIsTheHighestDeliverableOne : Prop :=
  ∀ (s : State) (t : Nat),
    (∀ e, s.topEvent t false = some e →
      e < 256 ∧ s.isPending e = true ∧ s.isEnabled e = true ∧ s.get (EVC_CFG_TGT e) = t
      ∧ s.get (EVC_THR t) < s.get (EVC_CFG_PRIO e)
      ∧ ∀ d, d < 256 → s.deliverable t d = true → d ≠ e →
        s.get (EVC_CFG_PRIO d) < s.get (EVC_CFG_PRIO e) ∨ (s.get (EVC_CFG_PRIO d) = s.get (EVC_CFG_PRIO e) ∧ e < d))
    ∧ (s.topEvent t false = none ↔ ∀ d, d < 256 → s.deliverable t d = false)
    ∧ (∀ d, s.get (EVC_CFG_PRIO d) = 0 → s.deliverable t d = false)
    ∧ (s.irqLine t = true ↔ ∃ d, d < 256 ∧ s.deliverable t d = true)

/-- For every data word of 16 bytes: its codeword is clean; with any one of its 144 bits flipped it is classified as corrected at
that very bit; with any two different bits flipped it is uncorrectable; and with any non-zero error confined to one of its 18
bytes it is uncorrectable, or corrected at the one bit that the error is, never clean and never corrected elsewhere. (R23) -/
def Obligations.SingleBitErrorsAreCorrectedAndDoubleOnesDetected : Prop :=
  ∀ d : List Byte, d.length = 16 →
    classify (encodeWord d).syndrome = .clean
    ∧ (∀ b, b < 144 → classify ((encodeWord d).flip b).syndrome = .corrected b)
    ∧ (∀ b c, b < 144 → c < 144 → b ≠ c → classify (((encodeWord d).flip b).flip c).syndrome = .uncorrectable)
    ∧ (∀ (j : Nat) (e : Byte), j < 18 → e ≠ 0 →
        classify ((encodeWord d).disturb j e).syndrome = .uncorrectable
        ∨ ∃ i, i < 8 ∧ e = BitVec.ofNat 8 (2 ^ i) ∧ classify ((encodeWord d).disturb j e).syndrome = .corrected (8 * j + i))

/-- With the control die awake, no island on the way stalled and no lane group with work to take up, a Secure REG_WRITE of a VOTED
lane group to a once target joins the release queue, where there is room, and changes nothing else; of an initiator that has no
such queue it sets TGT, VF and PRIO of event n from their bits and leaves its WORLD where it is one to EVC_CFGn, sets the enable
bits where it is one to EVC_ENk, and the threshold where it is one to EVC_THRt; each changes no other field, of the rest of the
state only the arbiter's turns, and is answered without an error. (00_scope.md, Registers (R5); 01_module_architecture.md, EVC
register map (R44); 16_worlds_debug.md, Target checks) -/
def Obligations.PlainRegisterWritesStoreTheirFields : Prop :=
  ∀ (s : State) (a : Agent) (v : Word), s.awake = true → s.fabStalls = false → s.islandStalls (islandOf a) = false →
    s.lanesQuiet = true → isNormal a s = false →
    (∀ (g : Fin 2) (addr : Nat), s.queueOf a addr = some g → (s.grp g).relq.length < 64 → Does (.regWrite a addr v) s (fun t =>
      (t.grp g).relq = (s.grp g).relq ++ [regEntry addr v] ∧ Keeps [IST_CKPT_STAT_RELQ g, IST_CKPT_STAT_UNDO g] [] s t
      ∧ (∀ i, i ≠ g.val → t.grp i = s.grp i) ∧ t = { s with regs := t.regs, groups := t.groups, resp := ⟨false, 0, false⟩ }))
    ∧ ((∀ addr, s.queueOf a addr = none) →
    (∀ n : Fin 256, Does (.regWrite a (0x40011000 + 4 * n) v) s (fun t =>
      t.get (EVC_CFG_TGT n) = bits v.toNat 0 4 ∧ t.get (EVC_CFG_VF n) = bits v.toNat 8 5 ∧ t.get (EVC_CFG_PRIO n) = bits v.toNat 16 4
      ∧ t.get (EVC_CFG_WORLD n) = s.get (EVC_CFG_WORLD n)
      ∧ Writes [EVC_CFG_TGT n, EVC_CFG_VF n, EVC_CFG_PRIO n] [] s t))
    ∧ (∀ k : Fin 8, Does (.regWrite a (EVC_EN k).addr v) s (fun t => t.get (EVC_EN k) = v.toNat ∧ Writes [EVC_EN k] [] s t))
    ∧ (∀ g : Fin 6, Does (.regWrite a (EVC_THR g).addr v) s (fun t => t.get (EVC_THR g) = bits v.toNat 0 4 ∧ Writes [EVC_THR g] [] s t)))

/-- A REARM command whose write reaches its register completes, leaves VALID of that capture 0, changes no other field and nothing
else of the state, and is answered without an error: WCE, FAB, DMA, FIFO, ETH, CAN, CGW, NMW, SNS, REC, CRY, VFM, WLD in every
state; VOTE_REARM and VOTE_AGREE_REARM while the group is VOTED, without effect while it is SPLIT; IST_RELQ_REARM for the groups
its bits name; LCC_REARM from SG0 where REARM is 1 and the written NUM is that of the capture, and without effect where it is
not. (01_module_architecture.md, EVC register map; 03_voted_lane_groups.md, VOTE register maps; 06_rings_dma_fifos.md, DMA
events and registers; 10_ethernet_switch_zone_time.md, ETH register map; 11_can_channels_gateway.md, CAN register map;
12_closing_bell_sleep_wake.md, NMW register map; 13_metering_sense_inputs.md, SNS register map; 14_event_recorder.md, REC
register map; 15_keys_attestation.md, CRY register map; 16_worlds_debug.md, WLD register map;
05_application_cluster_virtual_functions.md, VFM register map; 09_load_channel_control.md, LCC register map) -/
def Obligations.RearmCommandsReopenTheirCapture : Prop :=
  (∀ (s : State) (a : Agent) (m : Fin 2) (c : Fin 12),
    ∀ p ∈ ([(.wceRearm a, EVC_WCE_CTL_REARM.addr, EVC_WCE_INFO_VALID), (.fabRearm a, EVC_FAB_CTL.addr, EVC_FAB_INFO_VALID),
        (.dmaRearm a m, (DMA_ERR_CTL_REARM m).addr, DMA_ERR_INFO_VALID m), (.fifoRearm a, FIFO_ERR_CTL_REARM.addr, FIFO_ERR_INFO_VALID),
        (.ethRearm a, ETH_ERR_CTL.addr, ETH_ERR_INFO_VALID), (.canRearm a c, (CAN_CMD_REARM c).addr, CAN_ERR_CAP_VALID c),
        (.cgwRearm a, CGW_ERR_CTL_REARM.addr, CGW_ERR_INFO_VALID), (.nmwRearm a, NMW_ERR_CTL_REARM.addr, NMW_ERR_INFO_VALID),
        (.snsRearm a, SNS_CMD_REARM.addr, SNS_ERR_INFO_VALID), (.recRearm a, REC_CMD_REARM.addr, REC_ERR_INFO_VALID),
        (.cryRearm a, CRY_ERR_CTL_REARM.addr, CRY_ERR_INFO_VALID), (.vfmRearm a, VFM_ERR_CTL_REARM.addr, VFM_ERR_INFO_VALID),
        (.wldRearm a, WLD_CTL_REARM.addr, WLD_VIOL_INFO_VALID)] : List (Instr × Nat × Fld)),
      s.gate a p.2.1 true = .pass → Does p.1 s (fun t => t.get p.2.2 = 0 ∧ Writes [p.2.2] [] s t))
  ∧ (∀ (s : State) (a : Agent) (g : Fin 2), s.gate a (VOTE_CTL_REARM g).addr true = .pass →
      Does (.voteRearm a g) s (fun t => if s.isSplit g then Writes [] [] s t
        else t.get (VOTE_MM_INFO_VALID g) = 0 ∧ Writes [VOTE_MM_INFO_VALID g] [] s t)
      ∧ Does (.voteAgreeRearm a g) s (fun t => if s.isSplit g then Writes [] [] s t
        else t.get (VOTE_AGREE_INFO_VALID g) = 0 ∧ Writes [VOTE_AGREE_INFO_VALID g] [] s t))
  ∧ (∀ (s : State) (a : Agent) (m : Fin 4), s.gate a IST_CMD_REARM.addr true = .pass →
      Does (.istRelqRearm a m) s (fun t => Writes [IST_RELQ_ERR_INFO_VALID 0, IST_RELQ_ERR_INFO_VALID 1] [] s t
        ∧ ∀ g : Fin 2, t.get (IST_RELQ_ERR_INFO_VALID g) = if bit m.val g then 0 else s.get (IST_RELQ_ERR_INFO_VALID g)))
  ∧ (∀ (s : State) (a : Agent) (v : Word), s.gate a LCC_ERR_CTL_REARM.addr true = .pass → idOf a ≤ 2 →
      Does (.lccRearm a v) s (fun t => Writes [LCC_ERR_INFO_VALID] [] s t ∧ t.get LCC_ERR_INFO_VALID =
        if bit v.toNat 8 = true ∧ bits v.toNat 0 8 = s.get LCC_ERR_INFO_NUM then 0 else s.get LCC_ERR_INFO_VALID))

/-- A CLR_CNT command whose write reaches its register completes, leaves every counter it names 0, changes no other field and
nothing else of the state, and is answered without an error: the word-code counters, the DMA, FIFO, BRG, ETH port, TIME, CAN
channel, NMW, SNS, REC, KEY, CRY, VFM, WLD counters. (01_module_architecture.md, EVC register map; 06_rings_dma_fifos.md, Credit
FIFOs; 07_stage_bridge.md, BRG register map; 10_ethernet_switch_zone_time.md, TIME register map;
10_ethernet_switch_zone_time.md, ETH register map; 11_can_channels_gateway.md, CAN register map; 12_closing_bell_sleep_wake.md,
NMW register map; 13_metering_sense_inputs.md, SNS register map; 14_event_recorder.md, REC register map; 15_keys_attestation.md,
KEY register map; 16_worlds_debug.md, WLD register map; 05_application_cluster_virtual_functions.md, VFM register map) -/
def Obligations.ClearCountCommandsZeroTheirCounters : Prop :=
  ∀ (s : State) (a : Agent) (m : Fin 2) (c : Fin 12) (p : Fin 10),
    ∀ x ∈ ([(.wceClrCnt a, EVC_WCE_CTL_CLR_CNT.addr, [EVC_WCE_CE_CNT, EVC_WCE_UE_CNT]),
        (.dmaClrCnt a m, (DMA_ERR_CTL_CLR_CNT m).addr, [DMA_DB_IGN m, DMA_BYTES_LO m, DMA_BYTES_HI m]),
        (.fifoClrCnt a, FIFO_ERR_CTL_CLR_CNT.addr, [FIFO_ERR_CNT]),
        (.brgClrCnt a, BRG_PERR_CTL_CLR_CNT.addr, [BRG_PERR_STAT_LOST, BRG_NP_ERR] ++ [0, 1, 2, 3, 4].flatMap (fun d =>
          [BRG_LINK_CNT_RETRY d, BRG_LINK_CNT_FAULTS d, BRG_LINK_CNT_BURSTS d, BRG_LINK_WCE_UE d, BRG_LINK_WCE_CE d])),
        (.ethPortClrCnt a p, (PORT_CNT_CTL p).addr, [PORT_RX_FRAMES_LO p, PORT_RX_FRAMES_HI p, PORT_TX_FRAMES_LO p,
          PORT_TX_FRAMES_HI p, PORT_RX_DROP p, PORT_TX_DROP p, PORT_SEC_BAD p, PORT_TX_ABORT p, PORT_QBV_WAIT p]),
        (.timeClrCnt a, TIME_CMD_CLR_CNT.addr, [TIME_SYNC_CNT_USED, TIME_SYNC_CNT_REJECT] ++ (List.range 16).map TIME_TCU_MISS),
        (.canClrCnt a c, (CAN_CMD_CLR_CNT c).addr, [CAN_TX_CNT c, CAN_RX_CNT c, CAN_ERR_CNT c, CAN_ARB_CNT c, CAN_LOST_CNT c]),
        (.nmwClrCnt a, NMW_ERR_CTL_CLR_CNT.addr, [NMW_LATE_CNT, NMW_CURFEW_CNT, NMW_IGN_CNT] ++ (List.range 20).map SEG_STAT_LATE),
        (.snsClrCnt a, SNS_CMD_CLR_CNT.addr, [SNS_SKIP]),
        (.recClrCnt a, REC_CMD_CLR_CNT.addr, [REC_TORN_LB, REC_TORN_LG, REC_LOST]),
        (.keyClrCnt a, KEY_CTL.addr, [KEY_TAMPER_CNT]),
        (.cryClrCnt a, CRY_ERR_CTL_CLR_CNT.addr, [CRY_AUTHFAIL]),
        (.vfmClrCnt a, VFM_ERR_CTL_CLR_CNT.addr, [VFM_STALE_DROP_LO, VFM_STALE_DROP_HI, VFM_DB_STALE, VFM_FORCED]
          ++ (List.range 32).flatMap (fun f => [VFM_VF_DROP_STALE_DROP f, VFM_VF_DROP_DB_STALE f, VFM_VF_QDROP f])),
        (.wldClrCnt a, WLD_CTL_CLR_CNT.addr, [WLD_VIOL_CNT])] : List (Instr × Nat × List Fld)),
      s.gate a x.2.1 true = .pass → Does x.1 s (fun t => (∀ f ∈ x.2.2, t.get f = 0) ∧ Writes x.2.2 [] s t)

/-- Where the write reaches its register: IST_CLR_CNT leaves the test counters and both groups' early-commit, restart-maximum and
released-write-error counters 0; VOTE_CLR_CNT leaves the mask, restart-total, agreement and rejoin counters of a VOTED group 0,
keeps CONSEC, and has no effect in SPLIT mode; CGW_CLR_CNT leaves the gateway counters 0 and word 5 of every authentication
entry; TIME_CLR_INT sets the integral term of the servo to 0. No other field and nothing else of the state changes, and the
write is answered without an error. (04_checkpoint_recovery_lane_test.md, IST register map; 03_voted_lane_groups.md, VOTE
register maps; 11_can_channels_gateway.md, CGW register map; 10_ethernet_switch_zone_time.md, TIME register map) -/
def Obligations.GroupAndGatewayClearCommands : Prop :=
  (∀ (s : State) (a : Agent), s.gate a IST_CMD_CLR_CNT.addr true = .pass →
    Does (.istClrCnt a) s (fun t =>
      let fs := [IST_COUNT_INC, IST_COUNT_FAIL, IST_COUNT_PASS] ++ [0, 1].flatMap (fun g => [IST_CKPT_EARLY_IDLE g,
        IST_CKPT_EARLY_REQ g, IST_CKPT_EARLY_RELQ g, IST_CKPT_EARLY_UNDO g, IST_RESTART_MAX g, IST_RELQ_ERR_INFO_COUNT g])
      (∀ f ∈ fs, t.get f = 0) ∧ Writes fs [] s t))
  ∧ (∀ (s : State) (a : Agent) (g : Fin 2), s.gate a (VOTE_CTL_REARM g).addr true = .pass →
    Does (.voteClrCnt a g) s (fun t =>
      let fs := [VOTE_MASK_CNT_LANE0 g, VOTE_MASK_CNT_LANE1 g, VOTE_MASK_CNT_LANE2 g, VOTE_RESTART_CNT_TOTAL g, VOTE_AGREE_SKEW g,
        VOTE_AGREE_HELD_LANE0 g, VOTE_AGREE_HELD_LANE1 g, VOTE_AGREE_HELD_LANE2 g, VOTE_REJOIN_CNT g]
      if s.isSplit g then Writes [] [] s t else (∀ f ∈ fs, t.get f = 0) ∧ Writes fs [] s t))
  ∧ (∀ (s : State) (a : Agent), s.gate a CGW_ERR_CTL_CLR_CNT.addr true = .pass →
    Does (.cgwClrCnt a) s (fun t =>
      let fs := [CGW_ROUTE_DROP, CGW_ISO_DROP, CGW_AUTH_FAIL, CGW_ETH_SKIP, CGW_RX_LOST, CGW_FIFO_BAD]
      (∀ f ∈ fs, t.get f = 0) ∧ Keeps fs [] s t
      ∧ t = { s with
          regs := t.regs, arb := t.arb, resp := ⟨false, 0, false⟩
          can := { s.can with auth := s.can.auth.map (fun p => (p.1, p.2.set 5 0)) } }))
  ∧ (∀ (s : State) (a : Agent), s.gate a TIME_CMD_CLR_INT.addr true = .pass →
    Does (.timeClrInt a) s (fun t => Keeps [] [] s t
      ∧ t = { s with regs := t.regs, arb := t.arb, resp := ⟨false, 0, false⟩, time := { s.time with integral := 0 } }))

/-- A write by a to a register address at which, the die being awake: no block lies is answered with an error response and captured
as unassigned (cause 1, TPORT 0xF) with event 14; a block that is fenced by a hand-over refuses it with an error response,
counted in WLD_VIOL_CNT and captured with cause 5 and event 249; a gated block's write ends in the crossbar's error response,
captured with cause 3 and event 14; a Normal write that the register does not take is answered as if taken, counted and captured
with cause 1 and event 249. Captures keep a held error. In every case no other field, no memory and no unit changes but the
turns of the target's arbiter. Asleep, or while an island on the way stalls, nothing changes. (01_module_architecture.md, Fabric
(R34); 16_worlds_debug.md, Target checks; 16_worlds_debug.md, Hand-over; 02_power_states_boot.md, Power states) -/
def Obligations.RefusedRegisterAccessIsAnsweredAndCaptured : Prop :=
  ∀ (s : State) (a : Agent) (addr : Nat),
    (s.gate a addr true = .asleep ∨ s.gate a addr true = .stalled → s.refuse a addr true = some s)
    ∧ (s.gate a addr true = .unassigned ∨ s.gate a addr true = .gated →
        ∃ t, s.refuse a addr true = some t ∧ t.resp = ⟨true, 0, false⟩
          ∧ (s.on EVC_FAB_INFO_VALID = false → t.get EVC_FAB_INFO_VALID = 1
              ∧ t.get EVC_FAB_INFO_CAUSE = (if s.gate a addr true = .gated then 3 else 1)
              ∧ t.get EVC_FAB_INFO_IPORT = portOf a ∧ t.get EVC_FAB_ADDR_LO = addr % 2 ^ 32)
          ∧ (eventLive s 14 = true → t.isPending 14 = true)
          ∧ Changes [EVC_FAB_INFO_VALID, EVC_FAB_INFO_CAUSE, EVC_FAB_INFO_TPORT, EVC_FAB_INFO_IPORT, EVC_FAB_ADDR_LO, EVC_FAB_ADDR_HI]
              [14] { s with resp := ⟨true, 0, false⟩, arb := t.arb } t
          ∧ (s.on EVC_FAB_INFO_VALID = true → t.get EVC_FAB_ADDR_LO = s.get EVC_FAB_ADDR_LO))
    ∧ (s.gate a addr true = .fenced ∨ s.gate a addr true = .world →
        ∃ t, s.refuse a addr true = some t ∧ (t.resp.err = true ↔ s.gate a addr true = .fenced)
          ∧ t.get WLD_VIOL_CNT = min (s.get WLD_VIOL_CNT + 1) (2 ^ WLD_VIOL_CNT.w - 1)
          ∧ (s.on WLD_VIOL_INFO_VALID = false → t.get WLD_VIOL_INFO_VALID = 1 ∧ t.get WLD_VIOL_INFO_WRITE = 1
              ∧ t.get WLD_VIOL_INFO_CAUSE = (if s.gate a addr true = .fenced then 5 else 1) ∧ t.get WLD_VIOL_ADDR_LO = addr % 2 ^ 32)
          ∧ (eventLive s 249 = true → t.isPending 249 = true)
          ∧ Changes [WLD_VIOL_CNT, WLD_VIOL_INFO_VALID, WLD_VIOL_INFO_ID, WLD_VIOL_INFO_CAUSE, WLD_VIOL_INFO_TPORT, WLD_VIOL_INFO_WRITE,
              WLD_VIOL_ADDR_LO, WLD_VIOL_ADDR_HI] [249] { s with resp := t.resp, arb := t.arb } t)

/-- For the register commands named here (one or more of every block that has such commands), a write that does not pass the checks
in front of its register leads to the state that the refusal gives, with the level sources settled, and to nothing of the
command's own effect. (01_module_architecture.md, Fabric; 16_worlds_debug.md, Target checks;
05_application_cluster_virtual_functions.md, VFM register map) -/
def Obligations.RegisterCommandsThatDoNotReachTheirRegisterDoNotAct : Prop :=
  ∀ (s u : State) (a : Agent) (v : Word) (k : Fin 8) (m g : Fin 2) (n : Fin 16) (p : Fin 8) (c : Fin 12) (r : Ring) (sg : Fin 20)
    (f : Fin 32) (w : Fin 4) (o : Fin 24),
    ∀ x ∈ ([(.evcSetWrite a k v, (EVC_SET k).addr), (.evcAck a k v, (EVC_PEND k).addr), (.pwrReqOpen a, PWR_REQ.addr),
        (.pwrReqShade a, PWR_REQ.addr), (.pwrReqDusk a, PWR_REQ.addr), (.pwrReqClosed a, PWR_REQ.addr), (.appPark a v, PWR_APP_PARK.addr),
        (.wdtKick a v, RST_WDT_KICK.addr), (.systemSwReset a v, RST_SYS.addr), (.blockReset a v, RST_BLK0_NMW.addr),
        (.appCoreReset a v, RST_APP.addr), (.stageDieReset a v, RST_STAGE_MD.addr), (.clockGate a true v, CLK_ISL_GATE_APP.addr),
        (.clockGate a false v, CLK_BLK_GATE.addr), (.voteRejoinNow a g, (VOTE_CTL_REARM g).addr), (.splitRun a g v, (VOTE_SPLIT_RUN g).addr),
        (.istTestNow a, IST_CTL_TEST_NOW.addr), (.sqDoorbell a r v, r.doorbell), (.cqDoorbell a r v, r.doorbell + 4),
        (.ringEnable a r v, r.base + 0x18), (.ringDisable a r v, r.base + 0x18), (.fifoEnable a n v, (FIFO_CFG_EN n).addr),
        (.fifoPush a n v, (FIFO_PUSH_HI_WORDS n).addr), (.fifoPop a n v, (FIFO_POP n).addr), (.brgLinkEnWrite a v, BRG_CTL_LINK_EN.addr),
        (.ltEnable a o v, (LCC_LT_CFG_EN o).addr), (.qbvApply a p v, (PORT_QBV_CTL_APPLY p).addr), (.timeSet a, TIME_CMD_SET.addr),
        (.timeFreqWrite a v, TIME_FREQ.addr), (.tcuEnable a n v, (TIME_TCU_CFG_EN n).addr), (.canEnable a c v, (CAN_CTL_EN c).addr),
        (.canDisable a c v, (CAN_CTL_EN c).addr), (.nmwEnWrite a v, NMW_CTL_EN.addr), (.segManagedWrite a sg v, (SEG_CTL_MANAGED sg).addr),
        (.nmwWakeReq a v, NMW_WAKE_REQ.addr), (.recStmt a, REC_CMD_STMT.addr), (.recClear a, REC_CMD_CLEAR.addr), (.recSnap a, REC_CMD_SNAP.addr),
        (.keyDeliver a m v, (KEY_CMD_OP m).addr), (.keyRevoke a m v, (KEY_CMD_OP m).addr), (.vfCtlReset a f, (VFP_VF_CTL f).addr),
        (.vfFwdAck a f v, (VFP_VF_FWD_ACK f).addr), (.vfmEnable a f, VFM_CMD_OP.addr), (.vfmSave a f, VFM_CMD_OP.addr),
        (.vfmWindowEnable a f w v, (VFM_WIN_CTL_EN f w).addr), (.wldHandover a v, WLD_HO_WORLD.addr), (.wldAppwWrite a v, WLD_APPW.addr),
        (.dbgGrantWrite a v, DBG_GRANT.addr), (.dbgSubmit a, DBG_CMD_SUBMIT.addr), (.debugReset a, DBG_CMD_SYSRST.addr)]
        : List (Instr × Nat)),
      s.refuse a x.2 true = some u → exec x.1 s = .next u.settle

/-- While the control die runs and no island on the way stalls, a well-formed prefetch-tagged read with a correct header, to an
address of register space, completes with an error response, and nothing but that response changes: no register field, no
memory, no unit, no arbitration state. (R9) -/
def Obligations.PrefetchOfRegisterSpaceIsRefused : Prop :=
  ∀ (s : State) (x : Transfer), s.awake = true → s.fabStalls = false → s.islandStalls (islandOf x.agent) = false →
    transferOk x = true → x.parityOk = true → x.prefetch = true → x.write = false →
    0x40000000 ≤ x.addr → x.addr < 0x41000000 →
    Does (.fabricTransfer x) s (fun t => t.resp = ⟨true, 0, false⟩ ∧ Changes [] [] { s with resp := ⟨true, 0, false⟩ } t)

/-- While the control die runs and no island on the way stalls, a well-formed transfer with a header parity error (cause 2), and one
that is not a prefetch of register space and lies in no one assigned range (cause 1, TPORT 0xF), get an error response, event
14, and the fabric capture unless it is held; no other field and nothing else changes. A transfer to an assigned target that is
not granted changes nothing. An access whose target does not answer in time gets an error response and event 14, and the capture
with cause 3 and the target's port unless it is held; where it is no write of a lane, no other field and nothing else changes;
where it is a write of a VOTED group's lane to a once target, the group's released-write error count goes up by one.
(01_module_architecture.md, Fabric (R32, R33, R34); 01_module_architecture.md, EVC register map (R46)) -/
def Obligations.FabricRefusalsAndWaitingTransfers : Prop :=
  (∀ (s : State) (x : Transfer), s.awake = true → s.fabStalls = false → s.islandStalls (islandOf x.agent) = false → transferOk x = true →
    let fabs := [EVC_FAB_INFO_VALID, EVC_FAB_INFO_CAUSE, EVC_FAB_INFO_TPORT, EVC_FAB_INFO_IPORT, EVC_FAB_ADDR_LO, EVC_FAB_ADDR_HI]
    let refused (cause tport : Nat) (t : State) : Prop := t.resp = ⟨true, 0, false⟩ ∧ t.isPending 14 = true
      ∧ (s.on EVC_FAB_INFO_VALID = false → t.get EVC_FAB_INFO_VALID = 1 ∧ t.get EVC_FAB_INFO_CAUSE = cause
          ∧ t.get EVC_FAB_INFO_TPORT = tport ∧ t.get EVC_FAB_INFO_IPORT = portOf x.agent ∧ t.get EVC_FAB_ADDR_LO = x.addr % 2 ^ 32)
      ∧ Changes (if s.on EVC_FAB_INFO_VALID then [] else fabs) [14] { s with resp := ⟨true, 0, false⟩ } t
    (x.parityOk = false → Does (.fabricTransfer x) s (refused 2 ((targetOf x.addr).getD 15)))
    ∧ (x.parityOk = true → (x.prefetch = false ∨ x.write = true) → targetOfRange x.addr x.len = none →
        Does (.fabricTransfer x) s (refused 1 15))
    ∧ (∀ p : Nat, x.parityOk = true → (x.prefetch = false ∨ x.write = true) → targetOfRange x.addr x.len = some p →
        (s.arbOf p).grant (portOf x.agent :: x.waiting) ≠ some (portOf x.agent) → exec (.fabricTransfer x) s = .next s))
  ∧ (∀ (s : State) (a : Agent) (addr p : Nat) (w : Bool), s.awake = true → targetOf addr = some p →
    Does (.targetTimeout a addr w) s (fun t => t.resp = ⟨true, 0, false⟩ ∧ t.isPending 14 = true
      ∧ (s.on EVC_FAB_INFO_VALID = false → t.get EVC_FAB_INFO_VALID = 1 ∧ t.get EVC_FAB_INFO_CAUSE = 3 ∧ t.get EVC_FAB_INFO_TPORT = p
          ∧ t.get EVC_FAB_INFO_IPORT = portOf a)
      ∧ (∀ (g : Fin 2) (n : Fin 3), a = .lane g n → w = true → s.isSplit g = false → s.isOnce addr = true →
          t.get (IST_RELQ_ERR_INFO_COUNT g) = satInc (s.get (IST_RELQ_ERR_INFO_COUNT g)) (IST_RELQ_ERR_INFO_COUNT g).w)
      ∧ (w = false ∨ (∀ (g : Fin 2) (n : Fin 3), a ≠ .lane g n) → Changes [EVC_FAB_INFO_VALID, EVC_FAB_INFO_CAUSE,
          EVC_FAB_INFO_TPORT, EVC_FAB_INFO_IPORT, EVC_FAB_ADDR_LO, EVC_FAB_ADDR_HI] [14] { s with resp := ⟨true, 0, false⟩ } t)))

/-- For a well-formed transfer with a correct header to MRAM, SRAM or DRAM that its target grants and no check refuses, aligned to
whole codewords, with no island on the way stalled and no lane group having anything to take up: a write leaves its bytes in
memory and its codewords clean, every other byte and codeword as before; a read of clean codewords answers the bytes and changes
no memory; a read on which one codeword loses one bit answers the same bytes, counts one corrected codeword and raises event 12.
Besides, only the arbitration state of the port changes, and no unit. (01_module_architecture.md, Construction (R20, R22);
01_module_architecture.md, Where the code is checked (R24, R27, R28); 01_module_architecture.md, Fabric (R32, R34);
16_worlds_debug.md, Target checks) -/
def Obligations.MemoryTransfersMoveTheirBytes : Prop :=
  ∀ (s : State) (x : Transfer) (p : Nat), s.awake = true → s.fabStalls = false → s.islandStalls (islandOf x.agent) = false →
    s.lanesQuiet = true → transferOk x = true → x.parityOk = true → targetOfRange x.addr x.len = some p → p ∈ [1, 4, 6] → x.addr % 16 = 0 → x.len % 16 = 0 →
    (s.arbOf p).grant (portOf x.agent :: x.waiting) = some (portOf x.agent) → s.memGate x.agent x.write x.addr x.len = none →
    (x.write = true → x.flips = [] → Does (.fabricTransfer x) s (fun t => t.resp = ⟨false, 0, false⟩
        ∧ (∀ j, j < x.len → t.readByte (x.addr + j) = x.data.getD j 0)
        ∧ (∀ b, b < x.addr ∨ x.addr + x.len ≤ b → t.readByte b = s.readByte b)
        ∧ (∀ w, t.synOf w = if x.addr / 16 ≤ w ∧ w < (x.addr + x.len) / 16 then 0 else s.synOf w)
        ∧ Keeps [] [] s t ∧ t = { s with regs := t.regs, mem := t.mem, syn := t.syn, arb := t.arb, resp := t.resp }
        ∧ t.arbOf p = (s.arbOf p).granted (portOf x.agent)))
    ∧ (x.write = false → (∀ w, x.addr / 16 ≤ w → w < (x.addr + x.len) / 16 → s.synOf w = 0) → x.flips = [] →
        Does (.fabricTransfer x) s (fun t => t.resp = ⟨false, leNat (s.readBytes x.addr x.len), false⟩
          ∧ Keeps [] [] s t ∧ t = { s with regs := t.regs, arb := t.arb, resp := t.resp }))
    ∧ (∀ b, b < 144 → x.write = false → x.len = 16 → s.synOf (x.addr / 16) = 0 → x.flips = [(0, b)] →
        Does (.fabricTransfer x) s (fun t => t.resp = ⟨false, leNat (s.readBytes x.addr 16), false⟩
          ∧ t.get EVC_WCE_CE_CNT = satInc (s.get EVC_WCE_CE_CNT) EVC_WCE_CE_CNT.w ∧ t.isPending 12 = true
          ∧ Keeps [EVC_WCE_CE_CNT, EVC_WCE_INFO_VALID, EVC_WCE_INFO_UE, EVC_WCE_INFO_UNIT, EVC_WCE_INFO_SQ, EVC_WCE_INFO_SP,
              EVC_WCE_ADDR_LO, EVC_WCE_ADDR_HI] [12] s t
          ∧ t = { s with regs := t.regs, arb := t.arb, resp := t.resp }))

/-- While the control die runs and the memory can be scrubbed, with every stored codeword clean: a pass before which no bit flipped
changes nothing; a pass before which one bit of one codeword of the memory flipped leaves every byte and every codeword as it
was before the flip, counts one corrected codeword and raises event 12, capturing it with VALID 1, UE 0 and the memory's unit
number unless a capture is held. (01_module_architecture.md, Where the code is checked (R27, R29)) -/
def Obligations.ScrubPassCorrectsAFlippedBit : Prop :=
  ∀ (s : State) (st : Store), s.awake = true → s.scrubs st = true → s.syn = [] →
    Does (.scrubPass st []) s (Changes [] [] s)
    ∧ (∀ w b : Nat, b < 144 → (∃ r, r ∈ storeWords st ∧ r.1 ≤ w ∧ w < r.2.1) →
        Does (.scrubPass st [(w, b)]) s (fun t => (∀ a, t.readByte a = s.readByte a) ∧ (∀ v, t.synOf v = 0)
          ∧ t.get EVC_WCE_CE_CNT = satInc (s.get EVC_WCE_CE_CNT) EVC_WCE_CE_CNT.w ∧ t.isPending 12 = true
          ∧ (s.on EVC_WCE_INFO_VALID = false → t.get EVC_WCE_INFO_VALID = 1 ∧ t.get EVC_WCE_INFO_UE = 0
              ∧ t.get EVC_WCE_INFO_UNIT = (storeRange st).2.2.1)
          ∧ Keeps [EVC_WCE_CE_CNT, EVC_WCE_INFO_VALID, EVC_WCE_INFO_UE, EVC_WCE_INFO_UNIT, EVC_WCE_INFO_SQ, EVC_WCE_INFO_SP,
              EVC_WCE_ADDR_LO, EVC_WCE_ADDR_HI] [12] s t
          ∧ t = { s with regs := t.regs, mem := t.mem, syn := t.syn }))

/-- Where both halves can be read: a 32-bit read of a LO register answers its value and latches the HI register's value of that
instant for the reading initiator; a 64-bit read of one that is aligned to 8 bytes answers both halves of that instant and loads
the same latch, one of any other is answered with an error and loads no latch. The latches of other initiators and of other
counters are untouched, but that TIME_NOW_LO also latches the epoch. A read of HI right after answers the latched value. Nothing
else changes but the arbiters' turns. (00_scope.md, Registers (R11); 10_ethernet_switch_zone_time.md, Zone time (R338)) -/
def Obligations.CounterReadsLatchTheirUpperHalf : Prop :=
  ∀ (s : State) (a : Agent) (lo : Nat), isCounterLo lo = true → s.gate a lo false = .pass → s.gate a (lo + 4) false = .pass →
    (∀ wide : Bool, (wide = true → lo % 8 = 0) → Does (.counterLoRead a lo wide) s (fun t =>
      t.resp = ⟨false, (s.liveWord a lo).1 + (if wide then 2 ^ 32 * (s.liveWord a (lo + 4)).1 else 0), false⟩
      ∧ (t.regRead32 a (lo + 4)).resp = ⟨false, (s.liveWord a (lo + 4)).1, false⟩
      ∧ (∀ k, k ≠ latchKey a (lo + 4) → (lo = 0x40070000 → k ≠ latchKey a 0x40070008) → look t.latches k 0 = look s.latches k 0)
      ∧ (lo = 0x40070000 → look t.latches (latchKey a 0x40070008) 0 = s.epoch)
      ∧ Keeps [] [] s t ∧ t = { s with regs := t.regs, latches := t.latches, arb := t.arb, resp := t.resp }))
    ∧ (lo % 8 ≠ 0 → Does (.counterLoRead a lo true) s (fun t => t.resp = ⟨true, 0, false⟩
      ∧ Changes [] [] { s with arb := t.arb, resp := ⟨true, 0, false⟩ } t))

/-- The oldest mirror write on its way lands: ISL_AON's copy of each writable field of the written register takes the value written,
a write-one-to-clear field loses the bits written 1, the write leaves the queue, and the other fields' copies stay. With the
stage dies unpowered nothing else changes but the control lines of inputs whose DC_EN is now 0, which go low. With no mirror
write on its way nothing changes. (00_scope.md, Registers (R19); 02_power_states_boot.md, Vehicle supply) -/
def Obligations.MirrorWritesLandInIslAon : Prop :=
  (∀ s : State, s.mirrorQ = [] → exec .mirrorWriteLand s = .next s)
  ∧ (∀ (s : State) (w : MirrorWr) (l : List MirrorWr), s.mirrorQ = w :: l → Does .mirrorWriteLand s (fun t => t.mirrorQ = l
      ∧ (∀ f ∈ [PWR_CFG_IGN_HOLD, PWR_CFG_DWELL, PWR_CFG_PARK_TO, PWR_WAKE_ARM, SNS_DC_DC_FILT, SNS_DC_DCPOL, SNS_DC_DC_EN, SNS_WAKE],
          t.aonGet f = if f.addr = w.addr then bits w.val f.lo f.w else s.aonGet f)
      ∧ (∀ f ∈ [PWR_WAKE_CAUSE_SRC, PWR_WAKE_CAUSE_TAMPER, PWR_WAKE_CAUSE_POR], s.aonGet f < 2 ^ f.w →
          t.aonGet f = if f.addr = w.addr then clearBits (s.aonGet f) (bits w.val f.lo f.w) else s.aonGet f)
      ∧ (s.psPowered = false → Keeps [] [] s t ∧ (∀ j, j < 24 → bit t.lines j = bit s.lines j)
          ∧ t = { s with regs := t.regs, aon := t.aon, mirrorQ := t.mirrorQ, lines := t.lines })))

/-- While the control die runs: a VBAT sample sets PWR_VBAT, VLOW below 9.00 V and VHIGH above 32.00 V; a die temperature sets
PWR_TEMP and the throttle (on above 135 °C, off below 125 °C, else held), with the level events that follow; a PLL that loses
lock clears its LOCK bit and raises event 4, one that locks again sets it. Holding the PHYs takes every port link down, with its
event where it was up, while the switch works, and changes only the hold where it does not; releasing them changes only the
hold. The module keeps what it measured beside the registers. No other field and no other state changes.
(02_power_states_boot.md, Vehicle supply (R48, R49); 02_power_states_boot.md, Events (R76, R77)) -/
def Obligations.SupplyTemperatureAndClockEvents : Prop :=
  ∀ (s : State), s.awake = true →
    (∀ v : Nat, Does (.vbatSample v) s (fun t => t.get PWR_VBAT = v % 2 ^ 16 ∧ (t.get PWR_STAT_VLOW = if v < 900 then 1 else 0)
      ∧ (t.get PWR_STAT_VHIGH = if 3200 < v then 1 else 0) ∧ (v < 900 → t.isPending 0 = true) ∧ (3200 < v → t.isPending 1 = true)
      ∧ Keeps [PWR_VBAT, PWR_STAT_VLOW, PWR_STAT_VHIGH] [] s t ∧ t = { s with regs := t.regs, pwr := { s.pwr with vbat := some v } }))
    ∧ (∀ x : Int, -32768 ≤ x → x < 32768 → Does (.controlDieTempChange x) s (fun t => signed (t.get PWR_TEMP) 16 = x
      ∧ (t.get CLK_APP_DIV_THROTTLE = if 540 < x then 1 else if x < 500 then 0 else s.get CLK_APP_DIV_THROTTLE)
      ∧ (460 < x → t.isPending 5 = true) ∧ (540 < x → t.isPending 6 = true)
      ∧ Keeps [PWR_TEMP, CLK_APP_DIV_THROTTLE] [] s t ∧ t = { s with regs := t.regs, pwr := { s.pwr with temp := some x } }))
    ∧ (∀ i : Fin 7, Does (.pllUnlock i) s (fun t =>
        (∀ j, j < 7 → bit (t.get CLK_STAT_LOCK) j = (bit (s.get CLK_STAT_LOCK) j && j != i.val)) ∧ t.isPending 4 = true
        ∧ bit t.pwr.unlocked i = true ∧ Keeps [CLK_STAT_LOCK] [4] s t
        ∧ t = { s with regs := t.regs, pwr := { s.pwr with unlocked := t.pwr.unlocked } }))
    ∧ (∀ i : Fin 7, bit s.pwr.unlocked i = true → Does (.pllRelock i) s (fun t =>
        (∀ j, j < 7 → bit (t.get CLK_STAT_LOCK) j = (bit (s.get CLK_STAT_LOCK) j || j == i.val)) ∧ bit t.pwr.unlocked i = false
        ∧ Keeps [CLK_STAT_LOCK] [] s t ∧ t = { s with regs := t.regs, pwr := { s.pwr with unlocked := t.pwr.unlocked } }))
    ∧ (Block.eth.live s = false → Does .ethPhyHold s (fun t => Keeps [] [] s t
        ∧ t = { s with regs := t.regs, pwr := { s.pwr with phyHold := true } }))
    ∧ (Block.eth.live s = true → Does .ethPhyHold s (fun t => (∀ p, p < 8 → t.on (PORT_STAT_LINK p) = false
        ∧ (s.on (PORT_STAT_LINK p) = true → t.isPending (120 + p) = true))
      ∧ Keeps (ETH_STAT :: (List.range 8).flatMap (fun p => [PORT_STAT_LINK p, PORT_STAT_SQI p, PORT_STAT_PLCA_ACT p]))
          ((List.range 8).map (120 + ·)) s t
      ∧ t = { s with regs := t.regs, pwr := { s.pwr with phyHold := true } }))
    ∧ Does .ethPhyRelease s (fun t => Keeps [] [] s t ∧ t = { s with regs := t.regs, pwr := { s.pwr with phyHold := false } })

/-- A request whose write reaches PWR_REQ is answered with code 6 while a transition is in progress, with code 1 for the current
state, with code 5 for a TARGET outside 0x1 to 0x4, and, for DUSK and CLOSED, with code 2, 3 or 4 for a channel that is on, an
open segment or IGN, in this order, each time with its TARGET and event 2. Else the transition begins: BUSY 1; SHADE raises
event 3; DUSK and CLOSED stop the recorder from accepting (REC_STAT.CLOSED). Nothing else changes. The SHADE clause is for cores
that are not all parked, the DUSK and CLOSED clause for no statement being signed. (02_power_states_boot.md, Power states (R57,
R58, R59, R79); 02_power_states_boot.md, PWR register map) -/
def Obligations.PowerStateRequests : Prop :=
  ∀ (s : State) (a : Agent), s.gate a PWR_REQ.addr true = .pass →
    let res := [PWR_RESULT_TARGET, PWR_RESULT_CODE, PWR_RESULT_STAGE_LOST]
    let shows (target code : Nat) (t : State) : Prop := t.get PWR_RESULT_TARGET = target ∧ t.get PWR_RESULT_CODE = code
      ∧ t.get PWR_RESULT_STAGE_LOST = 0 ∧ t.isPending 2 = true ∧ Writes res [2] s t
    (∀ x : Fin 16, (x = 0 ∨ 4 < x.val) → Does (.pwrReqInvalid a x) s (shows x (if s.on PWR_STAT_BUSY then 6 else 5)))
    ∧ (∀ p ∈ ([(.pwrReqOpen a, 1), (.pwrReqShade a, 2), (.pwrReqDusk a, 3), (.pwrReqClosed a, 4)] : List (Instr × Nat)),
        (s.on PWR_STAT_BUSY = true → Does p.1 s (shows p.2 6))
        ∧ (s.on PWR_STAT_BUSY = false → s.get PWR_STATE_CUR = p.2 → Does p.1 s (shows p.2 1)))
    ∧ (s.on PWR_STAT_BUSY = false → s.get PWR_STATE_CUR ≠ 1 → Does (.pwrReqOpen a) s (fun t => t.get PWR_STAT_BUSY = 1
        ∧ Keeps [PWR_STAT_BUSY] [] s t ∧ t = { s with regs := t.regs, arb := t.arb, resp := ⟨false, 0, false⟩, pwr := { s.pwr with target := 1 } }))
    ∧ (s.on PWR_STAT_BUSY = false → s.get PWR_STATE_CUR ≠ 2 → s.get PWR_APP_PARK ≠ 15 →
        Does (.pwrReqShade a) s (fun t => t.get PWR_STAT_BUSY = 1 ∧ t.isPending 3 = true ∧ Keeps [PWR_STAT_BUSY] [3] s t
          ∧ t = { s with regs := t.regs, arb := t.arb, resp := ⟨false, 0, false⟩, pwr := { s.pwr with target := 2 } }))
    ∧ (∀ p ∈ ([(.pwrReqDusk a, 3), (.pwrReqClosed a, 4)] : List (Instr × Nat)),
        s.on PWR_STAT_BUSY = false → s.get PWR_STATE_CUR ≠ p.2 →
        (s.channelOn = true → Does p.1 s (shows p.2 2))
        ∧ (s.channelOn = false → s.segmentOpen = true → Does p.1 s (shows p.2 3))
        ∧ (s.channelOn = false → s.segmentOpen = false → s.aonGet PWR_CFG_IGN_HOLD = 1 → s.pwr.ign = true → Does p.1 s (shows p.2 4))
        ∧ (s.channelOn = false → s.segmentOpen = false → (s.aonGet PWR_CFG_IGN_HOLD ≠ 1 ∨ s.pwr.ign = false) →
            s.on REC_STAT_STMT_BUSY = false →
            Does p.1 s (fun t => t.get PWR_STAT_BUSY = 1 ∧ t.get REC_STAT_CLOSED = 1 ∧ Keeps [PWR_STAT_BUSY, REC_STAT_CLOSED] [] s t
              ∧ t = { s with
                  regs := t.regs, arb := t.arb, resp := ⟨false, 0, false⟩
                  pwr := { s.pwr with target := p.2, phase := .down1, back := s.pwr.phase } })))

/-- A core's write to PWR_APP_PARK that reaches it sets its own bit where written 1, and no other bit; another initiator's write
sets none. While the cores are parking, the write that completes the four bits, and the park timeout (with PARK_FORCED), end the
transition: CUR SHADE, BUSY 0, result code 1 with event 2, the cores' state lost. The exit from SHADE in progress ends with CUR
OPEN, every core held, no core parked, result code 1 with event 2, and nothing else changed. (02_power_states_boot.md, Power
states (R55, R59); 02_power_states_boot.md, PWR register map) -/
def Obligations.ShadeIsEnteredAndLeft : Prop :=
  let shaded (t : State) : Prop := t.get PWR_STATE_CUR = 2 ∧ t.get PWR_STAT_BUSY = 0 ∧ t.get PWR_RESULT_TARGET = 2
    ∧ t.get PWR_RESULT_CODE = 1 ∧ t.isPending 2 = true ∧ t.pwr.appOff = true ∧ (∀ n, n < 4 → look t.harts (8 + n) ⟨[], false, false, false⟩ = ⟨[], false, false, false⟩)
    ∧ t.haltedHarts < 256
  (∀ (s : State) (a : Agent) (v : Word), s.gate a PWR_APP_PARK.addr true = .pass →
    (∀ n : Fin 4, a = .core n →
      let m := orBits (s.get PWR_APP_PARK) (if bit v.toNat n then 2 ^ n.val else 0) % 16
      (s.parking = false → s.get PWR_APP_PARK < 16 → Does (.appPark a v) s (fun t => t.get PWR_APP_PARK = m ∧ Writes [PWR_APP_PARK] [] s t))
      ∧ (s.parking = true → s.get PWR_APP_PARK < 16 → m = 15 → Does (.appPark a v) s shaded))
    ∧ ((∀ n : Fin 4, a ≠ .core n) → Does (.appPark a v) s (Writes [] [] s)))
  ∧ (∀ s : State, s.awake = true → s.parking = true →
      Does .parkTimeout s (fun t => shaded t ∧ t.get PWR_STAT_PARK_FORCED = 1))
  ∧ (∀ s : State, s.awake = true → s.on PWR_STAT_BUSY = true → s.pwr.target = 1 →
      Does .shadeExitComplete s (fun t => t.get PWR_STATE_CUR = 1 ∧ t.get PWR_STAT_BUSY = 0 ∧ t.get RST_APP = 15
        ∧ t.get PWR_APP_PARK = 0 ∧ t.get PWR_RESULT_TARGET = 1 ∧ t.get PWR_RESULT_CODE = 1 ∧ t.isPending 2 = true
        ∧ Keeps [PWR_STATE_CUR, PWR_STAT_BUSY, RST_APP, PWR_APP_PARK, PWR_RESULT_TARGET, PWR_RESULT_CODE, PWR_RESULT_STAGE_LOST] [2] s t
        ∧ t = { s with regs := t.regs, pwr := { s.pwr with appOff := false, target := 0 } }))

/-- Step 1 of a power-down, once no hand-over runs, ends with every stage link DOWN, LINK_EN, HB_EN and LT_RUN 0 and the far dies
without supply. The steps after it end in CLOSED or DUSK as asked, the control die not running, CLK_AON_CAL stored, the sleep
counter 0, MRAM and NOR kept, all other memory and the queue as the model's reset has them. A wake source that is armed (in
CLOSED, and in a power-down to CLOSED, only a local input) records its bit; during step 1 it cancels the power-down with code 7
and event 2, after step 1 too, with STAGE_LOST and the stage dies powered again; in sleep it adds the ticks and starts a wake:
cause WAKE, PREV the state left. The dwell expiry takes DUSK to CLOSED and counts its ticks. Any other source changes nothing
but the state of IGN. (02_power_states_boot.md, Power states (R55, R60, R61, R62, R63); 02_power_states_boot.md, Resets (R83)) -/
def Obligations.PowerDownSleepAndWake : Prop :=
  ∀ (s : State),
    (s.pwr.phase = .down1 → s.on WLD_HO_STAT_BUSY = false → ∀ cal : Nat, Does (.powerdownContinue cal) s (fun t =>
        t.pwr.phase = .down2 ∧ t.pwr.stageOn = false ∧ t.pwr.mdOn = false ∧ t.get PWR_STAT_STAGE_PWR = 0 ∧ t.get PWR_STAT_MD_PWR = 0
        ∧ t.get BRG_CTL_LINK_EN = 0 ∧ t.get BRG_CTL_HB_EN = 0 ∧ t.get LCC_CTL_LT_RUN = 0 ∧ (∀ d, d < 5 → t.link d = 0)))
    ∧ (s.pwr.phase = .down2 → ∀ cal : Nat, Does (.powerdownContinue cal) s (fun t =>
        t.pwr.phase = (if s.pwr.target = 4 then .closed else .dusk) ∧ t.awake = false ∧ t.get CLK_AON_CAL = cal % 2 ^ 16
        ∧ t.get PWR_SLEEP_LO = 0 ∧ t.get PWR_SLEEP_HI = 0 ∧ t.pending = s.pending ∧ t.otp = s.otp ∧ t.mirrorQ = []
        ∧ (∀ b : Nat, t.readByte b = if b < 0x20000000 ∨ (0x30000000 ≤ b ∧ b < 0x38000000) then s.readByte b else 0)))
    ∧ (∀ (src : Fin 23) (n : Nat),
        let u := { s with pwr := { s.pwr with ign := s.pwr.ign || src.val == 22 } }
        let ticks := s.get64 PWR_SLEEP_LO PWR_SLEEP_HI + n
        let cause := orBits (s.aonGet PWR_WAKE_CAUSE_SRC) (2 ^ src.val) % 2 ^ 23
        (s.pwr.phase = .down1 → s.wakes src (s.pwr.target == 4) = true → Does (.aonWakeSource src n) s (fun t =>
            t.pwr = { u.pwr with phase := s.pwr.back, target := 0 } ∧ t.get REC_STAT_CLOSED = 0 ∧ t.get PWR_STAT_BUSY = 0
            ∧ t.get PWR_RESULT_CODE = 7 ∧ t.get PWR_RESULT_STAGE_LOST = 0 ∧ (t.awake = true → t.isPending 2 = true)
            ∧ t.aonGet PWR_WAKE_CAUSE_SRC = cause
            ∧ t.get PWR_WAKE_CAUSE_SRC = orBits (s.get PWR_WAKE_CAUSE_SRC) (2 ^ src.val) % 2 ^ 23
            ∧ Keeps [PWR_WAKE_CAUSE_SRC, REC_STAT_CLOSED, PWR_STAT_BUSY, PWR_RESULT_TARGET, PWR_RESULT_CODE, PWR_RESULT_STAGE_LOST] [2] s t
            ∧ t = { s with regs := t.regs, aon := t.aon, pwr := t.pwr }))
        ∧ (s.pwr.phase = .down2 → s.wakes src (s.pwr.target == 4) = true → Does (.aonWakeSource src n) s (fun t =>
            t.pwr.phase = s.pwr.back ∧ t.pwr.stageOn = true ∧ t.get PWR_RESULT_CODE = 7 ∧ t.get PWR_RESULT_STAGE_LOST = 1
            ∧ t.get PWR_STAT_BUSY = 0 ∧ t.get REC_STAT_CLOSED = 0))
        ∧ (s.pwr.phase = .dusk ∨ s.pwr.phase = .closed → s.mirrorQ = [] → s.wakes src (s.pwr.phase == .closed) = true →
            Does (.aonWakeSource src n) s (fun t => t.pwr.phase = .converters ∧ t.get RST_CAUSE_WAKE = 1
              ∧ (t.get PWR_STATE_PREV = if s.pwr.phase = .closed then 4 else 3) ∧ t.aonGet PWR_WAKE_CAUSE_SRC = cause
              ∧ t.aonGet PWR_SLEEP_LO = ticks % 2 ^ 32 ∧ t.aonGet PWR_SLEEP_HI = ticks / 2 ^ 32 % 2 ^ 32
              ∧ t.get CLK_AON_CAL = s.get CLK_AON_CAL ∧ t.pending = s.pending ∧ t.otp = s.otp))
        ∧ ((∀ closed : Bool, s.wakes src closed = false) ∨ s.awake = false ∧ s.pwr.phase ≠ .dusk ∧ s.pwr.phase ≠ .closed →
            Does (.aonWakeSource src n) s (Changes [] [] u)))
    ∧ (s.pwr.phase = .dusk → s.aonGet PWR_CFG_DWELL ≠ 0 → ∀ n : Nat, Does (.dwellExpiry n) s (fun t =>
        let ticks := s.get64 PWR_SLEEP_LO PWR_SLEEP_HI + n
        t.get PWR_SLEEP_LO = ticks % 2 ^ 32 ∧ t.get PWR_SLEEP_HI = ticks / 2 ^ 32 % 2 ^ 32 ∧ Keeps [PWR_SLEEP_LO, PWR_SLEEP_HI] [] s t
        ∧ t = { s with regs := t.regs, aon := t.aon, pwr := { s.pwr with phase := .closed } }))

/-- From power-on the release starts the converters with the PHYs held and cause POR; converters in regulation power the stage dies;
the OTP load sets the zone code, LOADED and, from a clean strap row, the straps, from an uncorrectable one the defaults 0x70
with DEFAULTS 1; zero fill leaves SRAM and the lanes' TCM zero with clean codewords and MRAM as it was, and SG0 in the boot ROM,
or in hold on a boot alarm. The boot ROM jumps to the image of the one bank its strap names where that verifies, with BANK_USED,
and holds where an alarm is shown or, out of RAW, no signature is good. DRAM_READY zeroes DRAM once and sets DRAM_RDY.
(02_power_states_boot.md, Start-up (R65, R66, R67, R68, R71, R72)) -/
def Obligations.StartUpRunsThroughItsPhases : Prop :=
  ∀ (s : State),
    (s.pwr.phase = .off → Does .powerOnRelease s (fun t => t.get RST_CAUSE_POR = 1 ∧ Keeps [RST_CAUSE_POR] [] s t
      ∧ t = { s with regs := t.regs, pwr := { s.pwr with phase := .converters, phyHold := true } }))
    ∧ (s.pwr.phase = .converters → Does .convertersInRegulation s (fun t => t.pwr = { s.pwr with phase := .clocking, stageOn := true }
        ∧ t.get PWR_STAT_STAGE_PWR = 1 ∧ t.mem = s.mem ∧ t.syn = s.syn ∧ t.otp = s.otp
        ∧ (∀ f : Fld, pendFld f = false → f.key ≠ PWR_STAT_STAGE_PWR.key → f.key < 0x50000000 * 32 → t.get f = s.get f)))
    ∧ (s.pwr.phase = .clocking → ∀ z : Fin 8, Does (.otpLoad z) s (fun t => t.pwr.phase = .zeroFill ∧ t.get SYS_ZONE = z
        ∧ t.get SYS_STRAP_STAT_LOADED = 1 ∧ t.get CLK_STAT_REF_OK = 1 ∧ t.get CLK_STAT_LOCK = 0x7F ∧ t.get SYS_LC_STATE = s.lifecycle
        ∧ (s.otp.strapSyn = 0 → t.get SYS_STRAP_SG0_MODE = bits s.otp.strap 0 2 ∧ t.get SYS_STRAP_SG1_MODE = bits s.otp.strap 2 2
            ∧ t.get SYS_STRAP_BOOT_BANK = bits s.otp.strap 4 2 ∧ t.get SYS_STRAP_MD_EN = bits s.otp.strap 6 1
            ∧ t.get SYS_STRAP_STAT_CORRECTED = 0 ∧ t.get SYS_STRAP_STAT_DEFAULTS = 0
            ∧ (bits s.otp.strap 2 2 = 2 → t.get (VOTE_STAT_MODE 1) = 1)
            ∧ (bits s.otp.strap 0 2 = 2 → 2 ≤ s.lifecycle →
                t.get SYS_STRAP_STAT_SG0_FORCED = 1 ∧ t.get (VOTE_STAT_MODE 0) = s.get (VOTE_STAT_MODE 0)))
        ∧ (classify s.otp.strapSyn = .uncorrectable → t.get SYS_STRAP_STAT_DEFAULTS = 1 ∧ t.get SYS_STRAP_SG0_MODE = 0
            ∧ t.get SYS_STRAP_SG1_MODE = 0 ∧ t.get SYS_STRAP_BOOT_BANK = 3 ∧ t.get SYS_STRAP_MD_EN = 1)))
    ∧ (s.pwr.phase = .zeroFill → Does .zeroFillComplete s (fun t =>
        (t.pwr.phase = if s.get KEY_TAMPER_BOOT = 0 then .bootRom else .hold)
        ∧ (∀ b : Nat, 0x21000000 ≤ b → b < 0x21400000 → t.readByte b = 0 ∧ t.synOf (b / 16) = 0)
        ∧ (∀ k b : Nat, k < 3 → (0x20000000 ≤ b ∧ b < 0x20080000) ∨ (0x20100000 ≤ b ∧ b < 0x20180000) →
            t.readByte (arrayAddr k b) = 0 ∧ t.synOf (arrayAddr k b / 16) = 0)
        ∧ (∀ b : Nat, 0x10000000 ≤ b → b < 0x11000000 → t.readByte b = s.readByte b ∧ t.synOf (b / 16) = s.synOf (b / 16))))
    ∧ (s.pwr.phase = .bootRom → ∀ sigA sigB : Bool,
        (s.get KEY_TAMPER_BOOT ≠ 0 → Does (.bootRomStart sigA sigB) s (fun t => t.pwr = { s.pwr with phase := .hold } ∧ Keeps [] [] s t))
        ∧ (s.lifecycle ≠ 0 → sigA = false → sigB = false → Does (.bootRomStart sigA sigB) s (fun t => t.pwr.phase = .hold))
        ∧ (s.get KEY_TAMPER_BOOT = 0 → s.get SYS_STRAP_BOOT_BANK = 1 → (s.tryBank 0x30000000 sigA).1 = true →
            Does (.bootRomStart sigA sigB) s (fun t => t.pwr.phase = .run ∧ t.get SYS_STRAP_STAT_BANK_USED = 0))
        ∧ (s.get KEY_TAMPER_BOOT = 0 → s.get SYS_STRAP_BOOT_BANK = 2 → (s.tryBank 0x34000000 sigB).1 = true →
            Does (.bootRomStart sigA sigB) s (fun t => t.pwr.phase = .run ∧ t.get SYS_STRAP_STAT_BANK_USED = 1)))
    ∧ (s.awake = true → s.on PWR_STAT_DRAM_RDY = false → Does .dramReady s (fun t => t.get PWR_STAT_DRAM_RDY = 1
        ∧ (∀ b : Nat, t.readByte b = if 0x100000000 ≤ b ∧ b < 0x1E0000000 then 0 else s.readByte b)
        ∧ Keeps [PWR_STAT_DRAM_RDY] [] s t ∧ t = { s with regs := t.regs, mem := t.mem, syn := t.syn }))

/-- Power-on reset leaves every field at its reset value, MRAM and NOR kept. A watchdog reset, the software reset 0xC0DE and a wrong
kick, outside the boot ROM's hold state, leave start-up at the locking of the PLLs, their cause bit 1 and the other cause bits,
all memory, OTP and the metering die as before, and the control blocks at reset. The kick 0xA5 takes back the warning; the
warning raises event 7 once. A written bit of RST_BLK0 whose block the writer's world owns, outside a hand-over, resets that
block's registers (all but SNS's mirrors and the epoch). A held core loses its state and its debug halt. Nothing else changes in
the kick, the warning and the core reset. (02_power_states_boot.md, Resets (R73, R74, R75, R83); 02_power_states_boot.md, RST
register map) -/
def Obligations.ResetsReachWhatTheTableGives : Prop :=
  ∀ (s : State),
    let restarted (cause : Fld) (t : State) : Prop := t.pwr.phase = .clocking ∧ t.awake = false ∧ t.get cause = 1 ∧ t.pending = s.pending
      ∧ (∀ b : Nat, t.readByte b = s.readByte b) ∧ t.otp = s.otp ∧ t.md = s.md
      ∧ (∀ f ∈ [RST_CAUSE_POR, RST_CAUSE_WAKE, RST_CAUSE_WDT, RST_CAUSE_SYS_SW, RST_CAUSE_DBG], f ≠ cause → t.get f = s.get f)
      ∧ (∀ f : Fld, 0x40010000 * 32 ≤ f.key → f.key < 0x400B0000 * 32 → t.get f = f.reset)
    Does .powerOnReset s (fun t => t.pwr.phase = .off ∧ t.awake = false ∧ t.pending = s.pending ∧ t.otp = s.otp ∧ t.zone = 0
      ∧ (∀ f : Fld, f.key ≠ PWR_STAT_STAGE_PWR.key → f.key ≠ PWR_STAT_MD_PWR.key → t.get f = f.reset)
      ∧ (∀ b : Nat, t.readByte b = if b < 0x20000000 ∨ (0x30000000 ≤ b ∧ b < 0x38000000) then s.readByte b else 0))
    ∧ (s.awake = true → s.on RST_WDT_CFG_EN = true → (s.pwr.phase ≠ .hold → Does .watchdogReset s (restarted RST_CAUSE_WDT))
        ∧ (s.pwr.wdtWarned = false → Does .wdtWarn s (fun t => t.isPending 7 = true ∧ Keeps [] [7] s t
            ∧ t = { s with regs := t.regs, pwr := { s.pwr with wdtWarned := true } })))
    ∧ (∀ a : Agent, s.gate a RST_SYS.addr true = .pass → (s.pwr.phase ≠ .hold → Does (.systemSwReset a 0xC0DE) s (restarted RST_CAUSE_SYS_SW))
        ∧ (∀ v : Word, v ≠ 0xC0DE → Does (.systemSwReset a v) s (Writes [] [] s)))
    ∧ (∀ a : Agent, s.gate a RST_WDT_KICK.addr true = .pass → ∀ v : Word,
        (s.on RST_WDT_CFG_EN = true → v ≠ 0xA5 → s.pwr.phase ≠ .hold → Does (.wdtKick a v) s (restarted RST_CAUSE_WDT))
        ∧ (s.on RST_WDT_CFG_EN = true → Does (.wdtKick a 0xA5) s (fun t => Keeps [] [] s t
            ∧ t = { s with regs := t.regs, arb := t.arb, resp := ⟨false, 0, false⟩, pwr := { s.pwr with wdtWarned := false, wdtLeft := none } }))
        ∧ (s.on RST_WDT_CFG_EN = false → Does (.wdtKick a v) s (Writes [] [] s)))
    ∧ (∀ (a : Agent) (v : Word) (i : Nat) (b : Block), s.gate a RST_BLK0_NMW.addr true = .pass → i ∈ s.ownedBits a → bit v.toNat i = true →
        (∀ j, j < 23 → j ≠ i → bit v.toNat j = false) → blockOfBit i = some b → b ≠ .sns →
        Does (.blockReset a v) s (fun t => t.resp = ⟨false, 0, false⟩ ∧ ∀ f : Fld, b.base * 32 ≤ f.key → f.key < (b.base + b.size) * 32 →
          f.key ≠ TIME_STAT_EPOCH.key → t.get f = f.reset))
    ∧ (∀ (a : Agent) (v : Word), s.gate a RST_APP.addr true = .pass → Does (.appCoreReset a v) s (fun t => t.get RST_APP = v.toNat % 16
        ∧ (∀ n, n < 4 → bit v.toNat n = true → bit t.haltedHarts (8 + n) = false
            ∧ look t.harts (8 + n) ⟨[], false, false, false⟩ = ⟨[], false, false, false⟩)
        ∧ (∀ n, n < 8 → bit t.haltedHarts n = bit s.haltedHarts n) ∧ Keeps [RST_APP] [] s t
        ∧ t = { s with
            regs := t.regs, arb := t.arb, resp := ⟨false, 0, false⟩, harts := t.harts, haltedHarts := t.haltedHarts
            dbg := { s.dbg with dm := t.dbg.dm } }))

/-- A Secure write that reaches CLK_ISL_GATE leaves both gate bits as written. A Secure write that reaches CLK_BLK_GATE leaves each
bit of a block that the Secure world owns, and that no hand-over holds, as written, and every other bit as it was; where the
stage dies are unpowered and the PHYs are not held, nothing else changes. (02_power_states_boot.md, CLK register map (R80, R81);
16_worlds_debug.md, Target checks (R493)) -/
def Obligations.ClockGatesMove : Prop :=
  ∀ (s : State) (a : Agent) (v : Word), isNormal a s = false →
    (s.gate a CLK_ISL_GATE_APP.addr true = .pass → Does (.clockGate a true v) s (fun t => t.get CLK_ISL_GATE_APP = bits v.toNat 1 1
      ∧ t.get CLK_ISL_GATE_SG1 = bits v.toNat 0 1 ∧ Keeps [CLK_ISL_GATE_APP, CLK_ISL_GATE_SG1] [] s t
      ∧ t = { s with regs := t.regs, arb := t.arb, resp := ⟨false, 0, false⟩, pwr := { s.pwr with sg1GateDue := t.pwr.sg1GateDue } }))
    ∧ (s.gate a CLK_BLK_GATE.addr true = .pass → Does (.clockGate a false v) s (fun t => t.resp = ⟨false, 0, false⟩
      ∧ (∀ i, i < 23 → bit (t.get CLK_BLK_GATE) i = if i ∈ s.ownedBits a then bit v.toNat i else bit (s.get CLK_BLK_GATE) i)
      ∧ (s.psPowered = false → s.pwr.phyHold = false → Writes [CLK_BLK_GATE] [] s t)))

/-- For a live VOTED group below its thresholds, with nothing to take up, in a cycle in which no instruction retires: three lanes
that agree on no request change nothing but the counts of cycles; on a word write to SRAM that no check refuses, the word is
stored, no other byte, its old word is appended to the undo log and one write counted. One lane that differs from two others
without a request is MASKED (FAILED at FAIL_LIMIT), counted and captured with the cycle, the group DUPLEX, event 16 + 4g. Two or
three lanes that disagree restart the group: GROUP RESTART, the release queue dropped, both restart counters one up, event 24 +
g; at RESTART_LIMIT consecutive restarts it is HALTED. Nothing else changes. The outputs compared are those of laneOut, with the
fabric address. (03_voted_lane_groups.md, Stagger and voting (R91, R92, R93, R94); 03_voted_lane_groups.md, Lane status (R106,
R108); 03_voted_lane_groups.md, Group states (R111); 04_checkpoint_recovery_lane_test.md, Undo log (R134, R136, R140)) -/
def Obligations.VoterActsOnTheActiveLanes : Prop :=
  ∀ (s : State) (g : Fin 2) (cyc : Nat), s.groupRuns g = true → s.lanesQuiet = true → (s.grp g).started = true → s.groupLive g = true →
    s.debugHalted g = false → (s.grp g).step = .live → (s.grp g).undo.length < 1791 → (s.grp g).relq.length < 56 →
    let lanes := [VOTE_STAT_LANE0 g, VOTE_STAT_LANE1 g, VOTE_STAT_LANE2 g, VOTE_STAT_GROUP g]
    let mm := [VOTE_MM_INFO_VALID g, VOTE_MM_INFO_KIND g, VOTE_MM_INFO_LANES g, VOTE_MM_INFO_FIELDS g, VOTE_MM_ADDR_LO g, VOTE_MM_ADDR_HI g,
      VOTE_MM_CYC_LO g, VOTE_MM_CYC_HI g]
    (∀ o : LaneOut, s.active g = [0, 1, 2] → o.tcmValid = false → o.own = none →
      (o.valid = false → Does (.laneGroupStep g o o o none cyc) s (fun t => (t.grp g).cycle = (s.grp g).cycle + cyc
        ∧ t.hartReg (4 * g) 0xB00 + 2 ^ 32 * t.hartReg (4 * g) 0xB80
            = (s.hartReg (4 * g) 0xB00 + 2 ^ 32 * s.hartReg (4 * g) 0xB80 + cyc) % 2 ^ 64
        ∧ (t.grp g).undo = (s.grp g).undo ∧ (t.grp g).relq = (s.grp g).relq
        ∧ Keeps [] [] s t ∧ t = { s with regs := t.regs, groups := t.groups, harts := t.harts }))
      ∧ (o.valid = true → o.write = true → o.strobes = 0xF → o.addr % 16 = 0 → 0x21000000 ≤ o.addr → o.addr < 0x21400000 →
          s.fabStalls = false → s.memGate (.lane g 0) true o.addr 4 = none → s.synOf (o.addr / 16) = 0 →
          Does (.laneGroupStep g o o o none cyc) s (fun t => t.readBytes o.addr 4 = leBytes 4 o.data
            ∧ (∀ b, b < o.addr ∨ o.addr + 4 ≤ b → t.readByte b = s.readByte b) ∧ (∀ w, t.synOf w = s.synOf w)
            ∧ (t.grp g).undo = (s.grp g).undo ++ [⟨2, 0, o.addr, leNat (s.readBytes o.addr 4), false⟩]
            ∧ (t.grp g).writes = (s.grp g).writes + 1 ∧ t.resp = ⟨false, 0, false⟩
            ∧ Keeps [IST_CKPT_STAT_UNDO g, IST_CKPT_STAT_RELQ g] [] s t
            ∧ t = { s with
                regs := t.regs, mem := t.mem, syn := t.syn, groups := t.groups, harts := t.harts, arb := t.arb, resp := t.resp })))
    ∧ (∀ (o x : LaneOut) (k : Fin 3), s.active g = [0, 1, 2] → o.valid = false → o.tcmValid = false → o.own = none → x.own = none →
        let diff := outDiff (s.laneOut g k o) (s.laneOut g k x)
        let n := (s.grp g).masks.getD k 0 + 1
        let limit := s.get (VOTE_CFG_FAIL_LIMIT g)
        diff ≠ 0 → Does (.laneGroupStep g (if k = 0 then x else o) (if k = 1 then x else o) (if k = 2 then x else o) none cyc) s (fun t =>
          (t.lane g k = if limit ≠ 0 ∧ limit ≤ n then 4 else 1) ∧ t.group g = 1
          ∧ t.get (maskFld g k) = satInc (s.get (maskFld g k)) (maskFld g k).w ∧ t.isPending (16 + 4 * g) = true
          ∧ (s.on (VOTE_MM_INFO_VALID g) = false → t.get (VOTE_MM_INFO_VALID g) = 1 ∧ t.get (VOTE_MM_INFO_KIND g) = 1
              ∧ t.get (VOTE_MM_INFO_LANES g) = 2 ^ k.val ∧ t.get (VOTE_MM_INFO_FIELDS g) = diff % 64
              ∧ t.get64 (VOTE_MM_CYC_LO g) (VOTE_MM_CYC_HI g) = ((s.grp g).cycle + cyc) % 2 ^ 64)
          ∧ Keeps (maskFld g k :: lanes ++ mm) [16 + 4 * g] s t
          ∧ t = { s with regs := t.regs, groups := t.groups, harts := t.harts }))
    ∧ (∀ (a b c : LaneOut) (retired : Option (List (Nat × Nat))) (f : Nat), a.own = none → b.own = none → c.own = none →
        let v := voteOf (([((0 : Nat), a), (1, b), (2, c)].filter (fun p => s.lane g p.1 == 0)).map (fun p => (p.1, s.laneOut g p.1 p.2)))
        (v = .duplex f ∨ v = .triple f) → s.get IST_STAT_ITEM ≠ g.val + 1 →
        let limit := max 1 (s.get (VOTE_CFG_RESTART_LIMIT g))
        (s.get (VOTE_RESTART_CNT_CONSEC g) < limit → Does (.laneGroupStep g a b c retired cyc) s (fun t => t.group g = 3
          ∧ (t.grp g).step = .resetting ∧ (t.grp g).relq = [] ∧ (t.grp g).undo = (s.grp g).undo ∧ t.isPending (24 + g) = true
          ∧ t.get (VOTE_RESTART_CNT_CONSEC g) = satInc (s.get (VOTE_RESTART_CNT_CONSEC g)) 4
          ∧ t.get (VOTE_RESTART_CNT_TOTAL g) = satInc (s.get (VOTE_RESTART_CNT_TOTAL g)) 16
          ∧ (s.on (VOTE_MM_INFO_VALID g) = false → t.get (VOTE_MM_INFO_KIND g) = if v = .duplex f then 2 else 3)
          ∧ Keeps ([VOTE_STAT_GROUP g, VOTE_RESTART_CNT_CONSEC g, VOTE_RESTART_CNT_TOTAL g, IST_CKPT_STAT_UNDO g,
              IST_CKPT_STAT_RELQ g] ++ mm) [24 + g] s t ∧ t = { s with regs := t.regs, groups := t.groups, harts := t.harts }))
        ∧ (limit ≤ s.get (VOTE_RESTART_CNT_CONSEC g) → Does (.laneGroupStep g a b c retired cyc) s (fun t => t.group g = 4
          ∧ t.isPending (19 + 4 * g) = true ∧ Keeps (VOTE_STAT_GROUP g :: mm) [] s t
          ∧ t = { s with regs := t.regs, groups := t.groups, harts := t.harts })))

/-- For a live TRIPLEX group below its thresholds with nothing to take up: the delivered interrupt line is the EVC's as two or three
captures say, a split capture counting in VOTE_AGREE_SKEW, and drives mip.MEIP; the response that waits at the port is delivered
and appends a READ entry, also where one lane's capture fails, which counts in its HELD counter and raises event 17 + 4g; an
error response or an uncorrectable word is an access fault of every lane; a read of time gives zone time and epoch and appends a
TIME entry. A debug halt that is asked for puts the group into debug mode with a commit. A running SPLIT lane and a running core
read zone time and epoch at once; a timer comparison whose time has come or can be reached fires once, pending in mip. Nothing
else changes. The cause codes and the CSR numbers are the published RISC-V ones, a choice of the model (log entry 172).
(03_voted_lane_groups.md, Agreement port (R98, R99, R100, R101, R103, R104, R105); 04_checkpoint_recovery_lane_test.md, Undo log
(R135); 05_application_cluster_virtual_functions.md, Application cores (R162, R163)) -/
def Obligations.AgreementPortDeliversAndLogs : Prop :=
  (∀ (s : State) (g : Fin 2), s.groupRuns g = true → s.lanesQuiet = true → (s.grp g).started = true → s.groupLive g = true →
    s.debugHalted g = false → (s.grp g).step = .live → (s.grp g).undo.length < 1791 → (s.grp g).relq.length < 56 → s.active g = [0, 1, 2] →
    let logs := [IST_CKPT_STAT_UNDO g, IST_CKPT_STAT_RELQ g]
    (∀ late : Fin 8,
      let m := b2n (bit late 0) + b2n (bit late 1) + b2n (bit late 2)
      let old := (s.grp g).line
      let new := if 2 ≤ m then old else s.irqLine g
      Does (.agreementArrival g (.line late)) s (fun t => (t.grp g).line = new ∧ bit (t.mip (4 * g)) 11 = new
        ∧ (t.get (VOTE_AGREE_SKEW g) = if s.irqLine g ≠ old ∧ (m = 1 ∨ m = 2) then satInc (s.get (VOTE_AGREE_SKEW g)) 32
            else s.get (VOTE_AGREE_SKEW g))
        ∧ ((t.grp g).undo.length = (s.grp g).undo.length + if new = old then 0 else 1)
        ∧ Keeps (VOTE_AGREE_SKEW g :: logs) [] s t ∧ t = { s with regs := t.regs, groups := t.groups }))
    ∧ (∀ p : PortRead, (s.grp g).port = some p → isRom p.addr = false →
        let bad := p.err || p.fault
        let entry : UndoEnt := ⟨3, b2n bad + 2 * b2n p.fetch, p.addr / 4 * 4, if bad then 0 else alignedWord p.addr p.data, false⟩
        let gives (t : State) : Prop := (t.grp g).undo = (s.grp g).undo ++ [entry] ∧ (t.grp g).port = none
          ∧ (t.resp = if bad then ⟨true, 0, false⟩ else ⟨false, p.data, false⟩)
          ∧ (bad = true → t.hartReg (4 * g) 0x342 = faultCause p.fetch false ∧ t.hartReg (4 * g) 0x343 = p.lane
              ∧ t.hartReg (4 * g) 0x341 = s.hartReg (4 * g) 0x7B1)
          ∧ (bad = false → t.harts = s.harts)
        Does (.agreementArrival g (.read 0)) s (fun t => gives t ∧ Keeps logs [] s t
          ∧ t = { s with regs := t.regs, groups := t.groups, harts := t.harts, resp := t.resp })
        ∧ (∀ (k : Fin 3) (late : Fin 8), late.val = 2 ^ k.val →
            Does (.agreementArrival g (.read late)) s (fun t => gives t ∧ t.isPending (17 + 4 * g) = true
              ∧ t.get (heldFld g k) = satInc (s.get (heldFld g k)) 8
              ∧ Keeps ([heldFld g k, VOTE_AGREE_INFO_VALID g, VOTE_AGREE_INFO_LANE g, VOTE_AGREE_INFO_SOURCE g] ++ logs) [17 + 4 * g] s t
              ∧ t = { s with regs := t.regs, groups := t.groups, harts := t.harts, resp := t.resp })))
    ∧ (∀ n : Fin 3, Does (.laneTimeRead g n 0) s (fun t => t.hartReg (4 * g) 0xC01 = s.zone % 2 ^ 32
        ∧ t.hartReg (4 * g) 0xC81 = s.zone / 2 ^ 32 % 2 ^ 32 ∧ t.hartReg (4 * g) 0xCC0 = s.epoch % 2 ^ 16
        ∧ (t.grp g).undo = (s.grp g).undo ++ [⟨4, s.epoch, 0, s.zone, false⟩]
        ∧ Keeps logs [] s t ∧ t = { s with regs := t.regs, groups := t.groups, harts := t.harts })))
  ∧ (∀ (s : State) (g : Fin 2) (late : Fin 8), s.groupRuns g = true → (s.grp g).started = true → s.groupLive g = true →
      s.debugHalted g = false → s.active g = [0, 1, 2] → s.dbg.asks = 2 ^ g.val → (s.grp 0).window = false → (s.grp 1).window = false →
      (s.grp g).halt = false → (s.grp g).relq = [] → s.get IST_STAT_ITEM ≠ 5 → s.pwr.sg1GateDue = false →
      let m := b2n (bit late 0) + b2n (bit late 1) + b2n (bit late 2)
      Does (.agreementArrival g (.halt late)) s (fun t => t.debugHalted g = true ∧ (t.grp g).halt = true ∧ t.dbg.asks = 0
        ∧ (t.get (VOTE_AGREE_SKEW g) = if m = 1 ∨ m = 2 then satInc (s.get (VOTE_AGREE_SKEW g)) 32 else s.get (VOTE_AGREE_SKEW g))
        ∧ (t.get (IST_CKPT_STAT_HALF g) = if s.on (IST_CKPT_STAT_HALF g) then 0 else 1)))
  ∧ (∀ (s : State) (g : Fin 2) (n : Fin 3) (bad : Fin 8), s.groupRuns g = true → s.lanesQuiet = true → s.isSplit g = true →
      s.hartRuns (4 * g + n) = true → Does (.laneTimeRead g n bad) s (fun t => t.hartReg (4 * g + n) 0xC01 = s.zone % 2 ^ 32
        ∧ t.hartReg (4 * g + n) 0xC81 = s.zone / 2 ^ 32 % 2 ^ 32 ∧ t.hartReg (4 * g + n) 0xCC0 = s.epoch % 2 ^ 16
        ∧ Keeps [] [] s t ∧ t = { s with regs := t.regs, harts := t.harts }))
  ∧ (∀ (s : State) (n : Fin 4), s.coreRuns n = true →
      Does (.appTimeRead n) s (fun t => t.hartReg (8 + n) 0xC01 = s.zone ∧ t.hartReg (8 + n) 0xCC0 = s.epoch
        ∧ Keeps [] [] s t ∧ t = { s with regs := t.regs, harts := t.harts })
      ∧ (∀ vs : Bool,
          let cmp := s.hartReg (8 + n) (if vs then 0x24D else 0x14D)
          (if vs then (s.hart (8 + n)).vfired else (s.hart (8 + n)).fired) = false → (cmp ≤ s.zone ∨ (s.timeLive = true ∧ cmp < 2 ^ 64)) →
          Does (.stimecmpFire n vs) s (fun t => (if vs then (t.hart (8 + n)).vfired else (t.hart (8 + n)).fired) = true
            ∧ bit (t.mip (8 + n)) (if vs then 6 else 5) = true ∧ t.zone = max s.zone cmp
            ∧ Keeps [] [] s t ∧ t = { s with regs := t.regs, harts := t.harts, zone := t.zone, zoneFrac := t.zoneFrac })))

/-- A VOTE_CTL write that reaches a VOTED group: FAIL marks the named MASKED and ACTIVE lanes FAILED, or, where fewer than two
ACTIVE lanes would be left, none, with CTL_REFUSED; RELEASE makes the named FAILED lanes MASKED; REJOIN_NOW asks for a rejoin.
The longest wait makes its lane due. A rejoin that ends makes the REJOINING lanes ACTIVE, with its length, its count and event
18 + 4g, or, where the check of the checkpoint finds an uncorrectable word, MASKED with a restart. In a SPLIT group RUN releases
the named lanes, a lane released first starting at its entry in machine mode (dpc and dcsr, log entry 172), and IPI bits are
set. Commands of the other mode have no effect; nothing else changes. (03_voted_lane_groups.md, Lane status (R107, R109);
03_voted_lane_groups.md, Rejoin (R112, R116, R117); 03_voted_lane_groups.md, SPLIT mode (R118, R120, R121);
03_voted_lane_groups.md, VOTE register maps (R126)) -/
def Obligations.LaneStatusFollowsItsCommands : Prop :=
  ∀ (s : State) (g : Fin 2),
    let lanes := [VOTE_STAT_LANE0 g, VOTE_STAT_LANE1 g, VOTE_STAT_LANE2 g]
    (∀ (a : Agent) (m : Fin 8), s.gate a (VOTE_CTL_REARM g).addr true = .pass →
      (s.isSplit g = true → ∀ x ∈ ([.voteFail a g m, .voteRelease a g m, .voteRejoinNow a g] : List Instr), Does x s (Writes [] [] s))
      ∧ (s.isSplit g = false →
          let l := s.failable g m
          let act := l.filter (fun k => s.lane g k == 0)
          let refused := act ≠ [] ∧ (s.active g).length < 2 + act.length
          (refused → Does (.voteFail a g m) s (fun t => t.get (VOTE_STAT_CTL_REFUSED g) = 1 ∧ Writes [VOTE_STAT_CTL_REFUSED g] [] s t))
          ∧ (¬ refused → Does (.voteFail a g m) s (fun t => (∀ k, k < 3 → t.lane g k = if k ∈ l then 4 else s.lane g k)
              ∧ (s.group g < 2 → t.group g = if (t.active g).length = 3 then 0 else 1)
              ∧ Writes (VOTE_STAT_GROUP g :: lanes) [] s t))
          ∧ Does (.voteRelease a g m) s (fun t => (∀ k, k < 3 → t.lane g k = if bit m k ∧ s.lane g k = 4 then 1 else s.lane g k)
              ∧ Keeps lanes [] s t ∧ t = { s with regs := t.regs, arb := t.arb, resp := ⟨false, 0, false⟩, groups := t.groups })
          ∧ Does (.voteRejoinNow a g) s (fun t => (t.grp g).rejoinNow = true ∧ Keeps [] [] s t
              ∧ t = { s with regs := t.regs, arb := t.arb, resp := ⟨false, 0, false⟩, groups := t.groups })))
    ∧ (s.groupClocked g = true →
        (∀ n : Fin 3, s.lane g n = 1 → s.get (VOTE_CFG_REJOIN_MAXWAIT g) ≠ 0 → Does (.rejoinMaxwaitExpiry g n) s (fun t =>
          bit (t.grp g).late n = true ∧ t.rejoinDue g n = true ∧ Keeps [] [] s t ∧ t = { s with regs := t.regs, groups := t.groups }))
        ∧ (∀ pause : Nat, s.group g = 2 →
            ((s.grp g).codes = [] → Does (.rejoinComplete g pause []) s (fun t => (∀ k, k < 3 → t.lane g k = if s.lane g k = 2 then 0 else s.lane g k)
              ∧ (t.group g = if (t.active g).length = 3 then 0 else 1) ∧ t.get (VOTE_REJOIN_LAST g) = min pause 0xFFFF
              ∧ t.get (VOTE_REJOIN_CNT g) = satInc (s.get (VOTE_REJOIN_CNT g)) 16 ∧ t.isPending (18 + 4 * g) = true
              ∧ Keeps ([VOTE_STAT_GROUP g, VOTE_REJOIN_LAST g, VOTE_REJOIN_CNT g] ++ lanes) [18 + 4 * g] s t
              ∧ t = { s with regs := t.regs, groups := t.groups }))
            ∧ (∀ flips : List Flip, ((s.codeFlips g flips).checkCodes g (s.halfWords g)).1 = true → s.get IST_STAT_ITEM ≠ g.val + 1 → s.get (VOTE_RESTART_CNT_CONSEC g) < max 1 (s.get (VOTE_CFG_RESTART_LIMIT g)) →
                Does (.rejoinComplete g pause flips) s (fun t => (∀ k, k < 3 → t.lane g k = if s.lane g k = 2 then 1 else s.lane g k)
                  ∧ t.group g = 3 ∧ (t.grp g).step = .resetting ∧ t.isPending (24 + g) = true))))
    ∧ (∀ (a : Agent) (v : Word), s.gate a (VOTE_SPLIT_RUN g).addr true = .pass → s.gate a (VOTE_SPLIT_IPI_SET g).addr true = .pass →
        (s.isSplit g = false → Does (.splitRun a g v) s (Writes [] [] s) ∧ Does (.splitIpiSet a g v) s (Writes [] [] s))
        ∧ (s.isSplit g = true →
            Does (.splitRun a g v) s (fun t => (∀ n, n = 1 ∨ n = 2 →
                bit (t.get (VOTE_SPLIT_RUN g)) (n - 1) = (bit (s.get (VOTE_SPLIT_RUN g)) (n - 1) || bit v.toNat n)
                ∧ (bit (s.get (VOTE_SPLIT_RUN g)) (n - 1) = false → bit v.toNat n = true → bits (t.hartReg (4 * g + n) 0x7B0) 0 2 = 3
                    ∧ t.hartReg (4 * g + n) 0x7B1 = 4 * s.get (if n = 1 then VOTE_SPLIT_ENTRY1 g else VOTE_SPLIT_ENTRY2 g)))
              ∧ Keeps [VOTE_SPLIT_RUN g] [] s t ∧ t = { s with regs := t.regs, arb := t.arb, resp := ⟨false, 0, false⟩, harts := t.harts })
            ∧ Does (.splitIpiSet a g v) s (fun t => t.get (VOTE_SPLIT_IPI g) = orBits (s.get (VOTE_SPLIT_IPI g)) (v.toNat % 8) % 8
              ∧ Writes [VOTE_SPLIT_IPI g] [] s t)))

/-- A commit that a group may make, with nothing queued for release, due or gated: the other half takes the group's registers and
becomes the committed one, the undo log keeps only what an instruction not yet retired has logged, the checkpoint counter one up
to its maximum, CONSEC 0, a QCKPT request counted as early. An idle window opens where no interrupt is deliverable. A released
write that fails is counted, captured and recorded, event 26 + g. In a restart the registers come back from the committed half
and an SRAM word from its entry; a restore that finds an uncorrectable word in the log or the half halts the group, a clean one
replays; a replay with no input left ends in TRIPLEX or DUPLEX, a commit due, with its length and entries and a record. Nothing
else changes, where a frame is named. (04_checkpoint_recovery_lane_test.md, Checkpoints (R128, R131, R133);
04_checkpoint_recovery_lane_test.md, Register targets: idempotent and once (R143); 04_checkpoint_recovery_lane_test.md, Duplex
restart (R144, R146); 04_checkpoint_recovery_lane_test.md, In-service test (R148)) -/
def Obligations.CheckpointsCommitAndRestartsReplay : Prop :=
  ∀ (s : State) (g : Fin 2),
    (s.groupRuns g = true → s.lanesQuiet = true → (s.grp g).started = true → s.canCommit g = true → s.get IST_STAT_ITEM ≠ 5 →
      s.pwr.sg1GateDue = false → (s.grp g).relq = [] → s.dueLanes g = [] → (s.grp g).undo.length < 1792 →
      ∀ x ∈ ([(.checkpointCommit g, []), (.qckptReq g, [IST_CKPT_EARLY_REQ g])] : List (Instr × List Fld)),
        Does x.1 s (fun t =>
          (t.get (IST_CKPT_STAT_HALF g) = if s.on (IST_CKPT_STAT_HALF g) then 0 else 1)
          ∧ (if s.on (IST_CKPT_STAT_HALF g) then (t.grp g).half0 = s.voteRegs g ∧ (t.grp g).half1 = (s.grp g).half1
              else (t.grp g).half1 = s.voteRegs g ∧ (t.grp g).half0 = (s.grp g).half0)
          ∧ (t.grp g).undo = (s.grp g).tail ∧ (t.grp g).insns = 0 ∧ (t.grp g).writes = 0 ∧ t.get (VOTE_RESTART_CNT_CONSEC g) = 0
          ∧ t.get64 (IST_CKPT_CNT_LO g) (IST_CKPT_CNT_HI g) = satInc (s.get64 (IST_CKPT_CNT_LO g) (IST_CKPT_CNT_HI g)) 64
          ∧ (∀ f ∈ x.2, t.get f = satInc (s.get f) f.w)
          ∧ Keeps ([IST_CKPT_STAT_HALF g, IST_CKPT_STAT_UNDO g, IST_CKPT_STAT_RELQ g, IST_CKPT_CNT_LO g, IST_CKPT_CNT_HI g,
              VOTE_RESTART_CNT_CONSEC g] ++ x.2) [] s t
          ∧ t = { s with regs := t.regs, groups := t.groups }))
    ∧ (s.groupRuns g = true → s.lanesQuiet = true → (s.grp g).started = true → s.canCommit g = true → s.irqLine g = false → s.group g = 0 →
        bit s.ist.due g = false → Does (.idleWindowBegin g) s (fun t => (t.grp g).window = true ∧ Keeps [] [] s t
          ∧ t = { s with regs := t.regs, groups := t.groups }))
    ∧ (∀ addr : Nat, s.awake = true → s.isSplit g = false → Does (.releasedWriteError g addr) s (fun t =>
        t.get (IST_RELQ_ERR_INFO_COUNT g) = satInc (s.get (IST_RELQ_ERR_INFO_COUNT g)) 16 ∧ t.isPending (26 + g) = true
        ∧ (s.on (IST_RELQ_ERR_INFO_VALID g) = false → t.get (IST_RELQ_ERR_INFO_VALID g) = 1
            ∧ t.get (IST_RELQ_ERR_ADDR_LO g) = addr % 2 ^ 32)
        ∧ t.recorder.due.length = s.recorder.due.length + 1
        ∧ Keeps [IST_RELQ_ERR_INFO_COUNT g, IST_RELQ_ERR_INFO_VALID g, IST_RELQ_ERR_ADDR_LO g, IST_RELQ_ERR_ADDR_HI g] [26 + g] s t
        ∧ t = { s with regs := t.regs, recorder := t.recorder }))
    ∧ (s.groupClocked g = true → s.group g = 3 →
        ((s.grp g).step = .resetting → Does (.restartResetDone g) s (fun t => (t.grp g).step = .restoring ∧ (t.grp g).insns = 0
            ∧ (t.grp g).writes = 0 ∧ t.voteRegs g = if s.on (IST_CKPT_STAT_HALF g) then (s.grp g).half1 else (s.grp g).half0)
          ∧ (∀ addr v : Nat, (s.grp g).undo = [⟨2, 0, addr, v, false⟩] → addr % 4 = 0 → 0x21000000 ≤ addr → addr < 0x21400000 →
              s.synOf (addr / 16) = 0 → s.memGate (.lane 0 0) true addr 4 = none →
              Does (.restartResetDone g) s (fun t => t.readBytes addr 4 = leBytes 4 v
                ∧ ∀ b, b < addr ∨ addr + 4 ≤ b → t.readByte b = s.readByte b)))
        ∧ ((s.grp g).step = .restoring →
            ((s.grp g).codes = [] → Does (.restartRestoreComplete g []) s (fun t => (t.grp g).step = .replay ∧ Keeps [] [] s t
              ∧ t = { s with regs := t.regs, groups := t.groups }))
            ∧ (∀ flips : List Flip,
                ((s.codeFlips g flips).checkCodes g (List.range (s.grp g).undo.length ++ s.halfWords g)).1 = true →
                Does (.restartRestoreComplete g flips) s (fun t => t.group g = 4 ∧ t.isPending (19 + 4 * g) = true)))
        ∧ (∀ time : Nat, (s.grp g).step = .replay → (∀ e ∈ (s.grp g).undo, isInput e = true → e.used = true) →
            Does (.replayComplete g time) s (fun t => (t.grp g).step = .live ∧ (t.grp g).commitDue = true ∧ (t.group g = if (s.active g).length = 3 then 0 else 1)
              ∧ t.get (IST_RESTART_LAST_TIME g) = min time 0xFFFF
              ∧ t.get (IST_RESTART_LAST_ENTRIES g) = ((s.grp g).undo.filter isInput).length % 2 ^ 12
              ∧ t.recorder.due.length = s.recorder.due.length + 1
              ∧ Keeps [VOTE_STAT_GROUP g, IST_RESTART_LAST_TIME g, IST_RESTART_LAST_ENTRIES g, IST_RESTART_MAX g] [] s t
              ∧ t = { s with regs := t.regs, groups := t.groups, recorder := t.recorder })))

/-- While the control die runs, with no lane group having anything to take up: a lane test becomes due, or its mark OVERDUE is set,
on a VOTED group with its clock; TEST_NOW makes due the enabled ones; the logic test of a lane leads to its memory test, which
overwrites the lane's array (with zero codewords: the model's choice, log entry 169); a lane test that ends leaves the lane
MASKED or FAILED, the rotation one lane on. An idle-resource test begins with the item that is next where it is eligible,
nothing under test; it changes memory only in the test area. Every end of a test leaves nothing under test, its item, unit and
outcome in IST_RESULT, its counter one up, event 28 or 29 and a record. Nothing else changes.
(04_checkpoint_recovery_lane_test.md, In-service test (R149, R150, R151, R152, R153, R154); 04_checkpoint_recovery_lane_test.md,
IST register map) -/
def Obligations.InServiceTestsStartAndReport : Prop :=
  let area (s t : State) : Prop := ∀ b, b < s.testArea ∨ s.testArea + 4096 ≤ b → t.readByte b = s.readByte b
  let ends (pass : Bool) (s t : State) : Prop := t.get IST_STAT_ITEM = 0 ∧ t.get IST_RESULT_VALID = 1
    ∧ (t.get IST_RESULT_OUTCOME = if pass then 1 else 2) ∧ t.get IST_RESULT_ITEM = s.get IST_STAT_ITEM % 16
    ∧ t.get IST_RESULT_UNIT = s.get IST_STAT_UNIT % 16 ∧ t.isPending (if pass then 28 else 29) = true
    ∧ (let f := if pass then IST_COUNT_PASS else IST_COUNT_FAIL
       t.get f = satInc (s.get f) f.w) ∧ t.recorder.due.length = s.recorder.due.length + 1
  let shows := [IST_STAT_ITEM, IST_STAT_UNIT, IST_RESULT_VALID, IST_RESULT_OUTCOME, IST_RESULT_ITEM, IST_RESULT_UNIT, IST_RESULT_DETAIL,
    IST_COUNT_PASS, IST_COUNT_FAIL]
  ∀ (s : State), s.awake = true → s.lanesQuiet = true →
    (∀ g : Fin 2, s.istGroup g = true →
      Does (.laneTestDue g) s (fun t => bit t.ist.due g = true ∧ Keeps [] [] s t
        ∧ t = { s with regs := t.regs, ist := { s.ist with due := t.ist.due } })
      ∧ Does (.istOverdue g) s (fun t => t.get (overdueFld g) = 1 ∧ t.isPending 30 = true ∧ Changes [overdueFld g] [] s t))
    ∧ (∀ a : Agent, s.gate a IST_CTL_TEST_NOW.addr true = .pass → Does (.istTestNow a) s (fun t =>
        (∀ g, g < 2 → bit t.ist.due g = (bit s.ist.due g || (s.istGroup g && s.istEnabled g))) ∧ Keeps [] [] s t
        ∧ t = { s with regs := t.regs, arb := t.arb, resp := ⟨false, 0, false⟩, ist := { s.ist with due := t.ist.due } }))
    ∧ (∀ g : Fin 2, s.get IST_STAT_ITEM = g.val + 1 →
        (s.ist.memBist = false → s.get IST_STAT_UNIT < 3 →
          let lo := arrayAddr (s.get IST_STAT_UNIT) (0x20000000 + 0x100000 * g)
          Does .logicBistComplete s (fun t => t.ist = { s.ist with memBist := true }
            ∧ (∀ b, t.readByte b = if lo ≤ b ∧ b < lo + 0x80000 then 0 else s.readByte b)
            ∧ (∀ w, t.synOf w = if lo / 16 ≤ w ∧ w < (lo + 0x80000) / 16 then 0 else s.synOf w)
            ∧ Keeps [] [] s t ∧ t = { s with regs := t.regs, ist := t.ist, mem := t.mem, syn := t.syn }))
        ∧ (∀ (pass : Bool) (sig : Fin 65536), s.ist.memBist = true → s.get IST_STAT_UNIT < 3 →
            Does (.laneTestComplete pass sig) s (fun t => ends pass s t
              ∧ (t.lane g (s.get IST_STAT_UNIT) = if pass then 1 else 4) ∧ t.get (nextFld g) = (s.get IST_STAT_UNIT + 1) % 3
              ∧ t.ist = { s.ist with memBist := false } ∧ Keeps (laneFld g (s.get IST_STAT_UNIT) :: nextFld g :: shows) [28, 29] s t
              ∧ t = { s with regs := t.regs, groups := t.groups, ist := t.ist, recorder := t.recorder })))
    ∧ (s.get IST_STAT_ITEM = 0 → s.ist.auxNext < 36 → s.auxEligible s.ist.auxNext = true → Does .idleResourceTestStart s (fun t =>
        t.get IST_STAT_ITEM = auxItem s.ist.auxNext ∧ t.get IST_STAT_UNIT = s.ist.auxNext % 16
        ∧ t.ist = { s.ist with auxNext := (s.ist.auxNext + 1) % 36 } ∧ area s t
        ∧ (s.ist.auxNext < 16 → t.get (DMA_CH_STAT_TESTING (s.ist.auxNext / 8) (s.ist.auxNext % 8)) = 1)))
    ∧ (∀ (pass : Bool) (sig : Fin 65536), 3 ≤ s.get IST_STAT_ITEM → s.get IST_STAT_ITEM < 6 →
        Does (.idleResourceTestComplete pass sig) s (fun t => ends pass s t ∧ area s t
          ∧ (pass = true → t.get IST_FAILMAP_DMA = s.get IST_FAILMAP_DMA ∧ t.get IST_FAILMAP_FIFO = s.get IST_FAILMAP_FIFO
              ∧ t.get IST_FAIL_CKB = s.get IST_FAIL_CKB)
          ∧ (pass = false → s.get IST_STAT_ITEM = 4 → s.get IST_STAT_UNIT < 16 → bit (t.get IST_FAILMAP_FIFO) (s.get IST_STAT_UNIT) = true)))

/-- For a ring whose register write reaches it (the LCC's from SG0), no DMA channel being under test: with EN 1, not stopped, the
generation right and its VF not OFF, a doorbell moves its index forward to the value written if that is at most the ring size
ahead of SQ_CI (for the completion ring at most CQ_PI), ignores a step of 0 or of 2^15 and more, and otherwise stops the ring
with cause 4; with EN 0 it has no effect. Enabling a disabled ring takes the sizes, and GEN where it is no VF's, zeroes its
indices, and sets EN; a size outside 4 to 12 also stops it with cause 3. Disabling clears EN, STOPPED and CAUSE and drops its
fetched descriptors. A stale doorbell of a DMA channel counts in DB_IGN. Other rings keep their indices. (06_rings_dma_fifos.md,
The ring pair (R191, R192); 06_rings_dma_fifos.md, Doorbells (R198); 06_rings_dma_fifos.md, Stops (R200); 06_rings_dma_fifos.md,
Ring registers; 05_application_cluster_virtual_functions.md, Doorbell page (R172, R173)) -/
def Obligations.DoorbellsAndRingConfiguration : Prop :=
  ∀ (s : State) (a : Agent) (r : Ring) (v : Word), (r = .lcc → idOf a ≤ 2) → s.get IST_STAT_ITEM ≠ 3 →
    let b := r.base
    let others (t : State) : Prop := ∀ k, k ≠ b → look t.rings k ringInit = look s.rings k ringInit
    let open0 := s.on (RING_CFG_EN b) = true ∧ s.on (RING_STAT_STOPPED b) = false ∧ bits v.toNat 16 8 = s.ringGen r
      ∧ ∀ f, r.fn = some f → s.vfState f ≠ 0
    (s.gate a r.doorbell true = .pass →
      let x := bits v.toNat 0 16
      let d := (x + 2 ^ 16 - (s.ring r).tail) % 2 ^ 16
      let far := (x + 2 ^ 16 - s.sqCi r) % 2 ^ 16
      (open0 → 0 < d → d < 2 ^ 15 → far ≤ 2 ^ s.get (RING_CFG_SQ_LOG2 b) → Does (.sqDoorbell a r v) s (fun t =>
          t.ring r = { s.ring r with tail := x } ∧ others t ∧ Keeps [] [] s t ∧ t = { s with regs := t.regs, arb := t.arb, resp := ⟨false, 0, false⟩, rings := t.rings }))
      ∧ (open0 → d = 0 ∨ 2 ^ 15 ≤ d → Does (.sqDoorbell a r v) s (Writes [] [] s))
      ∧ (open0 → 0 < d → d < 2 ^ 15 → 2 ^ s.get (RING_CFG_SQ_LOG2 b) < far → Does (.sqDoorbell a r v) s (fun t =>
          t.get (RING_STAT_STOPPED b) = 1 ∧ t.get (RING_STAT_CAUSE b) = 4 ∧ (t.ring r).tail = (s.ring r).tail))
      ∧ (s.on (RING_CFG_EN b) = false → r.fn = none → Does (.sqDoorbell a r v) s (Writes [] [] s))
      ∧ (∀ (m : Fin 2) (n : Fin 8), r = .dma m n → s.on (RING_CFG_EN b) = true → s.on (RING_STAT_STOPPED b) = false →
          bits v.toNat 16 8 ≠ s.ringGen r → Does (.sqDoorbell a r v) s (fun t =>
            t.get (DMA_DB_IGN m) = satInc (s.get (DMA_DB_IGN m)) 32 ∧ Writes [DMA_DB_IGN m] [] s t)))
    ∧ (s.gate a (r.doorbell + 4) true = .pass → open0 →
        let x := bits v.toNat 0 16
        let e := (x + 2 ^ 16 - (s.ring r).head) % 2 ^ 16
        (0 < e → e < 2 ^ 15 → e ≤ ((s.ring r).cqPi + 2 ^ 16 - (s.ring r).head) % 2 ^ 16 → Does (.cqDoorbell a r v) s (fun t =>
            t.ring r = { s.ring r with head := x } ∧ others t ∧ Keeps [] [] s t
            ∧ t = { s with regs := t.regs, arb := t.arb, resp := ⟨false, 0, false⟩, rings := t.rings }))
        ∧ (0 < e → e < 2 ^ 15 → ((s.ring r).cqPi + 2 ^ 16 - (s.ring r).head) % 2 ^ 16 < e → Does (.cqDoorbell a r v) s (fun t =>
            t.get (RING_STAT_STOPPED b) = 1 ∧ t.get (RING_STAT_CAUSE b) = 4 ∧ (t.ring r).head = (s.ring r).head)))
    ∧ (s.gate a (b + 0x18) true = .pass →
        let cfg (t : State) : Prop := t.get (RING_CFG_SQ_LOG2 b) = bits v.toNat 0 4 ∧ t.get (RING_CFG_CQ_LOG2 b) = bits v.toNat 8 4
          ∧ (r.fn = none → t.get (RING_CFG_GEN b) = bits v.toNat 16 8)
        (bit v.toNat 31 = true → s.on (RING_CFG_EN b) = false → (∀ f, r.fn = some f → s.vfState f ≠ 0) →
          (4 ≤ bits v.toNat 0 4 ∧ bits v.toNat 0 4 ≤ 12 ∧ 4 ≤ bits v.toNat 8 4 ∧ bits v.toNat 8 4 ≤ 12 → Does (.ringEnable a r v) s (fun t =>
            t.get (RING_CFG_EN b) = 1 ∧ t.get (RING_STAT_SQ_CI b) = 0 ∧ t.ring r = ringInit ∧ cfg t ∧ others t
            ∧ Keeps [RING_CFG_EN b, RING_STAT_SQ_CI b, RING_CFG_SQ_LOG2 b, RING_CFG_CQ_LOG2 b, RING_CFG_GEN b] [] s t
            ∧ t = { s with regs := t.regs, arb := t.arb, resp := ⟨false, 0, false⟩, rings := t.rings }))
          ∧ (¬ (4 ≤ bits v.toNat 0 4 ∧ bits v.toNat 0 4 ≤ 12 ∧ 4 ≤ bits v.toNat 8 4 ∧ bits v.toNat 8 4 ≤ 12) →
              Does (.ringEnable a r v) s (fun t => t.get (RING_CFG_EN b) = 1 ∧ t.get (RING_STAT_STOPPED b) = 1
                ∧ t.get (RING_STAT_CAUSE b) = 3)))
        ∧ (bit v.toNat 31 = true → s.on (RING_CFG_EN b) = true → Does (.ringEnable a r v) s (Writes [] [] s))
        ∧ (bit v.toNat 31 = false → Does (.ringDisable a r v) s (fun t => t.get (RING_CFG_EN b) = 0 ∧ t.get (RING_STAT_STOPPED b) = 0
            ∧ t.get (RING_STAT_CAUSE b) = 0 ∧ t.ring r = { s.ring r with items := [], again := [] } ∧ cfg t ∧ others t
            ∧ t = { s with regs := t.regs, arb := t.arb, resp := ⟨false, 0, false⟩, rings := t.rings, dma := t.dma })))

/-- For a ring that is no VF's, with its descriptor and its write-back in MRAM, SRAM or DRAM where no check refuses them and their
codewords clean: a fetch of a well-formed descriptor of the right generation adds it to the engine's descriptors, moves SQ_CI
one on and writes the new index to the write-back; memory changes nowhere else. A DMA channel that fetches one is BUSY with it.
A descriptor that was executed, is next to complete and has room: its entry stands at the place of CQ_PI, CQ_PI is one on, the
descriptor leaves the ring, and the engine's event is raised (for a DMA channel where INT asks for it); memory changes only
there and in the write-back. With NOCPL and status OK it leaves the ring and no memory changes. (06_rings_dma_fifos.md,
Descriptor header (R193); 06_rings_dma_fifos.md, Completion entry (R194, R195, R196, R197); 06_rings_dma_fifos.md, Doorbells
(R199)) -/
def Obligations.DescriptorsAreFetchedAndCompleted : Prop :=
  ∀ (s : State) (r : Ring), r.fn = none →
    let stored (addr : Nat) (write : Bool) (n : Nat) : Prop := s.memGate r.agent write addr n = none
      ∧ (∃ p, p ∈ [1, 4, 6] ∧ targetOfRange addr n = some p) ∧ ∀ w, addr / 16 ≤ w → w < (addr + n) / 16 → s.synOf w = 0
    let wb := s.ciwbAddr r
    (s.mayFetch r = true → (s.ring r).again = [] → stored (s.slotAddr r (s.sqCi r)) false 32 → stored wb true 16 →
      let d := s.readBytes (s.slotAddr r (s.sqCi r)) 32
      dGen d = s.ringGen r → formatOk r d = true → Does (.descriptorFetched r) s (fun t =>
        t.sqCi r = (s.sqCi r + 1) % 2 ^ 16 ∧ t.readBytes wb 2 = leBytes 2 (t.sqCi r)
        ∧ (∀ b, b < wb ∨ wb + 16 ≤ b → t.readByte b = s.readByte b)
        ∧ ((∀ (m : Fin 2) (n : Fin 8), r ≠ .dma m n) →
            (t.ring r).items = (s.ring r).items ++ [⟨s.sqCi r, d, s.ringGen r, false, none⟩] ∧ Keeps [RING_STAT_SQ_CI r.base] [] s t
            ∧ t = { s with regs := t.regs, rings := t.rings, mem := t.mem, syn := t.syn, arb := t.arb })
        ∧ (∀ (m : Fin 2) (n : Fin 8), r = .dma m n → (s.ring r).items = [] → t.get (DMA_CH_STAT_BUSY m n) = 1
            ∧ t.get (DMA_CH_STAT_DESCS m n) = 0 ∧ (t.dmaRun m n).map (·.desc) = some d)))
    ∧ (∀ (it : Item) (st res : Nat), (ringBlock r).live s = true → s.nextDone r = some it → it.fin = some (st, res, 0) →
        (dNocpl it.desc = false ∨ st ≠ 0 → s.cqRoom r = true → s.on (RING_CFG_EN r.base) = true → stored (s.entryAddr r) true 16 →
          stored wb true 16 → s.entryAddr r ≠ wb → Does (.descriptorComplete r) s (fun t =>
            t.readBytes (s.entryAddr r) 16 = s.entryBytes r it st res ∧ (t.ring r).cqPi = ((s.ring r).cqPi + 1) % 2 ^ 16
            ∧ (t.ring r).items = (s.ring r).items.filter (fun x => x.idx != it.idx)
            ∧ (∀ b, (b < s.entryAddr r ∨ s.entryAddr r + 16 ≤ b) → (b < wb ∨ wb + 16 ≤ b) → t.readByte b = s.readByte b)
            ∧ (∀ e, ringEvent r = some e → eventLive s e = true → ((∀ (m : Fin 2) (n : Fin 8), r ≠ .dma m n) ∨ dbits it.desc 33 1 = 1) →
                t.isPending e = true)
            ∧ Keeps [] ((ringEvent r).toList) s t ∧ t = { s with regs := t.regs, rings := t.rings, mem := t.mem, syn := t.syn, arb := t.arb }))
        ∧ (dNocpl it.desc = true → st = 0 → Does (.descriptorComplete r) s (fun t =>
            (t.ring r).items = (s.ring r).items.filter (fun x => x.idx != it.idx) ∧ (t.ring r).cqPi = (s.ring r).cqPi
            ∧ Keeps [] ((ringEvent r).toList) s t ∧ t = { s with regs := t.regs, rings := t.rings })))

/-- For a channel whose engine works and whose start is not aborting: a COPY of 16-byte aligned linear bytes between disjoint places
of MRAM, SRAM or DRAM that no check refuses, the source clean, leaves the source's bytes at the destination with clean
codewords, no other byte changed, counts the descriptor and the bytes, and its read-back is due. A NOP without a link, and a
read-back that finds the bytes the channel wrote, end the start: BUSY clears. A descriptor beyond CHAIN_LIMIT, a read-back that
differs and an access that is not answered end it too, captured with cause 8, 0xA and 9 unless a capture is held. A disabled
channel's start ends with BUSY 0 at its transfer boundary. (06_rings_dma_fifos.md, DMA engines (R202, R203, R205, R207, R208,
R209, R210, R212)) -/
def Obligations.DmaCopiesItsBytes : Prop :=
  ∀ (s : State) (m : Fin 2) (n : Fin 8) (x : DmaRun), s.dmaRun m n = some x →
    let ended (t : State) : Prop := t.get (DMA_CH_STAT_BUSY m n) = 0 ∧ bit (t.get (DMA_STAT_BUSY m)) n = false ∧ t.dmaRun m n = none
    let held := s.on (DMA_ERR_INFO_VALID m) = true ∨ s.nextItem (.dma m n) = none
    (s.awake = true → x.aborting = true → Does (.dmaAbortComplete m n) s ended)
    ∧ ((if m = 0 then Block.dma0 else Block.dma1).live s = true → x.aborting = false →
        (x.check = none →
          (∀ op ∈ ([(0, .dmaNop m n), (1, .dmaCopy m n)] : List (Nat × Instr)), dOp x.desc = op.1 → x.begun = false →
            max 1 (s.get (DMA_CH_CFG m n)) ≤ x.descs →
            Does op.2 s (fun t => ended t ∧ (¬ held → t.get (DMA_ERR_INFO_VALID m) = 1 ∧ t.get (DMA_ERR_INFO_CAUSE m) = 8)))
          ∧ (dOp x.desc = 0 → x.begun = false → x.descs < max 1 (s.get (DMA_CH_CFG m n)) → dbits x.desc 34 1 = 0 →
              Does (.dmaNop m n) s (fun t => ended t ∧ t.get (DMA_CH_STAT_DESCS m n) = (x.descs + 1) % 2 ^ 16))
          ∧ (∀ k : Nat,
              let src := (dmaSrc x.desc).addr
              let dst := (dmaDst x.desc).addr
              dOp x.desc = 1 → x.begun = false → x.descs < max 1 (s.get (DMA_CH_CFG m n)) → x.got = 0 → x.buf = [] → 0 < k →
              dmaLen x.desc = 16 * k → (dmaSrc x.desc).mode = 0 → (dmaDst x.desc).mode = 0 → src % 16 = 0 → dst % 16 = 0 →
              (∃ p, p ∈ [1, 4, 6] ∧ targetOfRange src (16 * k) = some p) → (∃ p, p ∈ [1, 4, 6] ∧ targetOfRange dst (16 * k) = some p) →
              (src + 16 * k ≤ dst ∨ dst + 16 * k ≤ src) → (∀ i, i < k → s.synOf (src / 16 + i) = 0
                ∧ s.memGate (.dma m) false (src + 16 * i) 16 = none ∧ s.memGate (.dma m) true (dst + 16 * i) 16 = none) →
              Does (.dmaCopy m n) s (fun t => t.readBytes dst (16 * k) = s.readBytes src (16 * k)
                ∧ (∀ i, i < k → t.synOf (dst / 16 + i) = 0) ∧ (∀ b, b < dst ∨ dst + 16 * k ≤ b → t.readByte b = s.readByte b)
                ∧ t.get (DMA_CH_STAT_DESCS m n) = (x.descs + 1) % 2 ^ 16
                ∧ (∃ y, t.dmaRun m n = some y ∧ y.check.isSome = true ∧ y.bytes = x.bytes + 16 * k)
                ∧ Keeps [DMA_CH_STAT_DESCS m n, DMA_BYTES_LO m, DMA_BYTES_HI m] [] s t
                ∧ t = { s with regs := t.regs, mem := t.mem, syn := t.syn, dma := t.dma, arb := t.arb })))
        ∧ (∀ (addr : Nat) (want : List (Option Byte)) (d : List Byte), x.check = some (addr, want, true) → x.wait = none →
            inT0to6 addr want.length = true → dbits x.desc 34 1 = 0 → (s.busRead (.dma m) addr want.length).1 = .ok d →
            (readsBack want d = true → Does (.dmaReadback m n) s ended)
            ∧ (readsBack want d = false → Does (.dmaReadback m n) s (fun t => ended t
                ∧ (¬ held → t.get (DMA_ERR_INFO_CAUSE m) = 0xA ∧ t.get (DMA_ERR_TGT_LO m) = addr % 2 ^ 32))))
        ∧ (∀ (addr : Nat) (landed : Bool), s.on (RING_CFG_EN (Ring.dma m n).base) = true →
            s.on (RING_STAT_STOPPED (Ring.dma m n).base) = false → x.begun = true →
            Does (.dmaAccessTimeout m n addr false landed) s (fun t => ended t
              ∧ (¬ held → t.get (DMA_ERR_INFO_CAUSE m) = 9 ∧ t.get (DMA_ERR_TGT_LO m) = addr % 2 ^ 32))))

/-- For a write that reaches the FIFO, no FIFO being under test: enabling a disabled FIFO whose region is legal takes its
configuration, with CREDIT the region size and USED 0; an illegal one is captured with cause 6 and stays disabled. Disabling
leaves CREDIT and USED 0. A push from PWORLD with its credits reserves them and waits, one without is refused whole with cause
1, one from another world with cause 5; a pop from CWORLD of at most USED words returns them as credits, of more is refused with
cause 4, from another world with cause 5. The end of a committed push of one clean codeword copies it to the place of the next
word and makes the packet's words USED. Refusals are counted, captured unless a capture is held, and raise the FIFO's event.
Nothing else changes. (06_rings_dma_fifos.md, Credit FIFOs (R213, R214, R215, R216, R217, R218, R220, R222, R223)) -/
def Obligations.CreditFifosKeepTheirCounts : Prop :=
  ∀ (s : State) (n : Fin 16),
    let err := [FIFO_ERR_INFO_VALID, FIFO_ERR_INFO_CAUSE, FIFO_ERR_INFO_FIFO, FIFO_ERR_CNT]
    let refused (cause : Nat) (t : State) : Prop := t.get FIFO_ERR_CNT = satInc (s.get FIFO_ERR_CNT) 32
      ∧ (s.on FIFO_ERR_INFO_VALID = false → t.get FIFO_ERR_INFO_VALID = 1 ∧ t.get FIFO_ERR_INFO_CAUSE = cause ∧ t.get FIFO_ERR_INFO_FIFO = n)
      ∧ t.isPending (48 + n.val / 2) = true
    let counts := [FIFO_COUNT_CREDIT n, FIFO_COUNT_USED n]
    let cfg := [FIFO_CFG_EN n, FIFO_CFG_PWORLD n, FIFO_CFG_CWORLD n, FIFO_CFG_SIZE_LOG2 n, FIFO_CFG_OFFSET n]
    (∀ (a : Agent) (v : Word), s.get IST_STAT_ITEM ≠ 4 →
      (s.gate a (FIFO_CFG_EN n).addr true = .pass →
        let c := s.fifoCfg n v.toNat
        (bit v.toNat 31 = true → s.on (FIFO_CFG_EN n) = false →
          (c.fifoRegionOk n = true → Does (.fifoEnable a n v) s (fun t => t.get (FIFO_CFG_EN n) = 1
            ∧ t.get (FIFO_COUNT_CREDIT n) = 2 ^ bits v.toNat 16 4 ∧ t.get (FIFO_COUNT_USED n) = 0 ∧ t.fifo n = fifoInit
            ∧ t.get (FIFO_CFG_OFFSET n) = bits v.toNat 0 14 ∧ Keeps (cfg ++ counts) [] s t
            ∧ t = { s with regs := t.regs, arb := t.arb, resp := ⟨false, 0, false⟩, fifos := t.fifos }))
          ∧ (c.fifoRegionOk n = false → Does (.fifoEnable a n v) s (fun t => refused 6 t ∧ t.on (FIFO_CFG_EN n) = false
            ∧ Writes (cfg ++ err) [48 + n.val / 2] s t)))
        ∧ (bit v.toNat 31 = false → Does (.fifoDisable a n v) s (fun t => t.get (FIFO_CFG_EN n) = 0 ∧ t.get (FIFO_COUNT_CREDIT n) = 0
            ∧ t.get (FIFO_COUNT_USED n) = 0 ∧ t.fifo n = fifoInit ∧ Keeps (cfg ++ counts) [] s t
            ∧ t = { s with regs := t.regs, arb := t.arb, resp := ⟨false, 0, false⟩, fifos := t.fifos })))
      ∧ (s.gate a (FIFO_PUSH_HI_WORDS n).addr true = .pass →
          let p : Push := ⟨16 * s.get (FIFO_PUSH_LO n) + 2 ^ 32 * bits v.toNat 0 8, bits v.toNat 8 8, bit v.toNat 31, bit v.toNat 30⟩
          ((isNormal a s == s.on (FIFO_CFG_PWORLD n)) = true → Does (.fifoPush a n v) s (fun t => refused 5 t ∧ Writes err [48 + n.val / 2] s t))
          ∧ ((isNormal a s == s.on (FIFO_CFG_PWORLD n)) = false → (s.fifo n).pushes.length < 4 → p.bad = false →
              (p.words ≤ s.get (FIFO_COUNT_CREDIT n) → s.get (FIFO_COUNT_CREDIT n) < 2 ^ 16 → s.on (FIFO_CFG_EN n) = true →
                Does (.fifoPush a n v) s (fun t => t.get (FIFO_COUNT_CREDIT n) = s.get (FIFO_COUNT_CREDIT n) - p.words
                  ∧ (t.fifo n).pushes = (s.fifo n).pushes ++ [p] ∧ Keeps [FIFO_COUNT_CREDIT n] [] s t
                  ∧ t = { s with regs := t.regs, arb := t.arb, resp := ⟨false, 0, false⟩, fifos := t.fifos }))
              ∧ (s.get (FIFO_COUNT_CREDIT n) < p.words → Does (.fifoPush a n v) s (fun t => refused 1 t ∧ Writes err [48 + n.val / 2] s t))))
      ∧ (s.gate a (FIFO_POP n).addr true = .pass →
          let w := bits v.toNat 0 16
          ((isNormal a s == s.on (FIFO_CFG_CWORLD n)) = true → Does (.fifoPop a n v) s (fun t => refused 5 t ∧ Writes err [48 + n.val / 2] s t))
          ∧ ((isNormal a s == s.on (FIFO_CFG_CWORLD n)) = false →
              (w ≤ s.get (FIFO_COUNT_USED n) → s.get (FIFO_COUNT_USED n) < 2 ^ 16 → Does (.fifoPop a n v) s (fun t =>
                t.get (FIFO_COUNT_USED n) = s.get (FIFO_COUNT_USED n) - w
                ∧ t.get (FIFO_COUNT_CREDIT n) = (s.get (FIFO_COUNT_CREDIT n) + w) % 2 ^ 16 ∧ Writes counts [] s t))
              ∧ (s.get (FIFO_COUNT_USED n) < w → Does (.fifoPop a n v) s (fun t => refused 4 t ∧ Writes err [48 + n.val / 2] s t)))))
    ∧ (∀ (p : Push) (l : List Push), Block.fifo.live s = true → (s.fifo n).pushes = p :: l → (s.fifo n).waiting = [] → p.bad = false →
        p.words = 1 → p.commit = true → p.src % 16 = 0 → inT1to6 p.src 16 = true → tcmGroup ((targetOf p.src).getD 15) = none →
        s.synOf (p.src / 16) = 0 → s.memGate (.fifo n) false p.src 16 = none → Does (.fifoPushComplete n) s (fun t =>
          let at0 := s.fifoBase n + 16 * ((s.fifo n).pos % s.fifoSize n)
          t.readBytes at0 16 = s.readBytes p.src 16 ∧ (∀ b, b < at0 ∨ at0 + 16 ≤ b → t.readByte b = s.readByte b)
          ∧ t.get (FIFO_COUNT_USED n) = (s.get (FIFO_COUNT_USED n) + (s.fifo n).open0 + 1) % 2 ^ 16 ∧ (t.fifo n).pushes = l
          ∧ (t.fifo n).open0 = 0 ∧ Keeps [FIFO_COUNT_USED n] [] s t
          ∧ t = { s with regs := t.regs, fifos := t.fifos, mem := t.mem, syn := t.syn, arb := t.arb }))

/-- LINK_EN takes the value written; a link whose bit is 0 is DOWN, one DOWN of a powered die whose bit is 1 trains, others stay;
only the bridge changes. HB_EN takes its value. RETRAIN 1 starts training of the links in FAULT. Training completes in UP with
nothing sent. A poll goes to each UP link, and three polls without an answer raise event 60; a heartbeat with the next count
goes to each die that has it. A transmission that fails counts for its frame and starts the sender again at the oldest one; the
fourth failure of one frame takes the link to FAULT, or TRAINING with RETRAIN 1, and event 56. POP shows the next entry of the
log. A reset stage die stands at its reset values with every channel OFF, cause 0x9. (07_stage_bridge.md, Stage link (R226,
R227, R228); 07_stage_bridge.md, Far events (R240, R241); 07_stage_bridge.md, Heartbeat (R244, R245); 07_stage_bridge.md,
Posted-write errors (R242); 02_power_states_boot.md, Resets; 08_load_channels_protection.md, Channel protection states (R257)) -/
def Obligations.StageLinksTrainBeatAndDrop : Prop :=
  (∀ (s : State) (a : Agent) (v : Word),
    (s.gate a BRG_CTL_LINK_EN.addr true = .pass →
      Does (.brgLinkEnWrite a v) s (fun t => t.get BRG_CTL_LINK_EN = bits v.toNat 0 5
        ∧ (∀ d, d < 5 → t.link d = if bit v.toNat d then (if s.link d = 0 ∧ s.diePowered d = true then 1 else s.link d) else 0)
        ∧ (∀ f : Fld, pendFld f = false → f.key < 0x40040000 * 32 ∨ 0x40041000 * 32 ≤ f.key → t.get f = s.get f)
        ∧ t = { s with regs := t.regs, arb := t.arb, resp := ⟨false, 0, false⟩, links := t.links, perr := t.perr })
      ∧ Does (.brgHbEnWrite a v) s (fun t => t.get BRG_CTL_HB_EN = bits v.toNat 8 5 ∧ Writes [BRG_CTL_HB_EN] [] s t))
    ∧ (s.gate a BRG_CFG_RETRAIN.addr true = .pass → Does (.brgRetrainWrite a v) s (fun t => t.get BRG_CFG_RETRAIN = bits v.toNat 3 1
        ∧ (∀ d, d < 5 → t.link d = if s.link d = 3 ∧ bit v.toNat 3 = true then 1 else s.link d)
        ∧ Writes [BRG_CFG_RETRAIN, BRG_STAT_LINK] [] s t))
    ∧ (s.gate a BRG_PERR_CTL_POP.addr true = .pass → Does (.brgPerrPop a) s (fun t => t.perr = s.perr.tail
        ∧ (t.get BRG_PERR_STAT_VALID = if s.perr.tail = [] then 0 else 1)
        ∧ (∀ e, s.perr.tail.head? = some e → t.get BRG_PERR_ADDR_LO = e.addr % 2 ^ 32 ∧ t.get BRG_PERR_INFO_STATUS = e.status % 16
            ∧ t.get BRG_PERR_DATA = e.data % 2 ^ 32)
        ∧ t = { s with regs := t.regs, arb := t.arb, resp := ⟨false, 0, false⟩, perr := t.perr }))
    ∧ (s.gate a RST_STAGE_MD.addr true = .pass → s.psPowered = true → ∀ d : Fin 4, bit v.toNat d = true →
        Does (.stageDieReset a v) s (fun t => t.get (PS_CFG d) = 0x14 ∧ t.get (PS_CH_REQ d) = 0 ∧ t.get (PS_SUP_STATE d) = 0
          ∧ t.dieSt d = dieInit ∧ ∀ k : Fin 12, t.ch d k = chanInit k ∧ t.chState d k = 0 ∧ t.get (PS_CH_STAT_CAUSE d k) = 9)))
  ∧ (∀ s : State, Block.live .brg s = true →
    (∀ d : Fin 5, s.link d = 1 → Does (.linkTrainingComplete d) s (fun t => t.link d = 2
      ∧ t.lk d = { s.lk d with down := laneInit, up := laneInit, pollMiss := 0 }
      ∧ (∀ c, c < 5 → c ≠ d.val → t.link c = s.link c) ∧ Keeps [BRG_STAT_LINK] [] s t ∧ t = { s with regs := t.regs, links := t.links }))
    ∧ Does .pollSend s (fun t => (∀ d, d < 5 → s.linkUp d = true → (t.lk d).pollMiss = (s.lk d).pollMiss + 1
          ∧ (t.lk d).down.frames = (s.lk d).down.frames ++ [⟨⟨7, (s.lk d).down.nextSeq, 0, 0, 0, 0, 0⟩, 0⟩]
          ∧ ((s.lk d).pollMiss = 3 → t.isPending 60 = true))
        ∧ (∀ d, s.linkUp d = false → t.lk d = s.lk d) ∧ Keeps [] [60] s t ∧ t = { s with regs := t.regs, links := t.links })
    ∧ Does .heartbeatSend s (fun t => ((∃ d, d < 5 ∧ s.hbRuns d = true) → t.get BRG_HB_CNT = (s.get BRG_HB_CNT + 1) % 2 ^ 16)
        ∧ (∀ d, d < 5 → s.hbRuns d = true →
            (t.lk d).down.frames = (s.lk d).down.frames ++ [⟨⟨6, (s.lk d).down.nextSeq, 0, 0, 0, 0, t.get BRG_HB_CNT⟩, 0⟩])
        ∧ (∀ d, s.hbRuns d = false → t.lk d = s.lk d) ∧ Keeps [BRG_HB_CNT] [] s t ∧ t = { s with regs := t.regs, links := t.links })
    ∧ (∀ (d : Fin 5) (up : Bool) (y : Sent) (rest : List Sent), s.linkUp d = true → (s.side d up).frames = y :: rest →
        (y.fails < 3 → Does (.stageRetransmitTimeout d up) s (fun t =>
          t.side d up = { s.side d up with frames := { y with fails := y.fails + 1 } :: rest, pos := 0 }
          ∧ t.side d (!up) = s.side d (!up) ∧ (∀ c, c ≠ d.val → t.lk c = s.lk c)
          ∧ t.get (BRG_LINK_CNT_RETRY d) = satInc (s.get (BRG_LINK_CNT_RETRY d)) 16 ∧ Keeps [BRG_LINK_CNT_RETRY d] [] s t
          ∧ t = { s with regs := t.regs, links := t.links }))
        ∧ (3 ≤ y.fails → Does (.stageRetransmitTimeout d up) s (fun t =>
            (t.link d = if s.on BRG_CFG_RETRAIN then 1 else 3) ∧ t.isPending 56 = true ∧ (t.lk d).down = laneInit ∧ (t.lk d).up = laneInit
            ∧ t.get (BRG_LINK_CNT_FAULTS d) = satInc (s.get (BRG_LINK_CNT_FAULTS d)) 8))))

/-- With the stage bridge working, the ways to it not stalled, and the link UP, an accepted window read or write opens with the next
tag and sends one frame per 32-bit word, a posted write with the next SEQ where its queue has room and nothing waits, else it
waits at T9; nothing else changes. With the link not UP, and for an unpowered die or a bad shape, a read and a non-posted write
get an error response counted in BRG_NP_ERR; from the Normal world also captured with cause 2. A frame with at most one flipped
bit arrives as its fields lay it out. A read that its die accepts is answered with the far word, or with FAR_UE where the die
finds it uncorrectable; a response is kept with its access, and the oldest complete access gets its data, or, where a part
failed, an error response. A frame with a single flipped bit counts as corrected on its link. (07_stage_bridge.md, Accesses
through the window (R230, R231, R232, R233, R234, R235); 07_stage_bridge.md, Posted-write errors (R242); 07_stage_bridge.md,
Stage link (R225, R227, R229)) -/
def Obligations.WindowAccessesTravelAsFrames : Prop :=
  (∀ (f : Frame) (b : Nat), b < 144 → frameArrives f [] = some (Frame.ofBits f.bits) ∧ frameArrives f [b] = some (Frame.ofBits f.bits))
  ∧ ∀ (s : State), Block.live .brg s = true →
    (∀ (a : Agent) (addr len : Nat) (data : List Word) (d : Nat), dieOf addr = some d → s.fabStalls = false →
      s.islandStalls (islandOf a) = false →
      let q := s.lk d
      let acc (kind : Nat) (posted : Bool) (seq tag : Nat) (l : List Nat) : WinAcc :=
        ⟨tag, a, addr, decide (kind ≠ 3), posted, seq, l, [], [], [], .plain⟩
      let opened (kind : Nat) (posted : Bool) (seq : Nat) (l : List Nat) (t : State) : Prop :=
        (t.lk d).accs = q.accs ++ [acc kind posted seq q.nextTag l] ∧ (t.lk d).nextTag = (q.nextTag + 1) % 256
        ∧ (t.lk d).down.frames.length = q.down.frames.length + l.length
        ∧ (∀ i, i < l.length → ((t.lk d).down.frames[q.down.frames.length + i]?).map
              (fun y => (y.frame.kind, y.frame.tag, y.frame.off, y.frame.data, y.fails))
            = some (kind, q.nextTag, addr - winBase d + 4 * i, l.getD i 0, 0))
        ∧ (∀ c, c ≠ d → t.lk c = s.lk c)
      let words := (data.take (len / 4)).map BitVec.toNat
      let bad (t : State) : Prop := t.resp = ⟨true, 0, false⟩ ∧ t.get BRG_NP_ERR = satInc (s.get BRG_NP_ERR) 32
        ∧ Changes [BRG_NP_ERR] [] { s with resp := ⟨true, 0, false⟩, arb := t.arb } t
      (s.windowRefused a d addr len = none → s.linkUp d = true →
        Does (.windowRead a addr len) s (fun t => opened 3 false 0 (List.replicate (len / 4) 0) t ∧ Keeps [] [] s t
          ∧ t = { s with regs := t.regs, links := t.links, arb := t.arb })
        ∧ (s.nonPosted a = true → Does (.windowNonpostedWrite a addr len data) s (fun t => opened 2 false 0 words t ∧ Keeps [] [] s t
            ∧ t = { s with regs := t.regs, links := t.links, arb := t.arb }))
        ∧ (s.nonPosted a = false → q.waits = [] → s.postedRoom d words.length = true →
            Does (.windowPostedWrite a addr len data) s (fun t =>
              opened 1 true ((s.get (BRG_POST_SEQ d) + 1) % 2 ^ 16) words t
              ∧ t.get (BRG_POST_SEQ d) = (s.get (BRG_POST_SEQ d) + 1) % 2 ^ 16
              ∧ Keeps [BRG_POST_SEQ d] [] s t
              ∧ t = { s with regs := t.regs, links := t.links, arb := t.arb, resp := ⟨false, 0, false⟩ }))
        ∧ (s.nonPosted a = false → (q.waits ≠ [] ∨ s.postedRoom d words.length = false) →
            Does (.windowPostedWrite a addr len data) s (fun t => t.lk d = { q with waits := q.waits ++ [acc 1 true 0 0 words] }
              ∧ (∀ c, c ≠ d → t.lk c = s.lk c) ∧ Keeps [] [] s t ∧ t = { s with regs := t.regs, links := t.links, arb := t.arb })))
      ∧ ((s.windowRefused a d addr len = some false ∨ (s.windowRefused a d addr len = none ∧ s.linkUp d = false ∧ s.nonPosted a = true)) →
          Does (.windowRead a addr len) s bad ∧ Does (.windowNonpostedWrite a addr len data) s bad)
      ∧ (isNormal a s = true → Does (.windowRead a addr len) s (fun t => t.resp = ⟨true, 0, false⟩ ∧ t.isPending 249 = true
          ∧ t.get BRG_NP_ERR = satInc (s.get BRG_NP_ERR) 32
          ∧ (s.on WLD_VIOL_INFO_VALID = false → t.get WLD_VIOL_INFO_CAUSE = 2 ∧ t.get WLD_VIOL_ADDR_LO = addr % 2 ^ 32))))
    ∧ (∀ (d : Fin 5) (g : Frame) (fl : List Nat) (tm : Nat) (ue : Bool), s.linkUp d = true → s.diePowered d = true →
        ((s.lk d).down.pos < (s.lk d).down.frames.length → frameArrives (s.nextFrame d false) fl = some g → g.kind = 3 →
          (s.lk d).down.takes g = true → (s.lk d).up.covered g.ack = 0 → Does (.stageFrameReceive d false fl ⟨tm, ue⟩) s (fun t =>
            (t.lk d).down.pos = (s.lk d).down.pos + 1 ∧ (t.lk d).down.rxNext = ((s.lk d).down.rxNext + 1) % 256
            ∧ (t.lk d).accs = (s.lk d).accs ∧ (t.lk d).up.frames = (s.lk d).up.frames ++
                [⟨⟨4, (s.lk d).up.nextSeq, 0, if ue then 4 else (s.farRead d g.off).1, g.tag, g.off, if ue then 0 else (s.farRead d g.off).2⟩,
                  0⟩]))
        ∧ (∀ (x : WinAcc) (b : Nat), b < 144 → (s.lk d).up.pos < (s.lk d).up.frames.length → frameArrives (s.nextFrame d true) [b] = some g →
            g.kind = 4 → (s.lk d).up.takes g = true → (s.lk d).down.covered g.ack = 0 → (s.lk d).accs = [x] → x.tag = g.tag →
            (x.write && x.posted) = false → x.got.length < x.data.length → (s.lk d).waits = [] →
            Does (.stageFrameReceive d true [b] ⟨tm, ue⟩) s (fun t => (t.lk d).up.pos = (s.lk d).up.pos + 1
              ∧ (t.lk d).accs = [{ x with got := x.got ++ [(g.status, g.data)] }]
              ∧ t.get (BRG_LINK_WCE_CE d) = satInc (s.get (BRG_LINK_WCE_CE d)) 16 ∧ t.isPending 12 = true)))
    ∧ (∀ (d : Fin 5) (x : WinAcc), (s.lk d).accs = [x] → (x.write && x.posted) = false → x.got.length = x.data.length → x.mark = .plain →
        x.flips = [] → s.dma = [] → s.dbg.acc = none → Does (.windowAccessComplete d) s (fun t => (t.lk d).accs = []
          ∧ ((∀ g ∈ x.got, g.1 = 0) → t.resp = ⟨false, if x.write then 0 else joinWords x.got, false⟩ ∧ Keeps [] [] s t
              ∧ t = { s with regs := t.regs, links := t.links, resp := t.resp })
          ∧ ((∃ g ∈ x.got, g.1 ≠ 0) → t.resp = ⟨true, 0, false⟩ ∧ t.get BRG_NP_ERR = satInc (s.get BRG_NP_ERR) 32)))

/-- With the stage dies powered and no motor bridge active: a masked request turns an OFF channel on, to INRUSH, or to DEFERRED
where the die refuses, (in the hold state of the boot nothing turns on), or takes a channel that is not LATCHED to OFF with
cause 0x1; a clear takes a LATCHED channel that is not too hot and has no request to OFF with no retries used, and is refused
for one that is too hot; limit classes, directions, EV_ bits, counters, die flags, the diagnostic latch and HOLD_MS take what
the write says, an illegal class or direction refusing the whole write. A sample shows in CH_DIAG, the current in units of the
class (rounded: the model's choice, log entry 171), and the die words. A heartbeat with a new count brings NORMAL, its loss
HOLD, and the end of HOLD_MS, counted in whole milliseconds, the fallback. A shadow word with defined bits only is stored and
dirty; a commit that names the dirty words in range applies them, another drops them. Only that die changes; a control line, a
direct one only where its pin is configured as such, changes only the lines and the dies. (09_load_channel_control.md, Request
and control line (R287, R288, R290); 09_load_channel_control.md, Diagnostics (R299, R302, R305); 09_load_channel_control.md,
When the controller stops (R307, R308, R309); 08_load_channels_protection.md, Junction trip and retry (R263, R264);
07_stage_bridge.md, Shadow sets (R238, R239)) -/
def Obligations.StageDieRegistersActOnTheirDie : Prop :=
  (∀ (s : State) (d : Fin 4), s.psPowered = true → (s.dieSt d).bridgeEn = 0 →
    let st (t : State) : Nat := (t.dieSt d).status
    (∀ (v : Word),
      Does (.chCmdWrite d v) s (fun t => DieOnly d s t ∧ st t = 0
        ∧ (∀ k, k < 12 → bit (t.get (PS_CH_REQ d)) k = if bit v.toNat (16 + k) then bit v.toNat k else bit (s.get (PS_CH_REQ d)) k)
        ∧ (∀ k, k < 12 → bit v.toNat (16 + k) = true → (s.ch d k).directReq = false →
            (bit v.toNat k = true → s.chState d k = 0 → s.on (PS_STAT_UV d) = false → s.pwr.phase ≠ .hold → t.chState d k = if s.dieRefuses d then 5 else 1)
            ∧ (bit v.toNat k = false → s.chState d k ≠ 0 → s.chState d k ≠ 6 →
                t.chState d k = 0 ∧ t.get (PS_CH_STAT_CAUSE d k) = 1)))
      ∧ Does (.chClearWrite d v) s (fun t => DieOnly d s t ∧ (∀ k, k < 12 → bit v.toNat k = true → s.chState d k = 6 →
          (s.clearRefused d k = true → t.chState d k = 6 ∧ st t = 2)
          ∧ (s.clearRefused d k = false → s.request d k = false → t.chState d k = 0 ∧ t.get (PS_CH_STAT_RETRIES d k) = 0))
          ∧ ((∀ k, k < 12 → s.clearRefused d k = false) → st t = 0))
      ∧ Does (.brCmdWrite d v) s (fun t => DieOnly d s t
          ∧ (if (bit v.toNat 8 && bits v.toNat 0 2 == 3) || (bit v.toNat 9 && bits v.toNat 2 2 == 3) then st t = 2 ∧ Keeps [] [] s t
             else st t = 0 ∧ (t.get (PS_BR_DIR_DIR0 d) = if bit v.toNat 8 then bits v.toNat 0 2 else s.get (PS_BR_DIR_DIR0 d))
               ∧ (t.get (PS_BR_DIR_DIR1 d) = if bit v.toNat 9 then bits v.toNat 2 2 else s.get (PS_BR_DIR_DIR1 d))))
      ∧ Does (.chLimWrite d v) s (fun t => DieOnly d s t
          ∧ (if (List.range 12).all (fun k => limClassOk k (bits v.toNat (2 * k) 2)) = true then st t = 0 ∧ t.get (PS_CH_LIM d) = v.toNat % 2 ^ 24
               ∧ ∀ k, k < 12 → t.get (PS_CH_STAT_LIMCLS d k) = bits v.toNat (2 * k) 2
             else st t = 2 ∧ Keeps [] [] s t))
      ∧ Does (.infoClrCh d v) s (fun t => DieOnly d s t ∧ st t = 0 ∧ ∀ k, k < 12 → bit v.toNat k = true →
          (∀ f ∈ [PS_CH_STAT_EV_SHORT d k, PS_CH_STAT_EV_OPEN_OFF d k, PS_CH_STAT_EV_OPEN_ON d k, PS_CH_STAT_EV_STATE d k], t.get f = 0)
          ∧ (bit v.toNat 13 = true → ∀ f ∈ [PS_CH_FCNT0_DEFER d k, PS_CH_FCNT0_UV d k, PS_CH_FCNT0_LIMTIME d k, PS_CH_FCNT0_JTRIP d k,
              PS_CH_FCNT1_SHORT_BAT d k, PS_CH_FCNT1_OPEN d k, PS_CH_FCNT1_SHED d k, PS_CH_FCNT1_WIRE d k], t.get f = 0))
      ∧ (bit v.toNat 16 = true → Does (.infoClrDie d v) s (fun t => DieOnly d s t ∧ st t = 0 ∧ ∀ f ∈ [PS_DIEFLAG_SHED_NONE d, PS_DIEFLAG_SHED d,
          PS_DIEFLAG_CEIL_REFUSE d, PS_DIEFLAG_RESTART d, PS_DIEFLAG_UV_OFF d, PS_DIEFLAG_SENSOR_FAIL d, PS_DIEFLAG_OVERTEMP d,
          PS_DIEFLAG_DERATE_OUT d, PS_DIEFLAG_DERATE_IN d, PS_SUP_FB_APPLIED d], t.get f = 0))
      ∧ (bit v.toNat 0 = true → Does (.diagLatchWrite d v) s (fun t => DieOnly d s t ∧ t.get (PS_LATCH_DIE1_ISUM d) = s.get (PS_ISUM d) % 2 ^ 16
          ∧ ∀ k, k < 12 → t.get (PS_LATCH_DIAG d k) = s.psWord d (0x404 + 0x10 * k) % 2 ^ 32
            ∧ t.get (PS_LATCH_STAT d k) = s.psWord d (0x400 + 0x10 * k) % 2 ^ 32))
      ∧ Does (.holdMsWrite d v) s (fun t => DieOnly d s t ∧ t.get (PS_CFG d) = v.toNat % 256 ∧ st t = 0
          ∧ (s.get (PS_SUP_STATE d) = 2 → t.get (PS_SUP_HOLD_LEFT d) = (max 1 (v.toNat % 256) - (s.dieSt d).heldMs) % 256))
      ∧ (∀ (b n i k : Nat), psSet (b + 4 * i) = some (b, n) → i < n → b + 4 * i < 0x10000 → b % 4 = 0 →
          let win := 0x50000000 + 0x10000 * d.val
          Does (.shadowWordWrite d.castSucc (b + 4 * i) v) s (fun t => DieOnly d s t
            ∧ (if (v.toNat &&& definedBits rowsPs (win + b + 4 * i)) = v.toNat then st t = 0
                 ∧ t.get (dirtyFld (win + b + 4 * n)) = orBits (s.get (dirtyFld (win + b + 4 * n))) (2 ^ i) % 256
               else st t = 2 ∧ Keeps [] [] s t))
          ∧ (b = 0x100 + 0x20 * k → k < 12 → ∀ w : Word,
              let dirty := s.get (dirtyFld (win + b + 20))
              (w.toNat % 256 = dirty → dirty ≠ 0 → s.chanShadowOk d k = true → Does (.shadowCommit d.castSucc (b + 20) w) s (fun t => DieOnly d s t
                ∧ st t = 0 ∧ t.get (dirtyFld (win + b + 20)) = 0 ∧ t.get (appliedFld (win + b + 20)) = dirty % 256
                ∧ (t.ch d k).inrushMs = s.get (PS_CH_PROT0_INRUSH_MS d k) ∧ (t.ch d k).retryMax = s.get (PS_CH_PROT0_RETRY_MAX d k)
                ∧ (t.ch d k).wireMax = s.get (PS_CH_PROT2_WIRE_MAX d k) ∧ (t.ch d k).src = s.get (PS_CH_ROUTE_SRC d k)
                ∧ (t.ch d k).fallback = s.get (PS_CH_ROUTE_FALLBACK d k)))
              ∧ (w.toNat % 256 = dirty → dirty ≠ 0 → s.chanShadowOk d k = false → Does (.shadowCommit d.castSucc (b + 20) w) s (fun t => st t = 2
                ∧ t.get (dirtyFld (win + b + 20)) = dirty))
              ∧ (w.toNat % 256 ≠ dirty → dirty ≠ 0 → Does (.shadowCommit d.castSucc (b + 20) w) s (fun t => st t = 3
                ∧ t.get (dirtyFld (win + b + 20)) = 0 ∧ (t.ch d k).src = (s.ch d k).src)))))
    ∧ (∀ count : Fin 65536, (s.dieSt d).hbLast ≠ some count.val → Does (.heartbeatReceive d count) s (fun t => DieOnly d s t
        ∧ t.get (PS_SUP_STATE d) = 1 ∧ t.get (PS_SUP_HOLD_LEFT d) = 0 ∧ (t.dieSt d).hbLast = some count.val))
    ∧ (s.get (PS_SUP_STATE d) = 1 → Does (.supervisionHoldEnter d) s (fun t => DieOnly d s t ∧ t.get (PS_SUP_STATE d) = 2
        ∧ t.get (PS_SUP_HOLD_LEFT d) = s.holdMs d % 256))
    ∧ (s.get (PS_SUP_STATE d) = 2 → s.holdMs d ≤ (s.dieSt d).heldMs + 1 → Does (.fallbackApply d) s (fun t => DieOnly d s t ∧ t.get (PS_SUP_STATE d) = 3
        ∧ t.get (PS_SUP_FB_APPLIED d) = 1 ∧ ∀ k, k < 12 → bit (t.get (PS_CH_REQ d)) k =
          if (s.ch d k).fallback = 0 then false else if (s.ch d k).fallback = 1 then true else bit (s.get (PS_CH_REQ d)) k))
    ∧ (∀ (l : List ChanSample) (tdie vstage : Nat),
        let u := ((l.take 12).zipIdx).foldl (fun (u : State) p => u.setCh d p.2 { u.ch d p.2 with load := p.1.load }) s
        Does (.channelDiagSample d l tdie vstage) s (fun t => DieOnly d s t
        ∧ t.get (PS_STAT_TDIE d) = tdie % 256 ∧ t.get (PS_STAT_VSTAGE d) = vstage % 256 ∧ (52 < vstage → t.get (PS_STAT_UV d) = 0)
        ∧ ∀ k x, k < 12 → l[k]? = some x → (t.ch d k).load = x.load ∧ t.get (PS_CH_DIAG_TJ d k) = x.tj % 256
          ∧ t.get (PS_CH_DIAG_I d k) = unsigned (diagUnits k (u.current d k)) 16)))
  ∧ (∀ (s : State) (j : Fin 32) (high : Bool), Does (.controlLineChange j high) s (fun t => bit t.lines j = (high && s.lineUsable j)
      ∧ (∀ i, i ≠ j.val → bit t.lines i = bit s.lines i)
      ∧ (s.psPowered = true → ∀ d k, d < 4 → k < 12 → t.get (PS_CH_STAT_LINE d k) = b2n (t.lineActive d k))
      ∧ (∀ f : Fld, pendFld f = false → f.key < 0x50000000 * 32 ∨ 0x50040000 * 32 ≤ f.key → t.get f = s.get f)
      ∧ t = { s with regs := t.regs, lines := t.lines, chan := t.chan, die := t.die }))

/-- With the stage dies powered and no motor bridge active, each event of a die changes that die only. A load current above the
limits of the class in force limits, one below does not. A limit-time or junction trip of a requested channel leads to COOL, or
LATCHED with all retries used, its cause counted and flagged; a wire above WIRE_MAX and a shed latch it. A retry counts and
turns on; a turn-on is DEFERRED where the die refuses. The inrush window ends in RUN; a second in RUN clears the retries. Under-
voltage takes conducting channels to UV_OFF and the restart sequence brings them back one by one; derating and a failed sensor
set their flags, over-temperature takes channels to COOL with cause 0x7; the sum sets the ceiling, and a shed latches the
channel in RUN that carries the most. Off-state phases set or clear their reports. A bridge whose brake ends turns on anew.
(08_load_channels_protection.md, Channel protection states (R257); 08_load_channels_protection.md, Inrush window (R259, R260);
08_load_channels_protection.md, Current limiting (R261); 08_load_channels_protection.md, Junction trip and retry (R262, R263);
08_load_channels_protection.md, Wire budget (R265); 08_load_channels_protection.md, Under-voltage (R268, R269);
08_load_channels_protection.md, Die-level coupling (R271, R272, R273, R270, R274, R276); 08_load_channels_protection.md, Open-
load and short-to-battery detection (R278); 08_load_channels_protection.md, Motor bridges (R282)) -/
def Obligations.ChannelProtectionStatesMove : Prop :=
  (∀ (s : State) (d : Fin 4), s.psPowered = true → (s.dieSt d).bridgeEn = 0 →
    let flagged (k cause : Nat) (t : State) : Prop := t.get (PS_CH_STAT_CAUSE d k) = cause ∧ t.get (PS_CH_STAT_EV_STATE d k) = 1
      ∧ bit (t.dieSt d).flags k = true
    let takes := s.dieRefuses d = false ∧ s.on (PS_STAT_UV d) = false ∧ s.pwr.phase ≠ .hold
    (∀ k : Fin 12,
      (∀ load : Nat, s.highSide d k = true → Does (.currentLimitEngage d ⟨k, load⟩) s (fun t => DieOnly d s t ∧ (t.ch d k).load = load
        ∧ ((s.limitOf d k).2 < load → t.get (PS_CH_STAT_LIMITING d k) = 1)
        ∧ (load ≤ (s.limitOf d k).1 → t.get (PS_CH_STAT_LIMITING d k) = 0)))
      ∧ (∀ x ∈ ([(.limitTimeTrip d k, 3, PS_CH_FCNT0_LIMTIME d k), (.junctionTrip d k, 2, PS_CH_FCNT0_JTRIP d k)] : List (Instr × Nat × Fld)),
          s.chState d k = 2 → s.on (PS_CH_STAT_LIMITING d k) = true → 399 ≤ (s.ch d k).limCnt → s.request d k = true →
          Does x.1 s (fun t => DieOnly d s t
            ∧ (t.chState d k = if s.get (PS_CH_STAT_RETRIES d k) = (s.ch d k).retryMax then 6 else 3) ∧ flagged k x.2.1 t
            ∧ t.get x.2.2 = satInc (s.get x.2.2) 8 ∧ t.get (PS_CH_STAT_LIMITING d k) = 0))
      ∧ (s.chState d k = 3 → s.get (PS_CH_STAT_CAUSE d k) ∈ [2, 3, 6] → s.request d k = true → s.on (PS_STAT_UV d) = false →
          (s.ch d k).coolMs ≤ (s.ch d k).stMs + 1 → s.pwr.phase ≠ .hold → Does (.channelRetry d k) s (fun t => DieOnly d s t ∧ (t.chState d k = if s.dieRefuses d then 5 else 1)
            ∧ t.get (PS_CH_STAT_RETRIES d k) = (s.get (PS_CH_STAT_RETRIES d k) + 1) % 8 ∧ t.get (PS_CH_STAT_EV_STATE d k) = 1))
      ∧ (s.chState d k = 2 → 999 ≤ (s.ch d k).stMs → Does (.retryCountClear d k) s (fun t => DieOnly d s t ∧ t.get (PS_CH_STAT_RETRIES d k) = 0))
      ∧ (s.chState d k = 1 → s.windowRun d k = true → Does (.inrushWindowEnd d k) s (fun t => DieOnly d s t ∧ t.chState d k = 2))
      ∧ (∀ above : Bool, s.chOn d k = false →
          let c := s.ch d k
          (c.olOff && c.pullUp) = true → Does (.offStatePhaseEnd d k above) s (fun t => DieOnly d s t ∧ (t.ch d k).pullUp = false
            ∧ t.on (PS_CH_STAT_OPEN_OFF d k) = (above && c.lowBefore)))
      ∧ (∀ above : Bool, s.chOn d k = false →
          let c := s.ch d k
          (c.olOff && c.pullUp) = false → Does (.offStatePhaseEnd d k above) s (fun t => DieOnly d s t ∧ (t.ch d k).pullUp = c.olOff
            ∧ (t.ch d k).lowBefore = !above ∧ t.on (PS_CH_STAT_SHORT_BAT d k) = above)))
    ∧ Does (.wireModelUpdate d) s (fun t => DieOnly d s t ∧ ∀ k, k < 12 → (t.ch d k).dT = wireStep (s.ch d k)
        ∧ (s.chOn d k = true → ((s.ch d k).wireMax : Int) < ((s.ch d k).wireAmb : Rat) + wireStep (s.ch d k) →
            t.chState d k = 6 ∧ flagged k 4 t ∧ t.get (PS_CH_FCNT1_WIRE d k) = satInc (s.get (PS_CH_FCNT1_WIRE d k)) 8))
    ∧ Does (.undervoltageTurnOff d) s (fun t => DieOnly d s t ∧ t.get (PS_STAT_UV d) = 1 ∧ t.get (PS_STAT_RSTSEQ d) = 0
        ∧ ∀ k, k < 12 → s.chOn d k = true → s.on (PS_CH_STAT_LIMITING d k) = false → s.request d k = true →
          t.chState d k = 4 ∧ flagged k 5 t ∧ t.get (PS_DIEFLAG_UV_OFF d) = 1)
    ∧ (lowest (fun k => s.chState d k == 4) ≠ none → Does (.uvRestartBegin d) s (fun t => DieOnly d s t ∧ t.get (PS_STAT_UV d) = 0
        ∧ t.get (PS_STAT_RSTSEQ d) = 1 ∧ t.get (PS_DIEFLAG_RESTART d) = 1))
    ∧ (∀ k, takes → s.on (PS_STAT_RSTSEQ d) = true → lowest (fun j => s.chState d j == 4) = some k → s.request d k = true →
        Does (.uvRestartSlot d) s (fun t => DieOnly d s t ∧ t.chState d k = 1 ∧ (∀ j, j < 12 → j ≠ k → t.chState d j = s.chState d j)
          ∧ ((∀ j, j < 12 → j ≠ k → s.chState d j ≠ 4) → t.get (PS_STAT_RSTSEQ d) = 0)))
    ∧ (s.on (PS_STAT_DERATE d) = false → Does (.dieDeratingEnter d) s (fun t => DieOnly d s t ∧ t.get (PS_STAT_DERATE d) = 1
        ∧ t.get (PS_DIEFLAG_DERATE_IN d) = 1 ∧ bit (t.dieSt d).flags 12 = true
        ∧ ∀ k, k < 12 → t.chState d k = if s.chState d k = 1 ∧ 10 ≤ (s.ch d k).stMs then 2 else s.chState d k))
    ∧ (s.on (PS_STAT_DERATE d) = true → s.on (PS_STAT_SENSOR_FAIL d) = false → Does (.dieDeratingExit d) s (fun t => DieOnly d s t
        ∧ t.get (PS_STAT_DERATE d) = 0 ∧ t.get (PS_DIEFLAG_DERATE_OUT d) = 1))
    ∧ (∀ k, takes → lowest (fun j => s.waitsForSlot d j) = some k → Does (.deferredTurnOnSlot d) s (fun t =>
        DieOnly d s t ∧ t.chState d k = 1 ∧ ∀ j, j < 12 → j ≠ k → t.chState d j = s.chState d j))
    ∧ (s.on (PS_STAT_SENSOR_FAIL d) = false →
        Does (.dieOvertempShutdown d) s (fun t => DieOnly d s t ∧ t.get (PS_DIEFLAG_OVERTEMP d) = 1
          ∧ ∀ k, k < 12 → (s.chOn d k || s.chState d k == 5) = true → t.chState d k = 3 ∧ flagged k 7 t)
        ∧ Does (.dieSensorFail d) s (fun t => DieOnly d s t ∧ t.get (PS_STAT_SENSOR_FAIL d) = 1 ∧ t.on (PS_STAT_DERATE d) = true
          ∧ t.get (PS_DIEFLAG_SENSOR_FAIL d) = 1))
    ∧ Does (.currentSumUpdate d) s (fun t => DieOnly d s t ∧ t.get (PS_ISUM d) = s.dieSum d % 2 ^ 16
        ∧ t.on (PS_STAT_CEIL d) = decide (2000 < s.dieSum d))
    ∧ (s.on (PS_STAT_CEIL d) = true →
        let ended (k : Nat) : Prop := k < 12 ∧ s.chState d k = 2 ∧ classPick k 40000 15000 5000 < s.chMilliamps d k
        (∀ k, ended k → (∀ j, ended j → j ≠ k → s.chMilliamps d j < s.chMilliamps d k) → Does (.stageShed d) s (fun t => DieOnly d s t
          ∧ t.chState d k = 6 ∧ flagged k 8 t ∧ t.get (PS_DIEFLAG_SHED d) = 1 ∧ ∀ j, j < 12 → j ≠ k → t.chState d j = s.chState d j))
        ∧ ((∀ k, ¬ ended k) → Does (.stageShed d) s (fun t => DieOnly d s t ∧ t.get (PS_DIEFLAG_SHED_NONE d) = 1
          ∧ ∀ j, j < 12 → t.chState d j = s.chState d j))))
  ∧ (∀ (s : State) (d : Fin 4) (p : Fin 2), s.psPowered = true → s.brakeOf d p ≠ 0 → s.chOn d (2 + 2 * p) = true → s.dieRefuses d = false →
      s.on (PS_STAT_UV d) = false → s.pwr.phase ≠ .hold → Does (.bridgeBrakeEnd d p) s (fun t => DieOnly d s t ∧ t.brakeOf d p = 0 ∧ t.chState d (2 + 2 * p) = 1))

/-- An LT_CFG write from SG0 that sets EN takes its fields, and from 0 loads the counter with PHASE mod PERIOD and takes the waiting
times; the line has the level of the counter. A write with EN 0 takes its fields and the line is low. A wrap takes the waiting
times with the counter 0. LT_RUN takes its value and every channel's LINE follows. Besides the fields named only the dies'
windows, the load timers, the lines and the dies change. A load sum with every die reached and nothing queued towards it puts
the sum of the dies' currents in front of the last 1000 and shows their mean and its maximum; sums before the first count as
zero (the model's reading). (09_load_channel_control.md, Load timer (R293, R294, R295); 09_load_channel_control.md, Request and
control line (R288, R290); 09_load_channel_control.md, Diagnostics (R306); 09_load_channel_control.md, LCC register map) -/
def Obligations.LoadTimersDriveTheirLines : Prop :=
  ∀ s : State,
    let level (high period count : Nat) : Bool := period != 0 && decide (count < high)
    let rest (own : List Fld) (t : State) : Prop := ∀ f : Fld, pendFld f = false → (f.key < 0x50000000 * 32 ∨ 0x50040000 * 32 ≤ f.key) →
      (∀ g ∈ own, g.key ≠ f.key) → t.get f = s.get f
    (∀ (a : Agent) (n : Fin 24) (v : Word), s.gate a (LCC_LT_CFG_EN n).addr true = .pass → idOf a ≤ 2 →
      let own := [LCC_LT_CFG_EN n, LCC_LT_CFG_PRESC n, LCC_LT_CFG_RS_EN n, LCC_LT_CFG_TCU n]
      let cfg (t : State) : Prop := t.get (LCC_LT_CFG_EN n) = bits v.toNat 31 1 ∧ t.get (LCC_LT_CFG_PRESC n) = bits v.toNat 8 2
        ∧ t.get (LCC_LT_CFG_RS_EN n) = bits v.toNat 4 1 ∧ t.get (LCC_LT_CFG_TCU n) = bits v.toNat 0 4
      let hi := s.get (LCC_LT_TIME_HIGH n)
      let pe := s.get (LCC_LT_TIME_PERIOD n)
      let ph := s.get (LCC_LT_PHASE n)
      (bit v.toNat 31 = true → s.on (LCC_LT_CFG_EN n) = false → Does (.ltEnable a n v) s (fun t => cfg t
          ∧ t.lt n = ⟨ph % pe, hi, pe, ph, bits v.toNat 8 2⟩ ∧ bit t.lines n = level hi pe (ph % pe)
          ∧ (∀ i, i ≠ n.val → bit t.lines i = bit s.lines i ∧ t.lt i = s.lt i) ∧ rest own t
          ∧ t = { s with regs := t.regs, arb := t.arb, resp := ⟨false, 0, false⟩, lcc := t.lcc, lines := t.lines, chan := t.chan, die := t.die }))
      ∧ (bit v.toNat 31 = true → s.on (LCC_LT_CFG_EN n) = true → Does (.ltEnable a n v) s (fun t => cfg t ∧ Writes own [] s t))
      ∧ (bit v.toNat 31 = false → Does (.ltDisable a n v) s (fun t => cfg t ∧ bit t.lines n = false
          ∧ (∀ i, i ≠ n.val → bit t.lines i = bit s.lines i) ∧ rest own t
          ∧ t = { s with regs := t.regs, arb := t.arb, resp := ⟨false, 0, false⟩, lines := t.lines, chan := t.chan, die := t.die })))
    ∧ (∀ n : Fin 24, Block.lcc.live s = true → s.on (LCC_LT_CFG_EN n) = true → Does (.loadTimerWrap n) s (fun t =>
        t.lt n = ⟨0, s.get (LCC_LT_TIME_HIGH n), s.get (LCC_LT_TIME_PERIOD n), s.get (LCC_LT_PHASE n), s.get (LCC_LT_CFG_PRESC n)⟩
        ∧ bit t.lines n = level (s.get (LCC_LT_TIME_HIGH n)) (s.get (LCC_LT_TIME_PERIOD n)) 0
        ∧ (∀ i, i ≠ n.val → bit t.lines i = bit s.lines i ∧ t.lt i = s.lt i) ∧ rest [] t
        ∧ t = { s with regs := t.regs, lcc := t.lcc, lines := t.lines, chan := t.chan, die := t.die }))
    ∧ (∀ (a : Agent) (v : Word), s.gate a LCC_CTL_LT_RUN.addr true = .pass → idOf a ≤ 2 → Does (.ltRunWrite a v) s (fun t =>
        t.get LCC_CTL_LT_RUN = bits v.toNat 8 1
        ∧ (s.psPowered = true → ∀ d k, d < 4 → k < 12 → t.get (PS_CH_STAT_LINE d k) = b2n (t.lineActive d k))
        ∧ rest [LCC_CTL_LT_RUN] t ∧ t = { s with regs := t.regs, arb := t.arb, resp := ⟨false, 0, false⟩, chan := t.chan, die := t.die }))
    ∧ (Block.lcc.live s = true → (∀ d, d < 4 → s.lccMiss d = 0 ∧ (s.lk d).down.frames = []) → s.get LCC_LOAD_MAX < 2 ^ 16 →
        let total := s.get (PS_ISUM 0) + s.get (PS_ISUM 1) + s.get (PS_ISUM 2) + s.get (PS_ISUM 3)
        let mean := min ((((total :: s.lcc.sums).take 1000).sum) / 1000) 65535
        Does .lccLoadSum s (fun t => t.lcc.sums = (total :: s.lcc.sums).take 1000 ∧ t.get LCC_LOAD_MEAN = mean
          ∧ t.get LCC_LOAD_MAX = max mean (s.get LCC_LOAD_MAX) ∧ Keeps [LCC_LOAD_MEAN, LCC_LOAD_MAX, LCC_STAT_DIE_OK] [] s t
          ∧ t = { s with regs := t.regs, lcc := t.lcc, links := t.links }))

/-- With the LCC working, all dies reached with nothing queued towards them, no motor bridge and no snapshot in progress, the head
descriptor, well-formed and with its OP, finishes: REQ sets the addressed requests, BRIDGE the addressed directions, CLEAR takes
addressed LATCHED channels to OFF unless refused (status 0x11, counted in BRG_NP_ERR), LIMIT sets the addressed classes, CLRINFO
clears EV_STATE, DIAG writes a record at its address; RESULT names the addressed channels still LATCHED. Only the dies, their
links, the LCC's status and its ring change. An executed NOCPL descriptor leaves the ring and BUSY clears. A periodic trigger
begins a snapshot, waits for a descriptor, or is refused with cause 5 while one is unfinished; its end writes the record at the
buffer's next place and moves WI on. (09_load_channel_control.md, Command ring (R297, R298, R299, R300, R301);
09_load_channel_control.md, Diagnostics (R302, R303, R304); 08_load_channels_protection.md, Junction trip and retry (R263,
R264); 09_load_channel_control.md, LCC register map) -/
def Obligations.LccDescriptorsReachTheirDies : Prop :=
  ∀ s : State, Block.lcc.live s = true →
    let reached := (∀ d, d < 4 → s.lccMiss d = 0 ∧ (s.lk d).down.frames = [])
    let dieRegs (own : List Fld) (t : State) : Prop := ∀ f : Fld, pendFld f = false → (f.key < 0x50000000 * 32 ∨ 0x50040000 * 32 ≤ f.key) →
      (∀ g ∈ LCC_STAT_BUSY :: LCC_STAT_DIE_OK :: own, g.key ≠ f.key) → t.get f = s.get f
    let latched (t : State) : Prop := ∀ d k, d < 4 → k < 12 → t.get (PS_LATCH_DIAG d k) = s.psWord d (0x404 + 0x10 * k) % 2 ^ 32
      ∧ t.get (PS_LATCH_STAT d k) = s.psWord d (0x400 + 0x10 * k) % 2 ^ 32
    let room (addr : Nat) : Prop := s.memGate .lcc true (addr + 16) 496 = none ∧ s.memGate .lcc true addr 16 = none
      ∧ (∃ p, p ∈ [1, 4, 6] ∧ targetOfRange addr 512 = some p) ∧ addr % 64 = 0
    (∀ (it : Item) (op : Nat), s.lccHead op = some it → lccFormatOk it.desc = true → reached → (∀ d, d < 4 → (s.dieSt d).bridgeEn = 0) →
      let d0 := it.desc
      let mask (d k : Nat) : Bool := bit (dbits d0 64 48) (12 * d + k)
      let ended (own : List Fld) (st res : Nat) (t : State) : Prop := t.get LCC_STAT_BUSY = 1 ∧ dieRegs own t
        ∧ (t.ring .lcc).items = (s.ring .lcc).items.map (fun x => if x.idx = it.idx then { x with started := true, fin := some (st, res, 0) } else x)
      let dies (t : State) : Prop := t = { s with regs := t.regs, rings := t.rings, chan := t.chan, die := t.die, links := t.links }
      (op = 0 → Does .lccNop s (fun t => ended [] 0 0 t ∧ Keeps [LCC_STAT_BUSY] [] s t ∧ t = { s with regs := t.regs, rings := t.rings }))
      ∧ (op = 1 → Does .lccReq s (fun t => ended [] 0 (t.latchedOf (dbits d0 64 48) 0) t ∧ dies t ∧ ∀ d k, d < 4 → k < 12 →
          bit (t.get (PS_CH_REQ d)) k = if mask d k then bit (dbits d0 128 48) (12 * d + k) else bit (s.get (PS_CH_REQ d)) k))
      ∧ (op = 2 → Does .lccBridge s (fun t => ended [] 0 0 t ∧ dies t ∧ ∀ d, d < 4 →
          t.get (PS_BR_DIR_DIR0 d) = (if dbits d0 (64 + 2 * d) 1 = 1 then dbits d0 (72 + 4 * d) 2 else s.get (PS_BR_DIR_DIR0 d))
          ∧ t.get (PS_BR_DIR_DIR1 d) = (if dbits d0 (65 + 2 * d) 1 = 1 then dbits d0 (74 + 4 * d) 2 else s.get (PS_BR_DIR_DIR1 d))))
      ∧ (op = 3 → Does .lccClear s (fun t => dies t
          ∧ ((∀ d k, d < 4 → k < 12 → mask d k = true → s.clearRefused d k = false) → ended [] 0 (t.latchedOf (dbits d0 64 48) 0) t)
          ∧ ((∃ d k, d < 4 ∧ k < 12 ∧ mask d k = true ∧ s.clearRefused d k = true) → ended [BRG_NP_ERR] 0x11 (t.latchedOf (dbits d0 64 48) 0) t)
          ∧ ∀ d k, d < 4 → k < 12 → mask d k = true → s.chState d k = 6 →
            (s.clearRefused d k = true → t.chState d k = 6)
            ∧ (s.clearRefused d k = false → s.request d k = false → t.chState d k = 0 ∧ t.get (PS_CH_STAT_RETRIES d k) = 0)))
      ∧ (op = 4 → (∀ d k, d < 4 → k < 12 → limClassOk k (bits (s.get (PS_CH_LIM d)) (2 * k) 2) = true) → Does .lccLimit s (fun t =>
          ended [] 0 (t.latchedOf (dbits d0 64 48) 0) t ∧ dies t
          ∧ ∀ d k, d < 4 → k < 12 → mask d k = true → t.get (PS_CH_STAT_LIMCLS d k) = dbits d0 (128 + 24 * d + 2 * k) 2))
      ∧ (op = 6 → Does .lccClrinfo s (fun t => ended [] 0 0 t ∧ dies t ∧ ∀ d k, d < 4 → k < 12 →
          (mask d k = true → t.get (PS_CH_STAT_EV_STATE d k) = 0) ∧ (dbits d0 (116 + d) 1 = 1 → t.get (PS_DIEFLAG_SHED d) = 0)))
      ∧ (op = 5 → room (dbits d0 128 40) → Does .lccDiag s (fun t => ended [] 0 0 t ∧ latched t
          ∧ t.readBytes (dbits d0 128 40) 512 = t.snapBytes (dTag d0) (s.get LCC_CTL_DIES)
          ∧ (∀ b, b < dbits d0 128 40 ∨ dbits d0 128 40 + 512 ≤ b → t.readByte b = s.readByte b)
          ∧ t = { s with regs := t.regs, rings := t.rings, die := t.die, mem := t.mem, syn := t.syn, links := t.links, arb := t.arb })))
    ∧ (∀ it : Item, s.nextDone .lcc = some it → dNocpl it.desc = true → (∃ r c, it.fin = some (0, r, c)) → s.lcc.trig = false →
        (∀ x ∈ (s.ring .lcc).items, x.idx ≠ it.idx → x.started = false) → Does .lccDescriptorComplete s (fun t =>
          (t.ring .lcc).items = (s.ring .lcc).items.filter (fun x => x.idx != it.idx) ∧ t.get LCC_STAT_BUSY = b2n s.lcc.snap.isSome
          ∧ Keeps [LCC_STAT_BUSY] [] s t ∧ t = { s with regs := t.regs, rings := t.rings }))
    ∧ (s.on LCC_DIAG_CFG_EN = true → s.on LCC_DIAG_CFG_TRIG = false →
        (s.lcc.snap = none → s.lcc.trig = false → s.lccBusy = false → reached → Does .lccSnapshotTrigger s (fun t =>
          t.lcc.snap = some (t.snapBytes (s.get LCC_DIAG_WI) (s.get LCC_CTL_DIES)) ∧ latched t ∧ t.get LCC_STAT_BUSY = 1 ∧ dieRegs [] t
          ∧ t = { s with regs := t.regs, lcc := t.lcc, die := t.die, links := t.links }))
        ∧ (s.lcc.snap = none → s.lcc.trig = false → s.lccBusy = true → Does .lccSnapshotTrigger s (fun t =>
            t.lcc = { s.lcc with trig := true } ∧ Keeps [] [] s t ∧ t = { s with regs := t.regs, lcc := t.lcc }))
        ∧ (s.lcc.snap ≠ none ∨ s.lcc.trig = true → Does .lccSnapshotTrigger s (fun t => t.get LCC_ERR_CNT = satInc (s.get LCC_ERR_CNT) 32
            ∧ (s.on LCC_ERR_INFO_VALID = false → t.get LCC_ERR_INFO_VALID = 1 ∧ t.get LCC_ERR_INFO_CAUSE = 5
              ∧ t.get LCC_ERR_INFO_NUM = (s.get LCC_ERR_INFO_NUM + 1) % 256)
            ∧ Changes [LCC_ERR_CNT, LCC_ERR_INFO_VALID, LCC_ERR_INFO_NUM, LCC_ERR_INFO_CAUSE, LCC_ERR_INFO_DIE, LCC_ERR_ADDR_LO,
              LCC_ERR_ADDR_HI] [] s t)))
    ∧ (∀ b : List Byte, s.lcc.snap = some b → b.length = 512 →
        let addr := 512 * s.get LCC_DIAG_BASE_LO + 2 ^ 32 * s.get LCC_DIAG_BASE_HI + s.get LCC_DIAG_WI % 2 ^ s.snapLog2 * 512
        room addr → Does .lccSnapshotComplete s (fun t => t.readBytes addr 512 = b ∧ (∀ x, x < addr ∨ addr + 512 ≤ x → t.readByte x = s.readByte x)
          ∧ t.get LCC_DIAG_WI = (s.get LCC_DIAG_WI + 1) % 2 ^ 16 ∧ t.get LCC_STAT_BUSY = 0 ∧ t.lcc.snap = none
          ∧ Keeps [LCC_DIAG_WI, LCC_STAT_BUSY] [] s t ∧ t = { s with regs := t.regs, lcc := t.lcc, mem := t.mem, syn := t.syn, arb := t.arb }))

/-- With the switch working and the port enabled and its link up: a frame with a bad FCS counts in RX_DROP, one that fails MACsec in
SEC_BAD, a lantern of a managed segment goes to NMW and no queue; a good frame without a stream entry whose destinations are one
enabled, not isolated port with room joins the queue of its priority there, and RX_FRAMES counts. With no schedule a port sends
the head of its highest open queue, clean and unprotected, and counts TX_FRAMES; a frame with TSREQ completes its descriptor
with its timestamp when it has left. A directed SEND in its turn, clean and with no timestamp asked for, joins its port's queue,
counts as received at the host port, and completes OK. A waiting clean frame whose function is in turn is written with its
prefix to the buffer of its RX descriptor, which completes with its length, and counts as sent. Nothing else changes.
(10_ethernet_switch_zone_time.md, Ports (R315, R317); 10_ethernet_switch_zone_time.md, Forwarding (R318, R319, R320);
10_ethernet_switch_zone_time.md, Host ring pairs (R323, R324, R325, R326, R327); 10_ethernet_switch_zone_time.md, MACsec (R334);
12_closing_bell_sleep_wake.md, Lanterns (R395)) -/
def Obligations.EthernetFramesAreSwitchedAndSent : Prop :=
  ∀ s : State,
    let ethOnly (t : State) : Prop := t = { s with regs := t.regs, eth := t.eth }
    let oneQueue (k : Nat) (t : State) : Prop := t.eth = { s.eth with fdb := t.eth.fdb, queues := t.eth.queues, ports := t.eth.ports }
      ∧ ∀ j, j ≠ k → look t.eth.queues j [] = look s.eth.queues j []
    let fin (r : Ring) (i st res : Nat) (begun : Bool) (t : State) : Prop := (t.ring r).items = (s.ring r).items.map (fun x =>
      if x.idx = i then { x with started := begun || x.started, fin := some (st, res, 0) } else x)
    let clean (r : Ring) (wr : Bool) (addr n : Nat) : Prop := s.memGate r.agent wr addr n = none
      ∧ (∃ p, p ∈ [1, 4, 6] ∧ targetOfRange addr n = some p) ∧ ∀ w, addr / 16 ≤ w → 16 * w < addr + n → s.synOf w = 0
    let rxCount (p : Nat) (t : State) : Prop := Keeps [PORT_RX_FRAMES_LO p, PORT_RX_FRAMES_HI p] [] s t
      ∧ t.get64 (PORT_RX_FRAMES_LO p) (PORT_RX_FRAMES_HI p) = satInc (s.get64 (PORT_RX_FRAMES_LO p) (PORT_RX_FRAMES_HI p)) 64
    let txCount (p : Nat) (t : State) : Prop := Keeps [PORT_TX_FRAMES_LO p, PORT_TX_FRAMES_HI p] [] s t
      ∧ t.get64 (PORT_TX_FRAMES_LO p) (PORT_TX_FRAMES_HI p) = satInc (s.get64 (PORT_TX_FRAMES_LO p) (PORT_TX_FRAMES_HI p)) 64
    (∀ (p : Fin 8) (data : List Byte) (fcs : Bool) (sec : Option SecTag), Block.eth.live s = true →
      s.on (PORT_CFG_EN p) = true → s.on (PORT_STAT_LINK p) = true →
      let good := fcs = true ∧ 60 ≤ data.length ∧ data.length ≤ 1518 ∧ (s.frerOn = false ∨ 2 ≤ p.val)
      let f0 : EFrame := { parseFrame data false with ts := s.zone, epoch := s.epoch, port := p.val, secured := false }
      let f := s.ethClassify p f0
      (fcs = false → Does (.ethFrameReceive p data fcs sec) s (fun t => t.get (PORT_RX_DROP p) = satInc (s.get (PORT_RX_DROP p)) 32
        ∧ Changes [PORT_RX_DROP p] [] s t))
      ∧ (good → s.on (PORT_SEC_CFG_EN p) = true → p.val ≤ 5 → sec = none → Does (.ethFrameReceive p data fcs sec) s (fun t =>
          t.get (PORT_SEC_BAD p) = satInc (s.get (PORT_SEC_BAD p)) 32 ∧ Changes [PORT_SEC_BAD p] [] s t))
      ∧ (good → s.on (PORT_SEC_CFG_EN p) = false → s.get TIME_CTL_SLAVE_PORT ≠ p → s.get (PORT_RX_FRAMES_LO p) + 1 < 2 ^ 32 →
          let rx := [PORT_RX_FRAMES_LO p, PORT_RX_FRAMES_HI p]
          let counted (t : State) : Prop := t.get (PORT_RX_FRAMES_LO p) = s.get (PORT_RX_FRAMES_LO p) + 1 ∧ Keeps rx [] s t
          (s.get (PORT_RX_FRAMES_HI p) < 2 ^ 32 → s.isLantern f0 = true → s.managed (portSeg p) = true →
            Does (.ethFrameReceive p data fcs sec) s (fun t => counted t
              ∧ (∃ l : Lantern, t.nmw.lanterns = s.nmw.lanterns ++ [l]) ∧ t = { s with regs := t.regs, nmw := t.nmw }))
          ∧ (∀ q : Nat, s.get (PORT_RX_FRAMES_HI p) < 2 ^ 32 → s.isLantern f0 = false → s.on ETH_CTL_SW_EN = true →
              beAt f0.body 0 2 ≠ 0x88A8 → s.acceptsType p f0 = true → bit (s.vlanOf f.vid).member p = true → s.on (PORT_CFG_PSFP_EN p) = false →
              q < 8 → (s.learn p f).destMap p f = 2 ^ q → s.on (PORT_CFG_EN q) = true → s.portIso q = false →
              s.poolRoom (s.eQueue q f.pcp) f.len = true → Does (.ethFrameReceive p data fcs sec) s (fun t => counted t
                ∧ t.eQueue q f.pcp = s.eQueue q f.pcp ++ [f] ∧ t.eth.fdb = (s.learn p f).eth.fdb ∧ t.eth.ports = s.eth.ports
                ∧ oneQueue (8 * q + f.pcp) t ∧ ethOnly t))))
    ∧ (∀ (p : Fin 8) (q : Nat) (f : EFrame) (l : List EFrame), Block.eth.live s = true → s.on (PORT_CFG_EN p) = true →
        s.on (PORT_STAT_LINK p) = true → (s.ePort p).flight = none → s.segDown (portSeg p) = false → s.on (PORT_CFG_QBV_EN p) = false →
        s.on (PORT_SEC_CFG_EN p) = false → q < 8 → (∀ k, q < k → k < 8 → s.eQueue p k = []) → s.eQueue p q = f :: l →
        bit (s.get (PORT_QBV_CTL_DEF_GATES p)) q = true → f.syns = [] → (∀ j, f.job = some j → j.onestep = 0) →
        s.get (PORT_TX_FRAMES_LO p) + 1 < 2 ^ 32 → s.get (PORT_TX_FRAMES_HI p) < 2 ^ 32 → Does (.ethFrameTransmit p) s (fun t =>
          let raw := f.bytes (if f.direct then f.tagged else !bit (s.vlanOf f.vid).untag p)
          t.eQueue p q = l ∧ (t.ePort p).out = fitBytes (max 60 raw.length) raw
          ∧ (t.ePort p).flight = (if f.job.isSome then some { f with ts := s.zone, epoch := s.epoch } else none)
          ∧ t.get (PORT_TX_FRAMES_LO p) = s.get (PORT_TX_FRAMES_LO p) + 1 ∧ Keeps [PORT_TX_FRAMES_LO p, PORT_TX_FRAMES_HI p] [] s t
          ∧ t.eth.fdb = s.eth.fdb ∧ (∀ k, k ≠ p.val → t.ePort k = s.ePort k) ∧ oneQueue (8 * p + q) t ∧ ethOnly t))
    ∧ (∀ (p : Fin 8) (f : EFrame) (j : EthJob), Block.eth.live s = true → (s.ePort p).flight = some f → f.job = some j →
        Does (.ethFrameSent p) s (fun t => (t.ePort p).flight = none ∧ fin j.ring j.idx 0 (f.ts % 2 ^ 48 + f.epoch * 2 ^ 48) false t
          ∧ Keeps [] [] s t ∧ t = { s with regs := t.regs, eth := t.eth, rings := t.rings }))
    ∧ (∀ (r : Ring) (it : Item) (raw : List Byte), r.fn = none → isEth r = true → r.isRx = false → s.ringReady r = some it →
        it.started = false → (∀ q ∈ servedBefore r, s.ringReady q = none) → s.on (PORT_CFG_EN (ethPortOf r)) = true → s.p8Turn r = true →
        let d := it.desc
        let f0 : EFrame := { sendFrameOf d raw with ts := s.zone, epoch := s.epoch, port := ethPortOf r, fromRing := true, syns := [], srcLen := dbits d 104 14 }
        let g := s.ethClassify (ethPortOf r) { f0 with direct := true, job := none }
        let q := dbits d 120 4
        dbits d 64 40 % 16 = 0 → 0 < dbits d 104 14 → clean r false (dbits d 64 40) (dbits d 104 14) →
        raw = s.readBytes (dbits d 64 40) (dbits d 104 14) → q ≤ 7 → dbits d 33 3 = 0 → s.poolRoom (s.eQueue q g.pcp) g.len = true →
        Does (.ethSend r) s (fun t => fin r it.idx 0 0 true t ∧ t.eQueue q g.pcp = s.eQueue q g.pcp ++ [{ g with vid := f0.vid }]
          ∧ t.eth = { s.eth with queues := t.eth.queues, turns := t.eth.turns }
          ∧ (∀ j, j ≠ 8 * q + g.pcp → look t.eth.queues j [] = look s.eth.queues j [])
          ∧ rxCount (ethPortOf r) t ∧ t = { s with regs := t.regs, eth := t.eth, rings := t.rings, arb := t.arb }))
    ∧ (∀ (r : Ring) (it : Item) (f : EFrame) (l : List EFrame), r.fn = none → isEth r = true → r.isRx = true → s.ringReady r = some it →
        it.started = false → s.hostQueue r = f :: l → (ethPortOf r = 8 → s.get PWR_STATE_CUR ≠ 2) → s.p8Turn r = true → f.syns = [] →
        let raw := s.deliverBytes r f
        let buf := dbits it.desc 64 40
        let n := 16 + raw.length
        clean r true buf n → Does (.ethRecv r) s (fun t => t.readBytes buf n = prefixOf f raw.length ++ raw
          ∧ (∀ b, b < buf ∨ buf + n ≤ b → t.readByte b = s.readByte b) ∧ fin r it.idx 0 raw.length true t ∧ t.hostQueue r = l
          ∧ t.eth = { s.eth with host := t.eth.host, turns := t.eth.turns } ∧ txCount (ethPortOf r) t
          ∧ t = { s with regs := t.regs, eth := t.eth, rings := t.rings, mem := t.mem, syn := t.syn, arb := t.arb }))

/-- A table write to a VLAN that is none of 0 and 4095 makes or removes its entry; a search by key gives the FDB entry's words and
index, or NOT_FOUND; a read gives the FDB entry at its index; an FDB write with VALID 1 whose key is there replaces it; an index
outside its table reports result 1. APPLY makes the schedule pending from its base, or from the first cycle start in the future;
it takes over at its start with the lists exchanged and event 133; a gate interval's end moves zone time to it. A dynamic FDB
entry ages out while AGE is not 0. A link change shows in PORT_STAT and ETH_STAT with event 120 and the port. A recovery that
times out is forgotten with event 131. Nothing else changes. (10_ethernet_switch_zone_time.md, Forwarding (R318);
10_ethernet_switch_zone_time.md, ETH register map (R354); 10_ethernet_switch_zone_time.md, Time-aware shaping (R328, R329);
10_ethernet_switch_zone_time.md, Per-stream filtering and policing (R331); 10_ethernet_switch_zone_time.md, Frame replication
and elimination (R333); 10_ethernet_switch_zone_time.md, Ports (R316)) -/
def Obligations.EthernetTablesGatesAndLinksAreKept : Prop :=
  ∀ s : State,
    let ethRegs (t : State) : Prop := t = { s with regs := t.regs, eth := t.eth }
    let wr (t : State) : Prop := t = { s with regs := t.regs, eth := t.eth, arb := t.arb, resp := ⟨false, 0, false⟩ }
    let res (i r : Nat) (t : State) : Prop := t.get ETH_TBL_STAT_INDEX = i % 2 ^ 16 ∧ t.get ETH_TBL_STAT_RESULT = r
    let stat := [ETH_TBL_STAT_INDEX, ETH_TBL_STAT_RESULT]
    let data := (List.range 8).map (fun i => ETH_TBL_DATA i)
    let w (k : Nat) : Nat := s.get (ETH_TBL_DATA k)
    let holds (e : FdbEnt) (t : State) : Prop := t.get (ETH_TBL_DATA 0) = e.mac % 2 ^ 32 ∧ t.get (ETH_TBL_DATA 2) = e.dest % 2 ^ 32
      ∧ t.get (ETH_TBL_DATA 1) = (e.mac / 2 ^ 32 + e.vid * 2 ^ 16 + b2n e.static * 2 ^ 29 + 2 ^ 31) % 2 ^ 32
    (∀ (a : Agent) (i : Fin 65536), s.gate a ETH_TBL_CMD_OP.addr true = .pass →
      let mac := w 0 + 2 ^ 32 * bits (w 1) 0 16
      let vid := bits (w 1) 16 12
      (0 < i.val → i.val < 4095 → Does (.ethTblWrite a 2 i) s (fun t => res i 0 t ∧ Keeps stat [] s t ∧ wr t
        ∧ t.eth = { s.eth with vlan := t.eth.vlan } ∧ (∀ v, v ≠ i.val → t.vlanOf v = s.vlanOf v)
        ∧ t.vlanOf i = if bit (w 0) 31 then ⟨bits (w 0) 0 10, bits (w 0) 16 10⟩ else ⟨0, 0⟩))
      ∧ (∀ (k : Nat) (e : FdbEnt), s.fdbFind mac vid = some (k, e) →
          Does (.ethFdbSearch a) s (fun t => res k 0 t ∧ holds e t ∧ Keeps (stat ++ data) [] s t ∧ wr t ∧ t.eth = s.eth)
          ∧ (bit (w 1) 31 = true → Does (.ethTblWrite a 1 i) s (fun t => res k 0 t ∧ Keeps stat [] s t ∧ wr t
              ∧ t.eth = { s.eth with fdb := ins s.eth.fdb k ⟨mac, vid, bit (w 1) 29, bits (w 2) 0 26⟩ })))
      ∧ (s.fdbFind mac vid = none → Does (.ethFdbSearch a) s (fun t => res 0 3 t ∧ Keeps stat [] s t ∧ wr t ∧ t.eth = s.eth))
      ∧ (∀ e : FdbEnt, i.val < 4096 → s.eth.fdb.find? (fun p => p.1 == i.val) = some (i.val, e) → Does (.ethTblRead a 1 i) s (fun t =>
          res i 0 t ∧ holds e t ∧ Keeps (stat ++ data) [] s t ∧ wr t ∧ t.eth = s.eth))
      ∧ (4096 ≤ i.val → Does (.ethTblRead a 1 i) s (fun t => res i 1 t ∧ Keeps stat [] s t ∧ wr t ∧ t.eth = s.eth)
          ∧ Does (.ethTblWrite a 2 i) s (fun t => res i 1 t ∧ Keeps stat [] s t ∧ wr t ∧ t.eth = s.eth)))
    ∧ (∀ (a : Agent) (p : Fin 8) (v : Word), s.gate a (PORT_QBV_CTL_APPLY p).addr true = .pass → bit v.toNat 0 = true →
        let base := s.get64 (PORT_QBV_BASE_LO p) (PORT_QBV_BASE_HI p)
        let cycle := s.get (PORT_QBV_CYCLE p)
        Does (.qbvApply a p v) s (fun t => (∃ start : Nat,
            (t.ePort p).pend = some ⟨base, cycle, bits v.toNat 8 8, s.get (PORT_QBV_EXT p), start⟩
            ∧ (s.zone < base → start = base) ∧ (base ≤ s.zone → cycle ≠ 0 → s.zone < start ∧ start ≤ s.zone + cycle
              ∧ (start - base) % cycle = 0))
          ∧ (t.ePort p).oper = (s.ePort p).oper ∧ (∀ q, q ≠ p.val → t.ePort q = s.ePort q) ∧ t.get (PORT_STAT_QBV_PEND p) = 1
          ∧ t.get (PORT_QBV_CTL_DEF_GATES p) = bits v.toNat 24 8 ∧ t.get (PORT_QBV_CTL_LEN p) = bits v.toNat 8 8
          ∧ Keeps [PORT_STAT_QBV_PEND p, PORT_QBV_CTL_DEF_GATES p, PORT_QBV_CTL_LEN p] [] s t ∧ wr t
          ∧ t.eth = { s.eth with ports := t.eth.ports }))
    ∧ (Block.eth.live s = true →
      (∀ (p : Fin 8) (n : Qbv), (s.ePort p).pend = some n → s.on (PORT_CFG_QBV_EN p) = true → s.get (PORT_STAT_QBV_BANK p) ≤ 1 →
        Does (.qbvScheduleChange p) s (fun t => (t.ePort p).oper = some n ∧ (t.ePort p).pend = none ∧ t.zone = max s.zone n.start
          ∧ t.get (PORT_STAT_QBV_PEND p) = 0 ∧ t.get (PORT_STAT_QBV_BANK p) = 1 - s.get (PORT_STAT_QBV_BANK p) ∧ t.isPending 133 = true
          ∧ Keeps [PORT_STAT_QBV_PEND p, PORT_STAT_QBV_BANK p] [133] s t ∧ t.eth = { s.eth with ports := t.eth.ports }
          ∧ t = { s with regs := t.regs, eth := t.eth, zone := t.zone, zoneFrac := t.zoneFrac }))
      ∧ (∀ (p : Fin 8) (g n : Nat) (l : List (Nat × Nat)), s.gatePlan p = some ((g, n) :: l) → Does (.qbvGateChange p) s (fun t =>
          t.zone = s.zone + n ∧ Keeps [] [] s t ∧ t = { s with regs := t.regs, zone := t.zone, zoneFrac := t.zoneFrac }))
      ∧ (∀ i : Fin 4096, s.get ETH_CTL_AGE ≠ 0 → (look s.eth.fdb i ⟨0, 0, true, 0⟩).static = false → Does (.fdbAgeOut i) s (fun t =>
          t.eth = { s.eth with fdb := del s.eth.fdb i } ∧ Keeps [] [] s t ∧ ethRegs t))
      ∧ (∀ (p sqi : Fin 8) (up plca : Bool), s.on (PORT_STAT_LINK p) ≠ up →
          (up = true → s.on (PORT_CFG_EN p) = true ∧ s.pwr.phyHold = false) → Does (.portLinkChange p up sqi plca) s (fun t =>
            t.get (PORT_STAT_LINK p) = b2n up ∧ bit (t.get ETH_STAT) p = up ∧ t.isPending (120 + p.val) = true
            ∧ t.get (PORT_STAT_SQI p) = (if up = true ∧ p.val ≤ 5 then sqi.val else 0)
            ∧ Changes [PORT_STAT_LINK p, PORT_STAT_SQI p, PORT_STAT_PLCA_ACT p, ETH_STAT] [120 + p.val] s t))
      ∧ (∀ (i : Fin 512) (k : Nat) (e : StreamEnt), s.eth.streams.find? (fun x => x.1 == i.val) = some (k, e) → bit e.w1 31 = true →
          bit e.w5 5 = true → e.recov.isSome = true → Does (.frerRecoveryReset i) s (fun t =>
            t.eth = { s.eth with streams := ins s.eth.streams i { e with recov := none } } ∧ t.isPending 131 = true ∧ Keeps [] [131] s t
            ∧ ethRegs t)))

/-- For a write that reaches TIME: SET takes TIME_SET, ADJ adds TIME_ADJ within 64 bits; a step counts the epoch, shows OLD and NEW,
raises event 136, leaves LOCKED and moves the fill times of the meters along; no other unit's registers but the CAN captures'
change where no compare unit is armed. TIME_CTL takes its fields and the state of Table 10.4; TIME_FREQ is clamped to ±500 ppm
and ignored while the servo runs; the first EPOCH_INIT locks and loads the epoch where it may. A missing Follow_Up counts in
REJECT; a missing Sync leads to HOLDOVER with event 137. Enabling a unit or writing CMP_HI of an enabled one schedules its CMP
or the next one not past, a past one-shot fires with LATE and event 139; PER is stored. A firing sets the next one PER later and
raises its event, or is skipped with MISS and event 139. A CAN strobe moves zone time to the next whole millisecond and every
working channel captures. (10_ethernet_switch_zone_time.md, Zone time (R336, R337, R341, R342, R343, R345);
10_ethernet_switch_zone_time.md, Time compare units (R347, R348, R349, R350); 11_can_channels_gateway.md, Frame stamps and zone
time (R364); 10_ethernet_switch_zone_time.md, TIME register map) -/
def Obligations.ZoneTimeStepsServesAndFires : Prop :=
  ∀ s : State,
    let epoch1 := (s.get TIME_STAT_EPOCH + 1) % 2 ^ 16
    let stepped (new : Nat) (t : State) : Prop := t.zone = new ∧ t.get TIME_STAT_EPOCH = epoch1 ∧ t.get TIME_STEP_OLD_LO = s.zone % 2 ^ 32
      ∧ t.get TIME_STEP_OLD_HI = s.zone / 2 ^ 32 % 2 ^ 32 ∧ t.get TIME_STEP_NEW_LO = new % 2 ^ 32 ∧ t.get TIME_STEP_NEW_HI = new / 2 ^ 32 % 2 ^ 32
      ∧ t.isPending 136 = true ∧ t.get TIME_STAT_STATE = (if s.get TIME_STAT_STATE = 2 then 1 else s.get TIME_STAT_STATE)
      ∧ t.resp = ⟨false, 0, false⟩ ∧ t.time.epochOpen = false
      ∧ ((∀ u, u < 16 → (s.tcu u).armed = false) →
        (∀ f : Fld, pendFld f = false → f.key < 0x40070000 * 32 ∨ 0x4008C000 * 32 ≤ f.key → t.get f = s.get f)
        ∧ t.eth = moveMeters ((new : Int) - s.zone) s.eth ∧ t = { s with
            regs := t.regs, resp := t.resp, arb := t.arb, zone := t.zone, zoneFrac := t.zoneFrac, time := t.time, nmw := t.nmw, eth := t.eth
            recorder := t.recorder, fresh := t.fresh })
    let timeRegs (t : State) : Prop := t = { s with regs := t.regs, time := t.time }
    let timeWr (t : State) : Prop := t = { s with regs := t.regs, time := t.time, arb := t.arb, resp := ⟨false, 0, false⟩ }
    let others (u : Nat) (t : State) : Prop := ∀ v, v ≠ u → t.tcu v = s.tcu v
    let runs (t : State) : Prop := t.on TIME_CTL_SERVO_EN = true ∧ t.on TIME_CTL_GM = false
    (∀ a : Agent, s.gate a TIME_CMD_SET.addr true = .pass → s.get TIME_SET_LO < 2 ^ 32 → s.get TIME_SET_HI < 2 ^ 32 →
      Does (.timeSet a) s (stepped (s.get64 TIME_SET_LO TIME_SET_HI)) ∧ Does (.timeSet a) s (fun t => t.zoneFrac = 0))
    ∧ (∀ a : Agent, s.gate a TIME_CMD_ADJ.addr true = .pass →
        Does (.timeAdj a) s (stepped (max 0 (min (2 ^ 64 - 1) ((s.zone : Int) + signed (s.get TIME_ADJ) 32))).toNat))
    ∧ (∀ (a : Agent) (v : Word), s.gate a TIME_CTL_GM.addr true = .pass → Does (.timeCtlWrite a v) s (fun t =>
        let st := s.get TIME_STAT_STATE
        t.get TIME_CTL_GM = bits v.toNat 0 1 ∧ t.get TIME_CTL_SERVO_EN = bits v.toNat 1 1 ∧ t.get TIME_CTL_STEP_EN = bits v.toNat 2 1
        ∧ t.get TIME_CTL_SLAVE_PORT = bits v.toNat 4 4 ∧ t.get TIME_CTL_SYNC_TO = bits v.toNat 8 8
        ∧ t.get TIME_STAT_STATE = (if bit v.toNat 0 = true then 4 else if st = 4 then 0
            else if bit v.toNat 1 = false ∧ st ∈ [1, 2, 3] then 0 else st)
        ∧ t.get TIME_STAT_CLAMP = (if bit v.toNat 1 = true ∧ bit v.toNat 0 = false then s.get TIME_STAT_CLAMP else 0)
        ∧ (t.get TIME_STAT_STATE ≠ st → t.isPending 137 = true) ∧ timeWr t
        ∧ Keeps [TIME_CTL_GM, TIME_CTL_SERVO_EN, TIME_CTL_STEP_EN, TIME_CTL_SLAVE_PORT, TIME_CTL_SYNC_TO, TIME_STAT_STATE,
            TIME_STAT_CLAMP] [137] s t))
    ∧ (∀ (a : Agent) (v : Word), s.gate a TIME_FREQ.addr true = .pass →
        (runs s → Does (.timeFreqWrite a v) s (Writes [] [] s))
        ∧ (¬ runs s → Does (.timeFreqWrite a v) s (fun t =>
            signed (t.get TIME_FREQ) 30 = max (-500000000) (min 500000000 (signed (bits v.toNat 0 30) 30)) ∧ Keeps [TIME_FREQ] [] s t ∧ timeWr t)))
    ∧ (∀ (a : Agent) (v : Word), s.gate a TIME_EPOCH_INIT.addr true = .pass →
        (s.locks.contains TIME_EPOCH_INIT.addr = true → Does (.epochInitWrite a v) s (Writes [] [] s))
        ∧ (s.locks.contains TIME_EPOCH_INIT.addr = false → Does (.epochInitWrite a v) s (fun t =>
            t.get TIME_EPOCH_INIT = bits v.toNat 0 16 ∧ t.locks.contains TIME_EPOCH_INIT.addr = true ∧ t.time.epochOpen = false
            ∧ t.get TIME_STAT_EPOCH = (if s.time.epochOpen then bits v.toNat 0 16 else s.get TIME_STAT_EPOCH)
            ∧ Keeps [TIME_EPOCH_INIT, TIME_STAT_EPOCH] [] s t
            ∧ t = { s with regs := t.regs, time := t.time, locks := t.locks, arb := t.arb, resp := ⟨false, 0, false⟩ })))
    ∧ (s.timeLive = true →
      (s.time.sync.isSome = true → Does .followUpTimeout s (fun t => t.time = { s.time with sync := none }
        ∧ t.get TIME_SYNC_CNT_REJECT = satInc (s.get TIME_SYNC_CNT_REJECT) 16 ∧ Keeps [TIME_SYNC_CNT_REJECT] [] s t ∧ timeRegs t))
      ∧ (s.get TIME_STAT_STATE = 1 ∨ s.get TIME_STAT_STATE = 2 → Does .syncTimeout s (fun t => t.get TIME_STAT_STATE = 3
        ∧ t.isPending 137 = true ∧ (¬ runs s → t.get TIME_FREQ = s.get TIME_FREQ) ∧ Keeps [TIME_STAT_STATE, TIME_FREQ] [137] s t ∧ timeRegs t)))
    ∧ (∀ (a : Agent) (u : Fin 16) (v : Word),
        let per := s.get (TIME_TCU_PER u)
        let scheduled (cmp : Nat) (own : List Fld) (t : State) : Prop := (t.tcu u).armed = true ∧ (t.tcu u).cmp = cmp
          ∧ (s.zone ≤ cmp → (t.tcu u).next = cmp) ∧ (cmp < s.zone → ∃ k : Nat, (t.tcu u).next = ((cmp + k * per : Nat) : Int)
            ∧ s.zone ≤ cmp + k * per ∧ cmp + k * per < s.zone + per) ∧ others u t ∧ Keeps own [] s t ∧ timeWr t
        let late (t : State) : Prop := t.get (TIME_TCU_CFG_LATE u) = 1 ∧ t.isPending 139 = true ∧ (t.tcu u).armed = false
        (s.gate a (TIME_TCU_CFG_EN u).addr true = .pass →
          let cmp := s.get (TIME_TCU_CMP_LO u) + 2 ^ 32 * s.get (TIME_TCU_CMP_HI u)
          let cfg := [TIME_TCU_CFG_EN u, TIME_TCU_CFG_EVT_EN u, TIME_TCU_CFG_STEP_POL u, TIME_TCU_CFG_LATE u]
          (bit v.toNat 0 = true → s.on (TIME_TCU_CFG_EN u) = false →
            (per ≠ 0 ∨ s.zone ≤ cmp → Does (.tcuEnable a u v) s (fun t => t.get (TIME_TCU_CFG_EN u) = 1 ∧ scheduled cmp cfg t))
            ∧ (per = 0 → cmp < s.zone → Does (.tcuEnable a u v) s late))
          ∧ (bit v.toNat 0 = false → Does (.tcuEnable a u v) s (fun t => t.get (TIME_TCU_CFG_EN u) = 0
              ∧ t.tcu u = { s.tcu u with armed := false, last := none } ∧ others u t ∧ Keeps cfg [] s t ∧ timeWr t)))
        ∧ (s.gate a (TIME_TCU_CMP_HI u).addr true = .pass →
            let cmp := s.get (TIME_TCU_CMP_LO u) + 2 ^ 32 * v.toNat
            (s.on (TIME_TCU_CFG_EN u) = false → Does (.tcuCmpHiWrite a u v) s (fun t => t.get (TIME_TCU_CMP_HI u) = v.toNat
              ∧ Writes [TIME_TCU_CMP_HI u] [] s t))
            ∧ (s.on (TIME_TCU_CFG_EN u) = true → per ≠ 0 ∨ s.zone ≤ cmp → Does (.tcuCmpHiWrite a u v) s (fun t =>
                t.get (TIME_TCU_CMP_HI u) = v.toNat ∧ scheduled cmp [TIME_TCU_CMP_HI u] t))
            ∧ (s.on (TIME_TCU_CFG_EN u) = true → per = 0 → cmp < s.zone → Does (.tcuCmpHiWrite a u v) s late))
        ∧ (s.gate a (TIME_TCU_PER u).addr true = .pass → Does (.tcuPerWrite a u v) s (fun t =>
            t.get (TIME_TCU_PER u) = v.toNat % 2 ^ 30 ∧ Writes [TIME_TCU_PER u] [] s t)))
    ∧ (∀ (u : Fin 16) (n : Nat), s.timeLive = true → s.on (TIME_TCU_CFG_EN u) = true → (s.tcu u).armed = true → (s.tcu u).next = n →
        let per := s.get (TIME_TCU_PER u)
        let now := max s.zone n
        let moved (t : State) : Prop := t.zone = now ∧ (t.tcu u).next = ((n + per : Nat) : Int) ∧ others u t
        ((per = 0 ∨ ∀ l, (s.tcu u).last = some l → (per : Int) ≤ 2 * ((now : Int) - l)) → Does (.tcuFire u) s (fun t => moved t
          ∧ (t.tcu u).last = some (now : Int) ∧ (t.tcu u).armed = decide (per ≠ 0)
          ∧ (u.val < 4 → s.on (TIME_TCU_CFG_EVT_EN u) = true → t.isPending (140 + u.val) = true)
          ∧ (∀ f : Fld, pendFld f = false → (f.key < 0x40050000 * 32 ∨ 0x40051000 * 32 ≤ f.key) →
              (f.key < 0x50000000 * 32 ∨ 0x50040000 * 32 ≤ f.key) → t.get f = s.get f)
          ∧ t = { s with
              regs := t.regs, zone := t.zone, zoneFrac := t.zoneFrac, time := t.time, lcc := t.lcc, lines := t.lines
              chan := t.chan, die := t.die }))
        ∧ (∀ l : Int, per ≠ 0 → (s.tcu u).last = some l → 2 * ((now : Int) - l) < per → Does (.tcuFire u) s (fun t => moved t
            ∧ t.get (TIME_TCU_MISS u) = satInc (s.get (TIME_TCU_MISS u)) 16 ∧ t.isPending 139 = true ∧ Keeps [TIME_TCU_MISS u] [139] s t
            ∧ t = { s with regs := t.regs, zone := t.zone, zoneFrac := t.zoneFrac, time := t.time })))
    ∧ (∀ l : List Nat, s.timeLive = true → Does (.canTimeStrobe l) s (fun t => t.zone = (s.zone / 1000000 + 1) * 1000000 % 2 ^ 64
        ∧ (∀ c, c < 12 → (Block.can c).live s = true → t.get (CAN_TSY_CNT c 0) = l.getD c 0 % 2 ^ 32
          ∧ t.get (CAN_TSY_CNT c 1) = s.get (CAN_TSY_CNT c 0) % 2 ^ 32 ∧ t.get (CAN_TSY_TLO c 0) = t.zone % 2 ^ 32
          ∧ t.get (CAN_TSY_THI c 0) = t.zone / 2 ^ 32 ∧ t.get (CAN_TSY_INFO_SEQ c 0) = (s.get (CAN_TSY_INFO_SEQ c 0) + 1) % 256
          ∧ t.get (CAN_TSY_INFO_STEP c 0) = 0 ∧ t.get (CAN_TSY_INFO_EPOCH c 0) = s.epoch % 2 ^ 16)
        ∧ (∀ f : Fld, pendFld f = false → f.key < 0x40080000 * 32 ∨ 0x4008C000 * 32 ≤ f.key → t.get f = s.get f)
        ∧ t = { s with regs := t.regs, zone := t.zone, zoneFrac := t.zoneFrac }))

/-- Enabling a channel takes its fields and starts its error counters at 0, or is refused with CFG_ERR; disabling it ends its frames
with status 0x16 and leads to state 3 with bus-off kept in memory. RECOVER acts in bus-off only, and its completion leads to
error-active with counters 0. A channel joins its bus in the state that its counters give, or in bus-off where it was. A
received frame counts, is stamped, lowers REC and waits at the gateway's input or is lost with event 147 + 4c; with the gateway
on it goes where the default action says. An attempt takes the highest-priority frame, stamps it and starts its descriptor; lost
or failed it competes again, or ends with 0x10 or 0x12; a failed one counts in TEC and above 255 leads to bus-off; completed it
ends with its SOF time. An error counts and is captured unless a capture is held. Other channels keep their state.
(11_can_channels_gateway.md, Controller and transceiver (R357, R358); 11_can_channels_gateway.md, Bit timing (R361);
11_can_channels_gateway.md, Frame stamps and zone time (R364, R366); 11_can_channels_gateway.md, Message slots and priority
(R370); 11_can_channels_gateway.md, Cancellation (R371); 11_can_channels_gateway.md, Transmit descriptors and completions
(R373); 11_can_channels_gateway.md, Errors and bus-off (R374, R375, R387, R389); 11_can_channels_gateway.md, Reception and
routing (R376)) -/
def Obligations.CanChannelsKeepTheirErrorStates : Prop :=
  ∀ (s : State) (c : Fin 12),
    let x := s.canCh c
    let st := s.get (CAN_STAT_STATE c)
    let slotRegs := [CAN_SLOT_LO c, CAN_SLOT_HI c]
    let only (own : List Fld) (t : State) : Prop := t.can = { s.can with chans := t.can.chans } ∧ (∀ d, d ≠ c.val → t.canCh d = s.canCh d)
      ∧ Keeps (CAN_STAT_STATE c :: slotRegs ++ own) [144 + 4 * c.val, 146 + 4 * c.val, 147 + 4 * c.val] s t
      ∧ t = { s with regs := t.regs, can := t.can, rings := t.rings }
    let enters (v : Nat) (t : State) : Prop := t.get (CAN_STAT_STATE c) = v ∧ (st ≠ v → t.isPending (144 + 4 * c.val) = true)
    let counted (tec rec0 : Nat) : Nat := if 127 < tec ∨ 127 < rec0 then 1 else 0
    let cap := [CAN_ERR_CAP_VALID c, CAN_ERR_CAP_TYPE c, CAN_ERR_CAP_PHASE c, CAN_ERR_CAP_TX c]
    let captured (kind tx : Nat) (t : State) : Prop := if s.on (CAN_ERR_CAP_VALID c) = true then (∀ f ∈ cap, t.get f = s.get f)
      else t.get (CAN_ERR_CAP_VALID c) = 1 ∧ t.get (CAN_ERR_CAP_TYPE c) = kind ∧ t.get (CAN_ERR_CAP_TX c) = tx
        ∧ t.isPending (146 + 4 * c.val) = true
    let ends (f : GwFrame) (status res : Nat) (t : State) : Prop := (f.job = none → t.rings = s.rings) ∧ ∀ r i, f.job = some (r, i) →
      (t.ring r).items = (s.ring r).items.map (fun y => if y.idx = i then { y with fin := some (status, res, 0) } else y)
    let recs := [CAN_STAT_REC c, CAN_STAT_RP c]
    (∀ (a : Agent) (v : Word), s.gate a (CAN_CTL_EN c).addr true = .pass →
      let ctl := [CAN_CTL_EN c, CAN_CTL_TDC_EN c, CAN_CTL_TRIPLE c, CAN_CTL_MODE c, CAN_CTL_FD_EN c]
      let took (t : State) : Prop := t.get (CAN_CTL_MODE c) = bits v.toNat 4 2 ∧ t.get (CAN_CTL_FD_EN c) = bits v.toNat 1 1
        ∧ t.get (CAN_CTL_TRIPLE c) = bits v.toNat 8 1 ∧ t.get (CAN_CTL_TDC_EN c) = bits v.toNat 9 1
      (bit v.toNat 0 = true → s.on (CAN_CTL_EN c) = false →
        ((s.canCtl c v.toNat).timingRefused c = false → Does (.canEnable a c v) s (fun t => took t ∧ t.get (CAN_CTL_EN c) = 1
          ∧ t.get (CAN_STAT_TEC c) = 0 ∧ t.canRec c = 0 ∧ Writes (ctl ++ [CAN_STAT_TEC c] ++ recs) [] s t))
        ∧ ((s.canCtl c v.toNat).timingRefused c = true → Does (.canEnable a c v) s (fun t => took t ∧ t.on (CAN_CTL_EN c) = false
          ∧ t.get (CAN_STAT_CFG_ERR c) = 1 ∧ Writes (ctl ++ [CAN_STAT_CFG_ERR c]) [] s t)))
      ∧ (bit v.toNat 0 = false → s.on (CAN_CTL_EN c) = false → Does (.canDisable a c v) s (fun t => took t ∧ Writes ctl [] s t))
      ∧ (bit v.toNat 0 = false → s.on (CAN_CTL_EN c) = true → Does (.canDisable a c v) s (fun t => t.get (CAN_CTL_EN c) = 0
          ∧ (t.canCh c).slots = [] ∧ (t.canCh c).attempt = none ∧ (t.canCh c).wasOff = (st == 2 || x.wasOff) ∧ t.resp = ⟨false, 0, false⟩
          ∧ t.can.wait = s.can.wait.filter (fun f => f.ch != c.val) ∧ t.get (CAN_STAT_STATE c) = 3
          ∧ (∀ f ∈ x.slots.map (·.2) ++ s.can.wait.filter (fun f => f.ch == c.val), ∀ r i, f.job = some (r, i) →
              ∀ y ∈ (t.ring r).items, y.idx = i → y.fin = some (0x16, 0, 0))
          ∧ (∀ d, d ≠ c.val → t.canCh d = s.canCh d)
          ∧ Keeps ([CAN_CTL_EN c, CAN_STAT_RECOVERING c, CAN_STAT_STATE c] ++ slotRegs) [144 + 4 * c.val] s t
          ∧ t = { s with regs := t.regs, can := t.can, rings := t.rings, arb := t.arb, resp := t.resp })))
    ∧ (∀ a : Agent, s.gate a (CAN_CTL_RECOVER c).addr true = .pass → Does (.canRecover a c) s (fun t =>
        t.get (CAN_STAT_RECOVERING c) = (if st = 2 then 1 else s.get (CAN_STAT_RECOVERING c)) ∧ Writes [CAN_STAT_RECOVERING c] [] s t))
    ∧ ((Block.can c).live s = true →
        (s.on (CAN_STAT_RECOVERING c) = true → Does (.canRecoveryComplete c) s (fun t => enters 0 t ∧ t.get (CAN_STAT_TEC c) = 0
          ∧ t.canRec c = 0 ∧ t.get (CAN_STAT_RECOVERING c) = 0 ∧ t.can = s.can ∧ only (CAN_STAT_RECOVERING c :: CAN_STAT_TEC c :: recs) t))
        ∧ (s.on (CAN_CTL_EN c) = true → Does (.canDominantTimeout c) s (fun t => captured 6 1 t ∧ t.can = s.can ∧ only cap t))
        ∧ (s.on (CAN_CTL_EN c) = true → st = 3 → s.get (SEG_STAT_STATE c) ≠ 3 → Does (.canBusIntegration c) s (fun t =>
            enters (if x.wasOff then 2 else counted (s.get (CAN_STAT_TEC c)) (s.canRec c)) t ∧ (x.wasOff = true → t.get (CAN_STAT_TEC c) = 255)
            ∧ (t.canCh c).wasOff = false ∧ only [CAN_STAT_TEC c] t)))
    ∧ (s.canOnBus c = true →
      (∀ (kind : Fin 6) (phase eight : Bool), Does (.canRxError c kind phase eight) s (fun t =>
          let r := min (s.canRec c + (if eight then 8 else 1)) 255
          t.canRec c = r ∧ t.get (CAN_ERR_CNT c) = satInc (s.get (CAN_ERR_CNT c)) 32 ∧ captured kind 0 t
          ∧ enters (counted (s.get (CAN_STAT_TEC c)) r) t ∧ t.can = s.can ∧ only (CAN_ERR_CNT c :: recs ++ cap) t))
      ∧ (∀ (f : CanFrame) (stamp : Fin 4294967296), s.get (CAN_CTL_MODE c) ≠ 3 → (f.fdf = true → s.on (CAN_CTL_FD_EN c) = true) →
          let got (t : State) : Prop := t.get (CAN_RX_CNT c) = satInc (s.get (CAN_RX_CNT c)) 32 ∧ t.get (CAN_TS c) = stamp
            ∧ (s.canRec c ≤ 127 → t.canRec c = s.canRec c - 1 ∧ t.fresh = s.fresh) ∧ (127 < s.canRec c → 119 ≤ t.canRec c ∧ t.canRec c ≤ 127)
            ∧ enters (counted (s.get (CAN_STAT_TEC c)) 0) t
            ∧ Keeps ([CAN_RX_CNT c, CAN_TS c, CAN_STAT_STATE c, CAN_LOST_CNT c] ++ recs ++ slotRegs) [144 + 4 * c.val, 147 + 4 * c.val] s t
            ∧ t = { s with regs := t.regs, can := t.can, fresh := t.fresh }
          (s.gwOn = false → x.input.length < 4 → Does (.canFrameReceive c f stamp) s (fun t => got t
            ∧ t.canCh c = { x with input := x.input ++ [(f, stamp.val)] } ∧ t.get (CAN_LOST_CNT c) = s.get (CAN_LOST_CNT c)))
          ∧ (s.gwOn = false → 4 ≤ x.input.length → Does (.canFrameReceive c f stamp) s (fun t => got t ∧ t.can = s.can
              ∧ t.get (CAN_LOST_CNT c) = satInc (s.get (CAN_LOST_CNT c)) 32 ∧ t.isPending (147 + 4 * c.val) = true))
          ∧ (s.gwOn = true → x.input = [] → s.managed c = false → s.on CGW_CTL_ROUTE_EN = false → bits (s.get CGW_DEFAULT) (2 * c) 2 = 1 →
              let q := look s.can.rx (Ring.cgw 2).base []
              q.length < ((s.ring (.cgw 2)).items.filter (·.fin.isNone)).length → Does (.canFrameReceive c f stamp) s (fun t => got t
                ∧ look t.can.rx (Ring.cgw 2).base [] = q ++ [⟨f, false, (s.stampTime c stamp).1, (s.stampTime c stamp).2, c, 0xFFFF⟩]
                ∧ t.can.wait = s.can.wait)))
      ∧ (∀ (p : Nat × GwFrame) (stamp : Fin 4294967296), x.attempt = none → s.get (CAN_CTL_MODE c) ≠ 1 → s.get (CAN_CTL_MODE c) ≠ 2 →
          bestFrame (fun q => canKey q.2.frame) x.slots = some p → Does (.canArbitrationStart c stamp) s (fun t =>
            (t.canCh c).attempt = some p.1 ∧ (t.canCh c).slots = x.slots.map (fun q => if q.1 = p.1 then (q.1, { q.2 with stamp := stamp.val }) else q)
            ∧ t.get (CAN_TS c) = stamp ∧ (∀ r i, p.2.job = some (r, i) → (t.ring r).items = (s.ring r).items.map (fun y =>
              if y.idx = i then { y with started := true } else y)) ∧ only [CAN_TS c] t))
      ∧ (∀ p : Nat × GwFrame, s.attemptOf c = some p →
          let lost (t : State) : Prop := (t.canCh c).attempt = none
            ∧ (p.2.cancel = true → ends p.2 0x10 0 t ∧ (t.canCh c).slots = x.slots.filter (fun q => q.1 != p.1))
            ∧ (p.2.cancel = false → p.2.oneshot = true → ends p.2 0x12 0 t ∧ (t.canCh c).slots = x.slots.filter (fun q => q.1 != p.1))
            ∧ (p.2.cancel = false → p.2.oneshot = false → t.rings = s.rings ∧ (t.canCh c).slots = x.slots)
          let tec := s.get (CAN_STAT_TEC c)
          Does (.canArbitrationLost c) s (fun t => lost t ∧ t.get (CAN_ARB_CNT c) = satInc (s.get (CAN_ARB_CNT c)) 32 ∧ only [CAN_ARB_CNT c] t)
          ∧ (∀ (kind : Fin 6) (phase exempt tdc : Bool), Does (.canTxError c kind phase exempt tdc) s (fun t => lost t ∧ captured kind 1 t
              ∧ (tdc = true → s.on (CAN_CTL_TDC_EN c) = true → t.on (CAN_STAT_TDC_FAIL c) = true)
              ∧ t.get (CAN_ERR_CNT c) = satInc (s.get (CAN_ERR_CNT c)) 32 ∧ only (CAN_ERR_CNT c :: CAN_STAT_TEC c :: CAN_STAT_TDC_FAIL c :: cap) t
              ∧ (exempt = false → 247 < tec → t.get (CAN_STAT_TEC c) = 255 ∧ enters 2 t)
              ∧ (exempt = false → tec ≤ 247 → t.get (CAN_STAT_TEC c) = tec + 8 ∧ enters (counted (tec + 8) (s.canRec c)) t)))
          ∧ (∀ tdcv : Fin 128, tec < 256 → Does (.canTxComplete c tdcv) s (fun t => (t.canCh c).attempt = none
              ∧ (t.canCh c).slots = x.slots.filter (fun q => q.1 != p.1) ∧ t.get (CAN_TX_CNT c) = satInc (s.get (CAN_TX_CNT c)) 32
              ∧ t.get (CAN_STAT_TEC c) = tec - 1 ∧ enters (counted (tec - 1) (s.canRec c)) t
              ∧ ends p.2 (if p.2.cancel then 0x11 else 0) ((s.stampTime c p.2.stamp).1 % 2 ^ 48 + (s.stampTime c p.2.stamp).2 * 2 ^ 48) t
              ∧ only [CAN_TX_CNT c, CAN_STAT_TEC c, CAN_TDC_TDCV c] t))))

/-- With the gateway on: an unsigned SEND of at most 8 bytes from a Secure or PF ring takes a gateway slot on an enabled channel,
and completes with 0x16 on a disabled one and 0x13 on channels 12 to 15; a CANCEL of a waiting frame ends it with 0x10, of none
reports 0x15. A channel's free message slot takes its highest-priority waiting frame. A received frame is written with its
prefix to its RECV buffer, which completes with the entry. A clean FIFO record becomes a waiting frame and its words are popped;
a lone word is popped, counted and raises event 197. A message from the backbone follows its routing entry. FIFOSRC enables only
a FIFO that is enabled and Secure for its consumer. Table writes store their words, refuse an index outside the table with 1 and
lengths outside R383 with 2; reads give them back. Nothing else changes. (11_can_channels_gateway.md, Message slots and priority
(R367, R368, R369); 11_can_channels_gateway.md, Cancellation (R371); 11_can_channels_gateway.md, Transmit descriptors and
completions (R372, R373); 11_can_channels_gateway.md, Reception and routing (R376, R377, R378); 11_can_channels_gateway.md, Lane
groups and credit FIFOs (R379); 11_can_channels_gateway.md, Authentication (R383); 11_can_channels_gateway.md, Backbone
encapsulation (R381); 11_can_channels_gateway.md, CGW register map (R391)) -/
def Obligations.TheGatewayMovesItsFrames : Prop :=
  ∀ s : State,
    let gw (t : State) : Prop := Keeps [] [] s t ∧ t = { s with regs := t.regs, can := t.can, rings := t.rings }
    let ends (r : Ring) (i st res : Nat) (t : State) : Prop := (t.ring r).items = (s.ring r).items.map (fun y =>
      if y.idx = i then { y with fin := some (st, res, 0) } else y)
    (∀ (r : Ring) (it : Item), s.gwNext r = some it → isCgw r = true → r.isRx = false → r.fn = none →
      let d := it.desc
      let ch := dbits d 112 4
      (dOp d = 1 → (r = .cgw 0 → s.gwNext (.cgw 1) = none) → (r = .cgw 4 → s.gwNext (.cgw 5) = none) → s.gwRoom (ringSrc r) = true →
        dbits d 104 7 ≤ 8 → dbits d 97 1 = 0 →
        (ch ≤ 11 → s.on (CAN_CTL_EN ch) = true → Does (.cgwSend r) s (fun t => t.can = { s.can with
            wait := s.can.wait ++ [⟨sendCanFrame d ((d.drop 24).take (dbits d 104 7)), ch, ringSrc r, some (r, it.idx), dbits d 33 1 == 1, false, 0⟩] }
          ∧ t.rings = s.rings ∧ gw t))
        ∧ (ch ≤ 11 → s.on (CAN_CTL_EN ch) = false → Does (.cgwSend r) s (fun t => t.can = s.can ∧ ends r it.idx 0x16 0 t ∧ gw t))
        ∧ (11 < ch → Does (.cgwSend r) s (fun t => t.can = s.can ∧ ends r it.idx 0x13 0 t ∧ gw t)))
      ∧ (dOp d = 2 →
          let job := some (r, dbits d 64 16)
          (∀ f, s.can.wait.find? (fun f => f.job == job) = some f → dbits d 64 16 ≠ it.idx → Does (.cgwCancel r) s (fun t =>
            t.can = { s.can with wait := s.can.wait.erase f } ∧ (t.ring r).items = (s.ring r).items.map (fun y =>
              if y.idx = it.idx then { y with fin := some (0, 0, 0) }
              else if y.idx = dbits d 64 16 then { y with fin := some (0x10, 0, 0) } else y) ∧ gw t))
          ∧ ((∀ f ∈ s.can.wait, f.job ≠ job) → (∀ p ∈ s.can.chans, ∀ q ∈ p.2.slots, q.2.job ≠ job) → Does (.cgwCancel r) s (fun t =>
              t.can = s.can ∧ ends r it.idx 0x15 0 t ∧ gw t))))
    ∧ (∀ (c : Fin 12) (f : GwFrame) (n : Nat), s.gwOn = true → (Block.can c).live s = true → s.on (CAN_CTL_EN c) = true →
        s.get (CAN_CTL_MODE c) ≠ 1 → s.get (CAN_CTL_MODE c) ≠ 2 → s.get (CAN_STAT_STATE c) ≠ 2 →
        bestFrame (fun f => canKey f.frame) (s.can.wait.filter (fun f => f.ch == c.val)) = some f →
        (List.range 64).find? (fun n => !((s.canCh c).slots.any (fun p => p.1 == n))) = some n → Does (.gwSlotLoad c) s (fun t =>
          t.canCh c = { s.canCh c with slots := (s.canCh c).slots ++ [(n, f)] } ∧ t.can.wait = s.can.wait.erase f
          ∧ (∀ d, d ≠ c.val → t.canCh d = s.canCh d) ∧ t.can = { s.can with chans := t.can.chans, wait := t.can.wait }
          ∧ Keeps [CAN_SLOT_LO c, CAN_SLOT_HI c] [] s t ∧ t = { s with regs := t.regs, can := t.can }))
    ∧ (∀ (r : Ring) (it : Item) (x : RxFrame) (l : List RxFrame), isCgw r = true → r.isRx = true → r.fn = none → s.ringReady r = some it →
        look s.can.rx r.base [] = x :: l →
        let buf := dbits it.desc 64 40
        let n := 16 + x.frame.data.length
        s.memGate r.agent true buf n = none → (∃ p, p ∈ [1, 4, 6] ∧ targetOfRange buf n = some p) →
        (∀ w, buf / 16 ≤ w → 16 * w < buf + n → s.synOf w = 0) → Does (.cgwRecv r) s (fun t =>
          t.readBytes buf n = canPrefix x ++ x.frame.data ∧ (∀ b, b < buf ∨ buf + n ≤ b → t.readByte b = s.readByte b)
          ∧ (t.ring r).items = (s.ring r).items.map (fun y => if y.idx = it.idx then { y with started := true, fin := some (0, x.entry, 0) } else y)
          ∧ t.can = { s.can with rx := ins s.can.rx r.base l } ∧ Keeps [] [] s t
          ∧ t = { s with regs := t.regs, can := t.can, rings := t.rings, mem := t.mem, syn := t.syn, arb := t.arb }))
    ∧ (∀ j : Fin 2,
        let n := s.get (CGW_FIFOSRC_FIFO j)
        let used := s.get (FIFO_COUNT_USED n)
        let popped (k : Nat) (t : State) : Prop := t.get (FIFO_COUNT_USED n) = (used - k) % 2 ^ 16
          ∧ t.get (FIFO_COUNT_CREDIT n) = (s.get (FIFO_COUNT_CREDIT n) + k) % 2 ^ 16
        let cnt := [FIFO_COUNT_USED n, FIFO_COUNT_CREDIT n]
        n < 16 → s.gwOn = true → Block.fifo.live s = true → s.on (CGW_FIFOSRC_EN j) = true → s.on (FIFO_CFG_EN n) = true → s.gwRoom .lanes = true →
        (used = 1 → Does (.cgwFifoRecord j) s (fun t => popped 1 t ∧ t.get CGW_FIFO_BAD = satInc (s.get CGW_FIFO_BAD) 32
          ∧ t.isPending 197 = true ∧ Changes (CGW_FIFO_BAD :: cnt) [197] s t))
        ∧ (∀ raw : List Byte, 2 ≤ used → (s.fifoRead n 0 2).1 = .ok raw → (s.fifoRead n 0 2).2 = { s with arb := (s.fifoRead n 0 2).2.arb } →
            let d := recordDesc raw
            dOp d = 1 → canTxFormatOk d = true → dbits d 104 7 ≤ 8 → dbits d 112 4 ≤ 11 → s.on (CAN_CTL_EN (dbits d 112 4)) = true →
            dbits d 97 1 = 0 → Does (.cgwFifoRecord j) s (fun t => popped 2 t ∧ t.can = { s.can with
              wait := s.can.wait ++ [⟨sendCanFrame d ((d.drop 24).take (dbits d 104 7)), dbits d 112 4, .lanes, none, dbits d 33 1 == 1, false, 0⟩] }
              ∧ Keeps cnt [] s t ∧ t = { s with regs := t.regs, can := t.can, arb := t.arb })))
    ∧ (∀ (a : Agent) (j : Fin 2) (v : Word), s.gate a (CGW_FIFOSRC_EN j).addr true = .pass → bit v.toNat 31 = true →
        Does (.cgwFifosrcEnable a j v) s (fun t => t.get (CGW_FIFOSRC_FIFO j) = bits v.toNat 0 4
          ∧ (t.on (CGW_FIFOSRC_EN j) = true ↔ s.on (CGW_FIFOSRC_EN j) = true
            ∨ (s.on (FIFO_CFG_EN (bits v.toNat 0 4)) = true ∧ s.on (FIFO_CFG_CWORLD (bits v.toNat 0 4)) = true))
          ∧ Writes [CGW_FIFOSRC_FIFO j, CGW_FIFOSRC_EN j] [] s t))
    ∧ (∀ (g : EFrame) (l : List EFrame) (k i : Nat) (e : List Nat) (d : Fin 12) (f : CanFrame) (ts : Option Nat),
        s.eth.toGw = g :: l → s.gwOn = true → g.syns = [] → gwStream s.can.streams g = some k → 5 ≤ (s.streamEnt k).length →
        let m := (g.body.drop 14).take (beAt g.body 3 2 % 2048)
        let q := beAt m 0 2 % 512
        m.length = 4 * q → 0 < q → beAt m 0 1 / 2 = 1 → acfFrame m q = some (f, ts) → s.on CGW_CTL_ROUTE_EN = true →
        s.can.routes.find? (fun p => routeHits p.2 0xF k f) = some (i, e) → bit (wordOf e 5) 29 = false → bits (wordOf e 3) 0 12 = 2 ^ d.val →
        bit (wordOf e 3) 22 = false → bits (wordOf e 3) 24 3 = 0 → bits (wordOf e 3) 28 2 = 0 → bits (wordOf e 4) 0 8 = 0 →
        bits (wordOf e 4) 16 2 = 0 → s.on (CAN_CTL_EN d) = true → bit (s.get CGW_STAT_ISO) d = false → s.get (CAN_STAT_STATE d) ≠ 2 →
        s.gwRoom .routed = true → Does .cgwEthFrameReceive s (fun t => t.eth = { s.eth with toGw := l }
          ∧ t.can.wait = s.can.wait ++ [⟨f, d, .routed, none, false, false, 0⟩] ∧ wordOf (t.streamEnt k) 6 = beAt g.body 5 1
          ∧ t.can = { s.can with wait := t.can.wait, streams := t.can.streams, routes := t.can.routes }
          ∧ Keeps [CGW_ETH_SKIP, PORT_TX_FRAMES_LO 9, PORT_TX_FRAMES_HI 9] [196] s t ∧ t = { s with regs := t.regs, eth := t.eth, can := t.can }))
    ∧ (∀ (a : Agent) (i : Fin 65536), s.gate a CGW_TBL_CMD_OP.addr true = .pass →
        let res (r : Nat) (t : State) : Prop := t.get CGW_TBL_STAT_RESULT = r ∧ t = { s with regs := t.regs, can := t.can, arb := t.arb, resp := ⟨false, 0, false⟩ }
        let stat := [CGW_TBL_STAT_RESULT]
        let data := (List.range 8).map (fun k => CGW_TBL_DATA k)
        (i.val < 8 → Does (.cgwTblWrite a 4 i) s (fun t => res 0 t ∧ Keeps stat [] s t ∧ t.can = { s.can with
            perms := ins s.can.perms i [s.get (CGW_TBL_DATA 0) &&& 0xFFF, s.get (CGW_TBL_DATA 1) &&& 0x3FFFFFFF, s.get (CGW_TBL_DATA 2) &&& 0x1FFFFFFF] })
          ∧ Does (.cgwTblRead a 4 i) s (fun t => res 0 t ∧ Keeps (stat ++ data) [] s t ∧ t.can = s.can
            ∧ ∀ k, k < 8 → t.get (CGW_TBL_DATA k) = (look s.can.perms i []).getD k 0 % 2 ^ 32))
        ∧ (8 ≤ i.val → Does (.cgwTblWrite a 4 i) s (fun t => res 1 t ∧ Writes stat [] s t)
            ∧ Does (.cgwTblRead a 4 i) s (fun t => res 1 t ∧ Writes stat [] s t))
        ∧ (i.val < 256 → bits (s.get (CGW_TBL_DATA 0)) 4 4 < 3 → Does (.cgwTblWrite a 2 i) s (fun t => res 2 t ∧ Writes stat [] s t)))

/-- EN and MANAGED bring segments under management, in AWAKE, or release them with no needs. A wake request, by NMW_WAKE_REQ, HOLD
or activity, takes a managed CLOSING segment to AWAKE with event 203 and an ASLEEP one to WAKING with event 202; the fall of
HOLD makes a release lantern due. An accepted lantern sets or clears its source's need and shows in SEG_LAST; a curfewed
source's counts in IGN_CNT; a bad format, a late own lantern and a WAKING timeout are captured with causes 1, 3 and 4 and event
207. An own lantern takes a gateway slot, or queue 7 of its port. A segment without needs and HOLD closes with event 200, and
commits, quiet, with event 201, its channel off the bus or its link down. A curfew that has run its limit out moves the need to
CURFEWED, counts, with event 205 and a ledger record due. What the registers show of a state follows it.
(12_closing_bell_sleep_wake.md, Segments (R392, R393); 12_closing_bell_sleep_wake.md, Lanterns (R394, R395, R396, R397);
12_closing_bell_sleep_wake.md, Segment states (R399, R400, R401, R402); 12_closing_bell_sleep_wake.md, Wake (R403, R405);
12_closing_bell_sleep_wake.md, Curfew (R408, R409); 12_closing_bell_sleep_wake.md, NMW register map (R412)) -/
def Obligations.SegmentsCloseCommitAndWake : Prop :=
  ∀ s : State,
    let shows (g v : Nat) (t : State) : Prop := t.seg g = v ∧ t.get (SEG_STAT_ISO g) = (if 2 ≤ v then 1 else 0)
      ∧ bit (t.get NMW_STAT_ASLEEP) g = (v == 3) ∧ bit (t.get NMW_CLOSING) g = (v == 2)
      ∧ (g < 12 → bit (t.get CGW_STAT_ISO) g = decide (2 ≤ v)) ∧ t.get NMW_STAT_ALL_ASLEEP = b2n t.allAsleep
    let segRegs (g : Nat) : List Fld := [SEG_STAT_STATE g, SEG_STAT_ISO g, NMW_STAT_ASLEEP, NMW_CLOSING, CGW_STAT_ISO, NMW_STAT_ALL_ASLEEP]
    let inNmw (t : State) : Prop := ∀ f : Fld, pendFld f = false → f.key < 0x400A0000 * 32 ∨ 0x400A1000 * 32 ≤ f.key → f.key ≠ CGW_STAT_ISO.key →
      t.get f = s.get f
    let nmw (t : State) : Prop := t = { s with regs := t.regs, nmw := t.nmw }
    let nmwWr (t : State) : Prop := t = { s with regs := t.regs, nmw := t.nmw, arb := t.arb, resp := ⟨false, 0, false⟩ }
    let cap := [NMW_ERR_INFO_VALID, NMW_ERR_INFO_CAUSE, NMW_ERR_INFO_SEG]
    let captured (cause g : Nat) (t : State) : Prop := s.on NMW_ERR_INFO_VALID = false → t.get NMW_ERR_INFO_VALID = 1
      ∧ t.get NMW_ERR_INFO_CAUSE = cause ∧ t.get NMW_ERR_INFO_SEG = g ∧ t.isPending 207 = true
    let woken (g : Nat) (t : State) : Prop := (s.seg g = 3 → t.seg g = 4 ∧ t.isPending 202 = true)
      ∧ (s.seg g = 2 → t.seg g = 1 ∧ t.isPending 203 = true)
    (∀ (a : Agent) (v : Word),
      (s.gate a NMW_CTL_EN.addr true = .pass → Does (.nmwEnWrite a v) s (fun t => t.get NMW_CTL_EN = bits v.toNat 0 1
        ∧ t.get NMW_CTL_LATE_WIN = bits v.toNat 16 16 ∧ (s.on NMW_CTL_EN = bit v.toNat 0 → Writes [NMW_CTL_EN, NMW_CTL_LATE_WIN] [] s t)
        ∧ (s.on NMW_CTL_EN = false → bit v.toNat 0 = true → ∀ g : Fin 20, if s.on (SEG_CTL_MANAGED g) then shows g 1 t else t.seg g = s.seg g)
        ∧ (s.on NMW_CTL_EN = true → bit v.toNat 0 = false → ∀ g : Fin 20, shows g 0 t ∧ t.get (SEG_NEED g) = 0)
        ∧ inNmw t ∧ nmwWr t))
      ∧ (s.gate a NMW_WAKE_REQ.addr true = .pass → Does (.nmwWakeReq a v) s (fun t =>
          (∀ g : Fin 20, bit v.toNat g = true → s.managed g = true → woken g t) ∧ inNmw t ∧ nmwWr t))
      ∧ (∀ g : Fin 20,
        (s.gate a (SEG_CTL_MANAGED g).addr true = .pass → Does (.segManagedWrite a g v) s (fun t =>
          t.get (SEG_CTL_MANAGED g) = bits v.toNat 31 1 ∧ t.get (SEG_CTL_ROUTE_WAKE g) = bits v.toNat 29 1
          ∧ t.get (SEG_CTL_LANT_AUTH g) = bits v.toNat 28 1 ∧ t.get (SEG_CTL_AIDX g) = bits v.toNat 20 8
          ∧ t.get (SEG_CTL_WAKE_FAN g) = bits v.toNat 0 20
          ∧ (s.on (SEG_CTL_MANAGED g) ≠ bit v.toNat 31 → s.on NMW_CTL_EN = true →
              (bit v.toNat 31 = true → shows g 1 t) ∧ (bit v.toNat 31 = false → shows g 0 t ∧ t.get (SEG_NEED g) = 0))
          ∧ Keeps (segRegs g ++ [SEG_NEED g, SEG_CTL_MANAGED g, SEG_CTL_ROUTE_WAKE g, SEG_CTL_LANT_AUTH g, SEG_CTL_AIDX g, SEG_CTL_WAKE_FAN g]) [] s t
          ∧ nmwWr t))
        ∧ (s.gate a (SEG_CTL_HOLD g).addr true = .pass → Does (.segHoldWrite a g v) s (fun t => t.get (SEG_CTL_HOLD g) = bits v.toNat 30 1
            ∧ (bit v.toNat 30 = true → woken g t) ∧ (bit v.toNat 30 = false → Keeps [SEG_CTL_HOLD g] [] s t
              ∧ (s.on (SEG_CTL_HOLD g) = true → s.managed g = true → bit t.nmw.releaseDue g = true)) ∧ inNmw t ∧ nmwWr t))
        ∧ (s.gate a (SEG_CURFEW_SET g).addr true = .pass → Does (.segCurfewSet a g v) s (fun t =>
            t.get (SEG_CURFEWED g) = orBits (s.get (SEG_CURFEWED g)) v.toNat % 2 ^ 32 ∧ Writes [SEG_CURFEWED g] [] s t))))
    ∧ (∀ (l : Lantern) (rest : List Lantern), s.nmw.lanterns = l :: rest → s.nmwLive = true → l.seg < 20 → l.src < 32 → l.reason < 16 →
        let popped (t : State) : Prop := t.nmw = { s.nmw with lanterns := rest } ∧ nmw t
        (l.formatOk = false → Does .lanternReceive s (fun t => captured 1 l.seg t ∧ popped t ∧ Keeps cap [207] s t))
        ∧ (l.formatOk = true → s.managed l.seg = true → s.seg l.seg = 1 ∨ s.seg l.seg = 2 →
          (bit (s.get (SEG_CURFEWED l.seg)) l.src = true → Does .lanternReceive s (fun t => popped t
            ∧ t.get NMW_IGN_CNT = satInc (s.get NMW_IGN_CNT) 32 ∧ Keeps [NMW_IGN_CNT] [] s t))
          ∧ (bit (s.get (SEG_CURFEWED l.seg)) l.src = false → l.authOk = true → Does .lanternReceive s (fun t =>
              (∀ i, i < 32 → bit (t.get (SEG_NEED l.seg)) i = if i = l.src then !l.release else bit (s.get (SEG_NEED l.seg)) i)
              ∧ t.get (SEG_LAST_SRC l.seg) = l.src ∧ t.get (SEG_LAST_REASON l.seg) = l.reason ∧ t.get (SEG_LAST_RELEASE l.seg) = b2n l.release
              ∧ t.get (SEG_LAST_AUTHZ l.seg) = b2n (l.reason != 0 && bit (s.get (SEG_REASON l.seg)) l.reason)
              ∧ t.seg l.seg = 1 ∧ t.nmw.lanterns = rest ∧ inNmw t ∧ nmw t))))
    ∧ (∀ (g : Fin 20) (i : Fin 32), s.managed g = true →
        (s.seg g = 1 → s.on (SEG_CTL_HOLD g) = true →
          (g.val < 12 → s.gwOn = true → s.gwRoom .lanes = true → s.on (SEG_CTL_LANT_AUTH g) = false → Does (.ownLanternSend g) s (fun t =>
            (∃ f : CanFrame, t.can = { s.can with wait := s.can.wait ++ [⟨f, g, .lanes, none, false, false, 0⟩] }
              ∧ f.id = s.get (SEG_LANT_ID_ID g) ∧ f.ide = s.on (SEG_LANT_ID_IDE g)
              ∧ f.data = [BitVec.ofNat 8 (s.get NMW_OWN_OWN_SRC), BitVec.ofNat 8 (s.get NMW_OWN_OWN_REASON)])
            ∧ bit t.nmw.releaseDue g = false ∧ Keeps [] [] s t ∧ t = { s with regs := t.regs, can := t.can, nmw := t.nmw }))
          ∧ (12 ≤ g.val → s.poolRoom (s.eQueue (segPort g) 7) 60 = true → Does (.ownLanternSend g) s (fun t =>
              (∃ f : EFrame, t.eQueue (segPort g) 7 = s.eQueue (segPort g) 7 ++ [f] ∧ f.dst = s.get NMW_LANT_DMAC_LO + 2 ^ 32 * s.get NMW_LANT_DMAC_HI
                ∧ f.body.take 6 = beBytes 2 (s.get NMW_LANT_ETYPE) ++ [1, BitVec.ofNat 8 (s.get NMW_OWN_OWN_SRC),
                  BitVec.ofNat 8 (s.get NMW_OWN_OWN_REASON), 0])
              ∧ Keeps [] [] s t ∧ t = { s with regs := t.regs, eth := t.eth, nmw := t.nmw })))
        ∧ (s.on (SEG_CTL_HOLD g) = true → Does (.ownLanternLate g) s (fun t => captured 3 g t ∧ Changes cap [207] s t))
        ∧ Does (.sourceNeedExpiry g i) s (fun t => (∀ j, j < 32 → bit (t.get (SEG_NEED g)) j = if j = i.val then false else bit (s.get (SEG_NEED g)) j)
            ∧ Changes [SEG_NEED g] [] s t)
        ∧ (s.seg g = 1 → s.get (SEG_NEED g) = 0 → s.on (SEG_CTL_HOLD g) = false → Does (.segmentClose g) s (fun t => shows g 2 t
            ∧ t.isPending 200 = true ∧ Changes (segRegs g) [200] s t))
        ∧ (s.seg g = 2 → s.segQuiet g = true → Does (.segmentCommit g) s (fun t => shows g 3 t ∧ t.isPending 201 = true
            ∧ look t.nmw.commits g (-1) = s.zone ∧ (g.val < 12 → s.get (CAN_STAT_STATE g) < 2 → t.get (CAN_STAT_STATE g) = 3)
            ∧ (12 ≤ g.val → t.on (PORT_STAT_LINK (segPort g)) = false)
            ∧ Keeps (segRegs g ++ [CAN_STAT_STATE g, PORT_STAT_LINK (segPort g), PORT_STAT_SQI (segPort g), PORT_STAT_PLCA_ACT (segPort g), ETH_STAT])
                [201, 144 + 4 * g.val, 120 + segPort g] s t ∧ nmw t))
        ∧ (s.seg g = 3 → Does (.segmentWakeDetect g false) s (fun t => t.seg g = 4 ∧ t.isPending 202 = true ∧ inNmw t ∧ nmw t
            ∧ (∀ p, s.nmw.commits.find? (fun p => p.1 == g.val) = some p → (((s.zone : Int) - p.2) / 1000000).toNat ≤ s.get NMW_CTL_LATE_WIN →
                t.isPending 204 = true)))
        ∧ (bit s.nmw.routed g = true → Does (.segmentWakeDetect g true) s (fun t => bit t.nmw.routed g = false
            ∧ (s.on (SEG_CTL_ROUTE_WAKE g) = true → woken g t) ∧ inNmw t ∧ nmw t))
        ∧ (s.seg g = 4 →
            ((g.val < 12 → s.get (CAN_STAT_STATE g) ≠ 3) → (12 ≤ g.val → s.on (PORT_STAT_LINK (segPort g)) = true) →
              Does (.segmentAwake g) s (fun t => shows g 1 t ∧ t.isPending 203 = true ∧ Changes (segRegs g) [203] s t))
            ∧ (bit s.nmw.wakingSeen g = false → Does (.wakingTimeout g) s (fun t => captured 4 g t ∧ bit t.nmw.wakingSeen g = true
                ∧ Keeps cap [207] s t ∧ nmw t)))
        ∧ (∀ secs : Nat, bit (s.get (SEG_NEED g)) i = true → s.curfewLimit g i ≤ secs → Does (.curfewExpiry g i secs) s (fun t =>
            bit (t.get (SEG_CURFEWED g)) i = true ∧ bit (t.get (SEG_NEED g)) i = false
            ∧ t.get NMW_CURFEW_CNT = satInc (s.get NMW_CURFEW_CNT) 32 ∧ t.isPending 205 = true
            ∧ (∃ q : RecReq, t.recorder = { s.recorder with due := s.recorder.due ++ [q] } ∧ q.code = 5 ∧ q.payload.take 2 = [BitVec.ofNat 8 g, BitVec.ofNat 8 i])
            ∧ Keeps [SEG_CURFEWED g, SEG_NEED g, NMW_CURFEW_CNT] [205] s t ∧ t = { s with regs := t.regs, recorder := t.recorder })))

/-- With the metering die powered: a strobe in time, and a timeout, close the interval; the sample block holds the values with the
active trims (the model's rounding, log entry 170), clamped and rounded, and the energy is added to its direction. ALIGNED
follows Table 13.2, EARLY and FREE count. MD_LATCH copies the block; the isolated supply's fault flags bit 5; a shadow word in
its bits is stored and dirty, a commit that names the dirty words in range applies the set, counts and flags bit 4. A sense
sample debounces every input into SNS_DIN with its edges and event 209. GO starts a scan, or is skipped with cause 1 while one
runs; its end gives the results and the next number, event 208 where asked for, and a record where its buffer is enabled. A
buffer is enabled only where it fits. 10 µs after a strobe the metering record is written, or cause 3 captured. A direct control
input drives its line. (13_metering_sense_inputs.md, Metering die (R414); 13_metering_sense_inputs.md, Sample timing (R416,
R417, R418); 13_metering_sense_inputs.md, Sessions (R420, R423); 13_metering_sense_inputs.md, Events (R430);
13_metering_sense_inputs.md, Metering die registers (R432); 07_stage_bridge.md, Shadow sets (R238, R239);
13_metering_sense_inputs.md, Sense inputs (R424, R425, R427); 13_metering_sense_inputs.md, Sample buffers (R428, R429);
13_metering_sense_inputs.md, SNS register map) -/
def Obligations.MeteringIntervalsAndSenseScans : Prop :=
  ∀ s : State,
    let md (f : Fld) : Prop := 0x50080000 * 32 ≤ f.key ∧ f.key < 0x50090000 * 32
    let mdOnly (t : State) : Prop := (∀ f : Fld, pendFld f = false → ¬ md f → t.get f = s.get f)
      ∧ t.sns.raw = s.sns.raw ∧ t.sns.deb = s.sns.deb ∧ t.sns.scanSet = s.sns.scanSet ∧ t = { s with regs := t.regs, md := t.md, sns := t.sns }
    let flag (b : Nat) (t : State) : Prop := bit t.md.flags b = true ∧ bit (t.get MD_FLAG) b = true
    let closed (m : MdSample) (t : State) : Prop :=
      t.md.samples = s.md.samples + 1 ∧ t.get MD_SMP_SEQ = (s.md.samples + 1) % 2 ^ 32
      ∧ t.get MD_SMP_I0 = unsigned (nearest (packCurrent s (clampShunt m.s0))) 32 ∧ t.get MD_SMP_I1 = unsigned (nearest (packCurrent s (clampShunt m.s1))) 32
      ∧ t.get MD_SMP_V = (nearest (((clampPack m.uv : Nat) : Rat) / 1000)).toNat ∧ t.get MD_STAT_RANGE_V = b2n (decide (1000000000 < m.uv))
      ∧ (1000000000 < m.uv → flag 2 t)
      ∧ t.md.eDis = s.md.eDis + (if s.md.integ = true ∧ 0 < intervalEnergy s m then (intervalEnergy s m).floor.toNat else 0)
      ∧ t.md.eChg = s.md.eChg + (if s.md.integ = true ∧ intervalEnergy s m < 0 then (-(intervalEnergy s m)).floor.toNat else 0)
      ∧ t.md.extended = false ∧ t.md.shunt = s.md.shunt
    let wrote (t : State) : Prop := t.md.status = 0
    let snsWr (t : State) : Prop := t = { s with regs := t.regs, sns := t.sns, arb := t.arb, resp := ⟨false, 0, false⟩ }
    let cap := [SNS_ERR_INFO_VALID, SNS_ERR_INFO_CAUSE]
    let captured (cause : Nat) (t : State) : Prop := s.on SNS_ERR_INFO_VALID = false → t.get SNS_ERR_INFO_VALID = 1
      ∧ t.get SNS_ERR_INFO_CAUSE = cause ∧ t.isPending 210 = true
    let room (addr n : Nat) (a : Agent) : Prop := addr % 16 = 0 ∧ s.regionRefused a ((targetOf addr).getD 15) addr n = false
      ∧ s.storeRefused a true ((targetOf addr).getD 15) addr n = false
    (s.pwr.mdOn = true →
      (∀ m : MdSample, s.mdStrobed = true →
        let due (t : State) : Prop := t.sns.strobeTime = s.zone ∧ t.sns.strobeEpoch = s.epoch ∧ t.sns.strobeDue = true ∧ mdOnly t
        (s.on MD_STAT_ALIGNED = true → 100000 ≤ m.ns → Does (.mdStrobe m) s (fun t => closed (s.trimmed m) t ∧ t.on MD_STAT_ALIGNED = true ∧ due t))
        ∧ (s.on MD_STAT_ALIGNED = true → m.ns < 100000 → Does (.mdStrobe m) s (fun t => t.md = s.md ∧ due t
            ∧ t.get MD_TIMING_EARLY = (s.get MD_TIMING_EARLY + 1) % 2 ^ 16 ∧ Keeps [MD_TIMING_EARLY] [] s t))
        ∧ (s.on MD_STAT_ALIGNED = false → 25000 ≤ m.ns ∨ s.md.extended = true → Does (.mdStrobe m) s (fun t => closed m t
            ∧ t.get MD_STAT_ALIGNED = 1 ∧ due t))
        ∧ (s.on MD_STAT_ALIGNED = false → m.ns < 25000 → s.md.extended = false → Does (.mdStrobe m) s (fun t =>
            t.md = { s.md with extended := true } ∧ due t ∧ Keeps [] [] s t)))
      ∧ (∀ m : MdSample, s.on MD_STAT_ALIGNED = true ∨ s.md.extended = false → Does (.mdIntervalTimeout m) s (fun t => closed (s.trimmed m) t
          ∧ t.on MD_STAT_ALIGNED = false ∧ t.get MD_TIMING_FREE = (s.get MD_TIMING_FREE + 1) % 2 ^ 16
          ∧ (s.on MD_STAT_ALIGNED = true → flag 0 t) ∧ mdOnly t))
      ∧ (∀ v : Word, bit v.toNat 0 = true → Does (.mdLatchWrite v) s (fun t => t.get MD_L_SEQ = s.get MD_SMP_SEQ % 2 ^ 32
          ∧ t.get MD_L_I0 = s.get MD_SMP_I0 % 2 ^ 32 ∧ t.get MD_L_V = s.get MD_SMP_V % 2 ^ 32 ∧ t.get MD_L_EDIS_LO = s.md.eDis / 2 ^ 32 % 2 ^ 32
          ∧ t.get MD_L_EDIS_HI = s.md.eDis / 2 ^ 64 % 2 ^ 32 ∧ t.get MD_L_ECHG_LO = s.md.eChg / 2 ^ 32 % 2 ^ 32
          ∧ t.get MD_L_CALCNT = s.md.calCnt % 2 ^ 16 ∧ t.md = s.md ∧ mdOnly t))
      ∧ Does .mdIsoFault s (fun t => t.get MD_STAT_ISO_OK = 0 ∧ flag 5 t ∧ Keeps [MD_STAT_ISO_OK, MD_FLAG] [] s t ∧ mdOnly t)
      ∧ Does .mdIsoRestore s (fun t => t.get MD_STAT_ISO_OK = 1 ∧ Changes [MD_STAT_ISO_OK] [] s t)
      ∧ (∀ (i : Nat) (v : Word), i < 5 → (v.toNat &&& definedBits rowsMd (0x50080200 + 4 * i)) = v.toNat →
          Does (.shadowWordWrite 4 (0x200 + 4 * i) v) s (fun t => wrote t ∧ bit (t.get MD_COMMIT_DIRTY) i = true
            ∧ (i = 0 → t.get MD_SHUNT = v.toNat) ∧ t.md.shunt = s.md.shunt ∧ mdOnly t))
      ∧ (∀ v : Word, v.toNat % 256 = s.get MD_COMMIT_DIRTY → v.toNat % 256 ≠ 0 → s.mdShadowOk = true → Does (.shadowCommit 4 0x214 v) s (fun t =>
          wrote t ∧ t.get MD_COMMIT_DIRTY = 0 ∧ t.get MD_COMMIT_APPLIED = v.toNat % 256 ∧ t.md.shunt = s.get MD_SHUNT
          ∧ t.md.chkThr = s.get MD_CFG_CHK_THR ∧ t.md.flowThr = s.get MD_CFG_FLOW_THR ∧ t.md.integ = s.on MD_CFG_INTEG_EN
          ∧ t.md.cal = (List.range 3).map (fun i => 65536 * s.get (MD_CAL_GAIN i) + s.get (MD_CAL_OFFSET i))
          ∧ t.md.calCnt = (s.md.calCnt + 1) % 65536 ∧ flag 4 t ∧ mdOnly t)))
    ∧ (Block.sns.live s = true →
      (∀ l : List Int, s.on SNS_CTL_EN = true → Does (.senseSample l) s (fun t =>
        (∀ n mv, n < 32 → l[n]? = some mv →
          let raw := rawState (s.switchKind n) mv (bit s.sns.raw n)
          let old := bit (s.get SNS_DIN) n
          let ready := raw ≠ old ∧ s.debOf n ≤ look s.sns.deb n 0 + 1
          (s.switchKind n = 0 → bit (t.get SNS_DIN) n = false)
          ∧ (s.switchKind n ≠ 0 → bit t.sns.raw n = raw ∧ (ready → bit (t.get SNS_DIN) n = raw
              ∧ (bit (s.get SNS_EDGE_EN) n = true → bit (t.get SNS_EDGE) n = true ∧ t.isPending 209 = true))
            ∧ (¬ ready → bit (t.get SNS_DIN) n = old)))
        ∧ (l[32]? = none → t.pwr = s.pwr) ∧ Keeps [SNS_DIN, SNS_EDGE] [209] s t ∧ t = { s with regs := t.regs, sns := t.sns, pwr := t.pwr }))
      ∧ (∀ codes : List Nat, s.on SNS_STAT_BUSY = true →
          let addr := s.bufBase 0 + s.get SNS_STAT_SEQ % 2 ^ s.get (SNS_BUF_HI_LOG2 0) * 128
          let ended (t : State) : Prop := (∀ n c, n < 32 → codes[n]? = some c → bit s.sns.scanSet n = true →
              t.get (SNS_RES_CODE n) = c % 2 ^ 12 ∧ t.get (SNS_RES_SEQ n) = s.get SNS_STAT_SEQ % 2 ^ 16)
            ∧ (∀ n, n < 32 → bit s.sns.scanSet n = false → t.get (SNS_RES_CODE n) = s.get (SNS_RES_CODE n))
            ∧ (∀ f : Fld, pendFld f = false → f.key < 0x400B0000 * 32 ∨ 0x400B1000 * 32 ≤ f.key → t.get f = s.get f)
            ∧ t.get SNS_STAT_BUSY = 0 ∧ t.get SNS_STAT_SEQ = (s.get SNS_STAT_SEQ + 1) % 2 ^ 16 ∧ (s.on SNS_CTL_SCAN_EVT = true → t.isPending 208 = true)
          (s.on (SNS_BUF_HI_EN 0) = false → Does (.snsScanComplete codes) s (fun t => ended t ∧ t = { s with regs := t.regs }))
          ∧ (s.on (SNS_BUF_HI_EN 0) = true → room addr 128 .snsBuf → Does (.snsScanComplete codes) s (fun t => ended t
              ∧ t.readBytes addr 12 = leBytes 8 s.sns.scanTime ++ leBytes 2 s.sns.scanEpoch ++ leBytes 2 (s.get SNS_STAT_SEQ)
              ∧ (∀ b, b < addr ∨ addr + 128 ≤ b → t.readByte b = s.readByte b) ∧ t = { s with regs := t.regs, mem := t.mem, syn := t.syn, arb := t.arb })))
      ∧ (s.fabStalls = false → (s.side 4 false).frames = [] → s.sns.strobeDue = true → s.on (SNS_BUF_HI_EN 1) = true → s.on SNS_CTL_MD_EN = true →
          let seq := s.get MD_SMP_SEQ
          let addr := s.bufBase 1 + seq % 2 ^ s.get (SNS_BUF_HI_LOG2 1) * 32
          (s.linkUp 4 = false ∨ s.pwr.mdOn = false ∨ seq = s.get (SNS_BUF_WI 1) → Does .mbufRead s (fun t => captured 3 t ∧ t.sns.strobeDue = false
            ∧ t.get BRG_NP_ERR = (if s.linkUp 4 = true ∧ s.pwr.mdOn = true then s.get BRG_NP_ERR else satInc (s.get BRG_NP_ERR) 32)
            ∧ Keeps (BRG_NP_ERR :: cap) [210] s t ∧ t = { s with regs := t.regs, sns := t.sns, links := (s.drainDown 4).links }))
          ∧ (s.linkUp 4 = true → s.pwr.mdOn = true → seq ≠ s.get (SNS_BUF_WI 1) → room addr 32 .mdBuf → Does .mbufRead s (fun t =>
              t.get (SNS_BUF_WI 1) = seq % 2 ^ 32 ∧ t.sns.strobeDue = false
              ∧ t.readBytes addr 28 = leBytes 8 s.sns.strobeTime ++ leBytes 2 s.sns.strobeEpoch ++ leBytes 2 0 ++ leBytes 4 seq
                ++ leBytes 4 (s.get MD_SMP_I0) ++ leBytes 4 (s.get MD_SMP_I1) ++ leBytes 4 (s.get MD_SMP_V)
              ∧ (∀ b, b < addr ∨ addr + 32 ≤ b → t.readByte b = s.readByte b) ∧ Keeps [SNS_BUF_WI 1] [] s t
              ∧ t = { s with regs := t.regs, sns := t.sns, links := (s.drainDown 4).links, mem := t.mem, syn := t.syn, arb := t.arb })))
      ∧ (s.on SNS_CTL_SCAN_TRIG = true → s.on SNS_STAT_BUSY = false → ∀ a : Agent, Does (.snsGo a true) s (fun t => t.get SNS_STAT_BUSY = 1
          ∧ t.sns = { s.sns with scanTime := s.zone, scanEpoch := s.epoch, scanSet := s.scanInputs } ∧ Keeps [SNS_STAT_BUSY] [] s t
          ∧ t = { s with regs := t.regs, sns := t.sns })))
    ∧ (∀ (a : Agent), s.gate a SNS_CMD_GO.addr true = .pass →
        (s.on SNS_STAT_BUSY = false → Does (.snsGo a false) s (fun t => t.get SNS_STAT_BUSY = 1
          ∧ t.sns = { s.sns with scanTime := s.zone, scanEpoch := s.epoch, scanSet := s.scanInputs } ∧ Keeps [SNS_STAT_BUSY] [] s t ∧ snsWr t))
        ∧ (s.on SNS_STAT_BUSY = true → Does (.snsGo a false) s (fun t => t.get SNS_SKIP = satInc (s.get SNS_SKIP) 32 ∧ captured 1 t
            ∧ Writes (SNS_SKIP :: cap) [210] s t)))
    ∧ (∀ (a : Agent) (b : Fin 2) (v : Word), s.gate a (SNS_BUF_HI_EN b).addr true = .pass →
        let size := (if b = 0 then 128 else 32) * 2 ^ bits v.toNat 8 4
        let base := s.get (SNS_BUF_LO b) + 2 ^ 32 * bits v.toNat 0 8
        let fits := 4 ≤ bits v.toNat 8 4 ∧ bits v.toNat 8 4 ≤ (if b = 0 then 12 else 14) ∧ base % size = 0 ∧ inSramOrDram base size = true
        Does (.snsBufEnable a b v) s (fun t => t.get (SNS_BUF_HI_LOG2 b) = bits v.toNat 8 4 ∧ t.get (SNS_BUF_HI_ADDR b) = bits v.toNat 0 8
          ∧ (bit v.toNat 31 = false → t.get (SNS_BUF_HI_EN b) = 0 ∧ Keeps [SNS_BUF_HI_EN b, SNS_BUF_HI_LOG2 b, SNS_BUF_HI_ADDR b] [] s t)
          ∧ (bit v.toNat 31 = true → fits → t.get (SNS_BUF_HI_EN b) = 1 ∧ Keeps [SNS_BUF_HI_EN b, SNS_BUF_HI_LOG2 b, SNS_BUF_HI_ADDR b] [] s t)
          ∧ (bit v.toNat 31 = true → ¬ fits → t.get (SNS_BUF_HI_EN b) = 0 ∧ captured 2 t)
          ∧ Writes ([SNS_BUF_HI_EN b, SNS_BUF_HI_LOG2 b, SNS_BUF_HI_ADDR b] ++ cap) [210] s t))
    ∧ (∀ (j : Fin 8) (high : Bool), Does (.directControlChange j high) s (fun t =>
        bit t.lines (24 + j.val) = (high && bit (s.aonGet SNS_DC_DC_EN) j) ∧ (∀ i, i ≠ 24 + j.val → bit t.lines i = bit s.lines i)
        ∧ (s.psPowered = true → ∀ d k, d < 4 → k < 12 → t.get (PS_CH_STAT_LINE d k) = b2n (t.lineActive d k))
        ∧ (∀ f : Fld, pendFld f = false → f.key < 0x50000000 * 32 ∨ 0x50040000 * 32 ≤ f.key → t.get f = s.get f)
        ∧ t = { s with regs := t.regs, lines := t.lines, chan := t.chan, die := t.die }))

/-- While the recorder accepts: a put that reaches it joins the logbook queue, or waits where its places are full; a Normal one
without NPUT is counted in LOST with event 235; a hardware record joins its queue or is counted lost. A record written in full
stands marked at its place, its SEQ the next one, for the ledger the chain moved on; one cut off is kept in progress, and memory
outside the log does not change. A statement begins where none nor a clear is in progress, and its signature enters its record,
with STMT_LAST and event 232. A clear is refused with 5 while busy; a message that fails its checks reports why and clears
nothing; one that passes leaves its record the oldest and its counter. A snapshot shows both logs. Start-up gives READY with
event 237, and completes or skips the record in progress. (14_event_recorder.md, Storage (R434); 14_event_recorder.md, Logbook
record (R435, R436); 14_event_recorder.md, Ledger record (R438, R439); 14_event_recorder.md, Writing (R441, R442, R443);
14_event_recorder.md, Energy statements (R445, R446); 14_event_recorder.md, Clearing (R447, R448); 14_event_recorder.md, Reading
(R449); 14_event_recorder.md, Start-up and power loss (R450); 14_event_recorder.md, REC register map (R452)) -/
def Obligations.TheRecorderKeepsItsLogs : Prop :=
  ∀ s : State,
    let q := s.recorder
    let rec1 (t : State) : Prop := t = { s with regs := t.regs, recorder := t.recorder }
    let lost (ledger : Bool) (t : State) : Prop := t.get REC_LOST = satInc (s.get REC_LOST) 32 ∧ (eventLive s 235 = true → t.isPending 235 = true)
      ∧ t.recorder.lostLb = q.lostLb + (if ledger then 0 else 1) ∧ t.recorder.lostLg = q.lostLg + (if ledger then 1 else 0)
    let quiet := q.waiting = [] ∧ q.lostLb = 0 ∧ q.lostLg = 0
    let lg := s.recArea.lg
    let lb := s.recArea.lb
    (∀ (a : Agent) (v : Word),
        let addr := REC_LB_PUT_CODE.addr
        let p (i : Nat) : Nat := look q.stage (4 * idOf a + i) 0
        let e := s.stamped ⟨false, bits v.toNat 16 16, 0x10 + idOf a, bits v.toNat 12 4, p 0, p 1, p 2, [], none⟩ true (isNormal a s)
        (s.gate a addr true = .pass → s.on REC_STAT_CLOSED = false → Does (.recLbPut a v) s (fun t => Keeps [] [] s t
          ∧ t.recorder = (if s.fwQueued < 24 ∧ q.lbQ.length < 32 then { q with lbQ := q.lbQ ++ [e] } else { q with waiting := q.waiting ++ [e] })
          ∧ t = { s with regs := t.regs, recorder := t.recorder, arb := t.arb, resp := ⟨false, 0, false⟩ }))
        ∧ (s.gate a addr true = .world → isNormal a s = true → s.awake = true → Does (.recLbPut a v) s (fun t => t.recorder = q
            ∧ t.get REC_LOST = satInc (s.get REC_LOST) 32 ∧ (eventLive s 235 = true → t.isPending 235 = true))))
    ∧ (∀ (r : RecReq) (l : List RecReq), s.awake = true → q.due = r :: l → s.on REC_STAT_CLOSED = false →
        let e := s.stamped r false false
        (r.ledger = false → q.lbQ.length < 32 → Does .recRecordRequest s (fun t => t.recorder = { q with due := l, lbQ := q.lbQ ++ [e] }
          ∧ Keeps [] [] s t ∧ rec1 t))
        ∧ (r.ledger = true → q.lgQ.length < 8 → Does .recRecordRequest s (fun t => t.recorder = { q with due := l, lgQ := q.lgQ ++ [e] }
          ∧ Keeps [] [] s t ∧ rec1 t))
        ∧ ((if r.ledger then 8 ≤ q.lgQ.length else 32 ≤ q.lbQ.length) → Does .recRecordRequest s (fun t => lost r.ledger t ∧ t.recorder.lbQ = q.lbQ
          ∧ t.recorder.lgQ = q.lgQ ∧ Keeps [REC_LOST] [235] s t ∧ rec1 t)))
    ∧ (Block.recorder.live s = true → s.on REC_STAT_READY = true → s.recArea.busy = none →
      (∀ (e : RecEntry) (l : List RecEntry), quiet →
        let area (t : State) : Prop := t = { s with regs := t.regs, recorder := t.recorder, recArea := t.recArea, mem := t.mem, syn := t.syn }
        (q.lbQ = e :: l → e.req.ledger = false →
          Does (.recRecordWrite false 3) s (fun t => t.logBytes false (lb.next % 32768 * 32) 32 = marked (lbBody lb.next e)
            ∧ t.recArea.lb.next = (lb.next + 1) % 2 ^ 32 ∧ t.recArea.lg = lg ∧ t.recArea.chain = s.recArea.chain ∧ t.recArea.busy = none
            ∧ t.recorder = { q with lbQ := l } ∧ (∀ b, b < 0x10C00000 ∨ 0x10D00000 ≤ b → t.readByte b = s.readByte b) ∧ area t)
          ∧ (∀ n : Fin 3, Does (.recRecordWrite false n.castSucc) s (fun t => t.recArea.busy.isSome = true ∧ t.recArea.lb.next = lb.next)))
        ∧ (q.lgQ = e :: l → e.req.ledger = true → e.req.payload.length < 4096 → lg.nextOff % 16 = 0 → lg.nextOff < 0x200000 →
            let front := lgFront lg.next e
            let link := chainNext s.recArea.chain front
            Does (.recRecordWrite true 3) s (fun t => t.logBytes true lg.nextOff (front.length + 16) = marked (front ++ link.take 14)
              ∧ t.recArea.chain = link ∧ t.recArea.lg.next = (lg.next + 1) % 2 ^ 32 ∧ t.recArea.lb = lb ∧ t.recArea.busy = none
              ∧ t.recorder = { q with lgQ := l } ∧ (∀ b, b < 0x10D00000 ∨ 0x10F00000 ≤ b → t.readByte b = s.readByte b) ∧ area t)))
      ∧ (s.recTurn = true →
        (∀ sig : List Byte, s.on REC_STAT_STMT_BUSY = true → q.lgQ = [] → lg.nextOff % 16 = 0 → Does (.energyStatementSigned sig 3) s (fun t =>
            t.get REC_STAT_STMT_BUSY = 0 ∧ t.get REC_STMT_LAST = lg.next % 2 ^ 32 ∧ t.isPending 232 = true ∧ t.recArea.lg.next = (lg.next + 1) % 2 ^ 32
            ∧ t.recArea.lb = lb ∧ t.keys.run = none ∧ t.recorder = { q with stmt := [] }
            ∧ (∀ b, b < 0x10D00000 ∨ 0x10F00000 ≤ b → t.readByte b = s.readByte b)))
        ∧ (∀ (ok : Bool) (m : List Byte), s.on REC_STAT_CLR_BUSY = true → (s.busRead .keyMgr s.clrAddr 3461).1 = .ok m →
            (s.busRead .keyMgr s.clrAddr 3461).2 = { s with arb := (s.busRead .keyMgr s.clrAddr 3461).2.arb } →
            let ended (res : Nat) (t : State) : Prop := t.get REC_STAT_CLR_BUSY = 0 ∧ t.get REC_CLR_RESULT = res % 256 ∧ t.isPending 233 = true
              ∧ t.keys.run = none
            (∀ n : Fin 4, s.clrCheck m ok ≠ 0 → Does (.recClearVerified ok n) s (fun t => ended (s.clrCheck m ok) t ∧ t.recArea = s.recArea
              ∧ t.mem = s.mem ∧ t.recorder = q))
            ∧ (s.clrCheck m ok = 0 → fieldAt m 0x20 1 = 1 → Does (.recClearVerified ok 3) s (fun t => ended 1 t
                ∧ t.recArea.lb.clr = fieldAt m 8 4 ∧ t.recArea.lb.old = lb.next ∧ t.recArea.lb.next = (lb.next + 1) % 2 ^ 32 ∧ t.recArea.lg = lg
                ∧ (∀ b, b < 0x10C00000 ∨ 0x10D00000 ≤ b → t.readByte b = s.readByte b)))
            ∧ (s.clrCheck m ok = 0 → fieldAt m 0x20 1 = 2 → Does (.recClearVerified ok 3) s (fun t => ended 1 t
                ∧ t.recArea.lg.clr = fieldAt m 8 4 ∧ t.recArea.lg.old = lg.next ∧ t.recArea.lb = lb)))))
    ∧ (let begun (t : State) : Prop := t.get REC_STAT_STMT_BUSY = 1
          ∧ (s.linkUp 4 = true → s.pwr.mdOn = true → t.recorder.stmt.take 8 = leBytes 4 (s.get MD_SESSION) ++ leBytes 4 (s.get MD_SMP_SEQ % 2 ^ 32))
          ∧ (s.linkUp 4 = false ∨ s.pwr.mdOn = false → t.recorder.stmt = leBytes 32 0 ++ leBytes 4 (2 ^ 31) ++ leBytes 12 0
            ∧ (s.on REC_ERR_INFO_VALID = false → t.get REC_ERR_INFO_CAUSE = 4 ∧ (eventLive s 236 = true → t.isPending 236 = true)))
          ∧ t = { s with regs := t.regs, recorder := t.recorder, md := t.md, arb := t.arb, resp := t.resp }
       let free := s.on REC_STAT_STMT_BUSY = false ∧ s.on REC_STAT_CLR_BUSY = false ∧ s.on REC_STAT_CLOSED = false
       (Block.recorder.live s = true → s.get REC_CTL_STMT_PER ≠ 0 → free → Does .energyStatementDue s begun)
       ∧ ∀ a : Agent, (s.gate a REC_CMD_STMT.addr true = .pass → (free → Does (.recStmt a) s begun) ∧ (¬ free → Does (.recStmt a) s (Writes [] [] s)))
        ∧ (s.gate a REC_CMD_CLEAR.addr true = .pass → Does (.recClear a) s (fun t =>
            if s.on REC_STAT_CLR_BUSY = true ∨ s.on REC_STAT_STMT_BUSY = true then t.get REC_CLR_RESULT = 5 ∧ t.isPending 233 = true
              ∧ Writes [REC_CLR_RESULT] [233] s t
            else t.get REC_STAT_CLR_BUSY = 1 ∧ Writes [REC_STAT_CLR_BUSY] [] s t))
        ∧ (s.gate a REC_CMD_SNAP.addr true = .pass → Does (.recSnap a) s (fun t =>
            let x := look t.recorder.snaps (idOf a) ⟨0, 0, 0, 0, 0, 0, 0, 0⟩
            x.lbOld = lb.old ∧ x.lbNew = (lb.next + 2 ^ 32 - 1) % 2 ^ 32 ∧ x.lgOld = lg.old ∧ x.lgNew = (lg.next + 2 ^ 32 - 1) % 2 ^ 32
            ∧ x.lgOff = lg.oldOff ∧ x.lbClr = lb.clr ∧ x.lgClr = lg.clr
            ∧ x.num = ((look q.snaps (idOf a) ⟨0, 0, 0, 0, 0, 0, 0, 0⟩).num + 1) % 2 ^ 16 ∧ Keeps [] [] s t
            ∧ t = { s with regs := t.regs, recorder := t.recorder, arb := t.arb, resp := ⟨false, 0, false⟩ })))
    ∧ (Block.recorder.live s = true → s.on REC_STAT_READY = false → (∀ w, 0x10F00000 / 16 ≤ w → w < 0x10F01000 / 16 → s.synOf w = 0) →
        let ready (t : State) : Prop := t.get REC_STAT_READY = 1 ∧ t.isPending 237 = true
        (s.recArea.busy = none → Does .recStartupRecovery s (fun t => ready t ∧ Changes [REC_STAT_READY] [237] s t))
        ∧ (∀ p : InProg, s.recArea.busy = some p →
            (markOk (s.logBytes p.ledger p.off p.len) = true → Does .recStartupRecovery s (fun t => ready t ∧ t.recArea.busy = none
              ∧ (t.recLog p.ledger).next = (p.seq + 1) % 2 ^ 32
              ∧ (p.clr = none ∨ p.ledger = false → Keeps [REC_STAT_READY] [237] s t ∧ t = { s with regs := t.regs, recArea := t.recArea })
              ∧ (∀ c, p.clr = some c → p.ledger = true → s.on REC_STAT_CLOSED = false → q.lbQ.length < 32 → t.recorder = { q with
                  lbQ := q.lbQ ++ [s.stamped ⟨false, 1, 0, 2, c, (p.seq + 2 ^ 32 - 1) % 2 ^ 32, 0, [], none⟩ false false] })))
            ∧ (markOk (s.logBytes p.ledger p.off p.len) = false → Does .recStartupRecovery s (fun t => ready t ∧ t.recArea.busy = none
                ∧ (t.recLog p.ledger).next = (p.seq + 1) % 2 ^ 32 ∧ (t.recLog p.ledger).old = (s.recLog p.ledger).old
                ∧ t.recArea.chain = s.recArea.chain ∧ t.isPending 234 = true
                ∧ (p.ledger = true → t.get REC_TORN_LG = satInc (s.get REC_TORN_LG) 16) ∧ (p.ledger = false → t.get REC_TORN_LB = satInc (s.get REC_TORN_LB) 16)))))

/-- A command written to a free channel that takes its operation is held with BUSY 1 and OP; to a busy one it gives result 2; an
operation the Normal channel does not take gives 0xE, one that does not exist 6. The free key manager takes first a request of
REC, then an interrupted VERIFY_IMAGE, VFM's, the Secure channel's, a debug token's, the Normal channel's; a running
VERIFY_IMAGE gives way to REC only. A request to seal is given its sealed form under a free IV, one to unseal its blob, or
nothing where the sealer has no key or the module is in RAW. Start-up recovery ends with the register views of the state, and
the alarms of the last sleep are due as records. A monitor that fires counts, is latched for where the module is, makes its
record due and raises its event; in operation it ends the key operation in progress, no UPDATE past its commit point, with
result 0xA; in the boot ROM it holds start-up; in sleep it is latched with its time and the module is in DUSK.
(15_keys_attestation.md, The key register and destinations (R465); 15_keys_attestation.md, Sealed VF state (R476);
15_keys_attestation.md, Tamper monitors (R477, R478, R479); 15_keys_attestation.md, Key update messages (R469);
15_keys_attestation.md, KEY register map (R484)) -/
def Obligations.KeyCommandsRunInTurn : Prop :=
  ∀ s : State,
    let k := s.keys
    let rec0 := s.on REC_STAT_STMT_BUSY = true ∨ s.on REC_STAT_CLR_BUSY = true
    (∀ (a : Agent) (c : Fin 2) (v : Word), s.gate a (KEY_CMD_OP c.val).addr true = .pass →
      let op := bits v.toNat 0 4
      let named : List (Nat × Instr) := [(1, .keyDeliver a c v), (2, .keyUpdate a c v), (3, .keyAttest a c v), (4, .keyExtend a c v),
        (5, .keyVerifyImage a c v), (6, .keyExportPub a c v), (7, .keyRevoke a c v), (8, .keyPersonalise a c v)]
      let idx := bits v.toNat 8 6
      let free1 (o : Nat) : Prop := o = 3 ∨ o = 6 ∨ (o = 4 ∧ 8 ≤ idx ∧ idx < 16)
      let res (r : Nat) (t : State) : Prop := t.get (KEY_RESULT_RESULT c) = r ∧ t.isPending (240 + c) = true
      (∀ p, p ∈ named ++ [(if op ≤ 8 then 0 else op, .keyInvalidOp a c v)] →
        (s.keyBusy c = true → Does p.2 s (fun t => res 2 t ∧ Writes [KEY_RESULT_RESULT c] [240 + c.val] s t))
        ∧ (s.keyBusy c = false → c = 1 → ¬ free1 p.1 → Does p.2 s (fun t => res 0xE t ∧ t.get (KEY_RESULT_OP c) = p.1
            ∧ Writes [KEY_RESULT_RESULT c, KEY_RESULT_OP c] [240 + c.val] s t)))
      ∧ (s.keyBusy c = false → c = 0 → Does (.keyInvalidOp a c v) s (fun t => res 6 t
          ∧ Writes [KEY_RESULT_RESULT c, KEY_RESULT_OP c] [240 + c.val] s t))
      ∧ (∀ p, p ∈ named → s.keyBusy c = false → c = 0 ∨ free1 p.1 → Does p.2 s (fun t => t.get (KEY_RESULT_BUSY c) = 1
          ∧ t.get (KEY_RESULT_OP c) = p.1 ∧ Keeps [KEY_RESULT_BUSY c, KEY_RESULT_OP c] [] s t
          ∧ t.keys = (let cmd : KeyCmd := ⟨p.1, idx, bits v.toNat 16 3, bits v.toNat 24 8⟩
              if c = 0 then { k with wait0 := some cmd } else { k with wait1 := some cmd })
          ∧ t = { s with regs := t.regs, keys := t.keys, arb := t.arb, resp := ⟨false, 0, false⟩ })))
    ∧ (Block.key.live s = true → k.recovered = true →
        (k.run = none → Does .keyOperationStart s (fun t => Keeps [] [] s t ∧ t = { s with regs := t.regs, keys := t.keys }
          ∧ (rec0 → t.keys = { k with run := some .recorder })
          ∧ (¬ rec0 → (∀ c, k.paused = some c → t.keys = { k with run := some (.chan c), paused := none })
            ∧ (k.paused = none → (k.job.isSome = true → t.keys = { k with run := some .vfm })
              ∧ (k.job = none → (∀ m, k.wait0 = some m → t.keys = { k with run := some (.chan 0), runCmd := m, wait0 := none })
                ∧ (k.wait0 = none → (s.dbg.checking = true → t.keys.run = some (.chan 0) ∧ t.keys.wait1 = k.wait1)
                  ∧ (s.dbg.checking = false → (∀ m, k.wait1 = some m → t.keys = { k with run := some (.chan 1), runCmd := m, wait1 := none })
                    ∧ (k.wait1 = none → t.keys = k))))))))
        ∧ (∀ c, k.run = some (.chan c) → Does .keyOperationStart s (fun t => Keeps [] [] s t ∧ t = { s with regs := t.regs, keys := t.keys }
            ∧ (k.runCmd.op = 5 → rec0 → t.keys = { k with run := some .recorder, paused := some c })
            ∧ (k.runCmd.op ≠ 5 ∨ ¬ rec0 → t.keys = k))))
    ∧ (Block.key.live s = true → ∀ j : SealJob, k.run = some .vfm → k.job = some j → j.out = none →
        let gives (o : Option (List Byte)) (t : State) : Prop := t.keys = { k with run := none, job := some { j with out := some o } }
          ∧ Keeps [] [] s t ∧ t = { s with regs := t.regs, keys := t.keys, fresh := t.fresh }
        (j.sealing = true → (k.sealerKey = none ∨ s.lifecycle = 0 → Does .keySeal s (gives none))
          ∧ (∀ key, k.sealerKey = some key → s.lifecycle ≠ 0 → Does .keySeal s (fun t =>
              let iv := (s.drawBytes 12).1
              let out := Config.gcmEnc key iv (sealHead s.moduleId iv) (fitBytes 512 j.data)
              gives (some (sealHead s.moduleId iv ++ fitBytes 512 out.1 ++ fitBytes 16 out.2)) t)))
        ∧ (j.sealing = false → (k.sealerKey = none ∨ s.lifecycle = 0 ∨ s.lifecycle = 4 ∨ s.get KEY_TAMPER_BOOT ≠ 0 → Does .keyUnseal s (gives none))
          ∧ (∀ key, k.sealerKey = some key → s.lifecycle ≠ 0 → s.lifecycle ≠ 4 → s.get KEY_TAMPER_BOOT = 0 → sealFormat j.data = true →
              let p := Config.gcmDec key ((j.data.drop 0x18).take 12) (j.data.take 0x30) ((j.data.drop 0x30).take 512)
              Does .keyUnseal s (gives (if fitBytes 16 p.2 = (j.data.drop 0x230).take 16 then some (fitBytes 512 p.1) else none)))))
    ∧ (Block.key.live s = true → k.recovered = false → Does .keyStartupRecovery s (fun t => t.keys.recovered = true ∧ t.pwr.alarms = []
        ∧ (∀ p, p ∈ s.pwr.alarms → (⟨false, 0x0F10, 2, 0, 2 ^ p.1, 1, p.2, [], none⟩ : RecReq) ∈ t.recorder.due)
        ∧ (s.keyState.lcSeen = s.otp.lcGen → s.keyState.dSeen = s.otp.dFuse → s.pwr.alarms = [] →
            (∀ (n h : Nat) (d : List Byte), n < 64 → h < 2 → s.keyHalf n h = some d → fieldAt d 0 1 ≠ 1) →
            t = { s with regs := t.regs, keys := { k with recovered := true } } ∧ t.get SYS_LC_STATE = s.lifecycle
            ∧ t.get SYS_KEYCNT_COUNT = s.effCounter % 2 ^ SYS_KEYCNT_COUNT.w)))
    ∧ (∀ (m : Fin 5) (n : Nat), s.tamperLive m = true →
        let ev := tamperEvent m
        let counted (t : State) : Prop := t.get KEY_TAMPER_CNT = satInc (s.get KEY_TAMPER_CNT) 32
          ∧ t.bursts = s.bursts - (if m = 3 then 1 else 0)
        let due (p1 : Nat) : RecSt := { s.recorder with due := s.recorder.due ++ [⟨false, 0x0F10, 2, 0, 2 ^ m.val, p1, 0, [], none⟩] }
        (s.pwr.phase.asleep = true → Does (.tamperMonitorFire m n) s (fun t => counted t ∧ bit (t.aonGet KEY_TAMPER_SLEEP) m = true
          ∧ t.pwr = { s.pwr with phase := .dusk, alarms := s.pwr.alarms ++ [(m.val, s.get64 PWR_SLEEP_LO PWR_SLEEP_HI + n)] }
          ∧ t = { s with regs := t.regs, aon := t.aon, pwr := t.pwr, bursts := t.bursts }))
        ∧ (s.pwr.phase.asleep = false → s.pwr.phase.starting = true → Does (.tamperMonitorFire m n) s (fun t => counted t
            ∧ bit (t.get KEY_TAMPER_BOOT) m = true ∧ t.get SYS_IDSTAT_TAMPER_BOOT = 1 ∧ (eventLive s ev = true → t.isPending ev = true)
            ∧ Keeps [KEY_TAMPER_CNT, KEY_TAMPER_BOOT, SYS_IDSTAT_TAMPER_BOOT] [ev] s t
            ∧ t.pwr = { s.pwr with phase := if s.pwr.phase = .bootRom then .hold else s.pwr.phase }
            ∧ t = { s with regs := t.regs, pwr := t.pwr, bursts := t.bursts, recorder := due 0 }))
        ∧ (s.pwr.phase.asleep = false → s.pwr.phase.starting = false →
            (s.keyOperation = false → Does (.tamperMonitorFire m n) s (fun t => counted t ∧ bit (t.get KEY_TAMPER_RUN) m = true
              ∧ (eventLive s ev = true → t.isPending ev = true) ∧ Keeps [KEY_TAMPER_CNT, KEY_TAMPER_RUN] [ev] s t
              ∧ t = { s with regs := t.regs, bursts := t.bursts, recorder := due 3 }))
            ∧ (∀ c : Fin 2, k.run = some (.chan c.val) → k.runCmd.op ∈ [1, 2, 3, 8] → (k.runCmd.op = 2 → s.updCommitted = false) → Does (.tamperMonitorFire m n) s (fun t => counted t
                ∧ bit (t.get KEY_TAMPER_RUN) m = true ∧ t.get (KEY_RESULT_RESULT c) = 0xA ∧ t.get (KEY_RESULT_BUSY c) = 0
                ∧ (eventLive s 242 = true → t.isPending 242 = true) ∧ t.keys = { k with run := none, step := 0, keyReg := none }
                ∧ t = { s with regs := t.regs, bursts := t.bursts, keys := t.keys, recorder := due 2 }))))

/-- A channel's operation, where its reads are clean and, for a delivery or REVOKE, the block of its target runs, ends with BUSY 0,
its event and: DELIVER the slot's key at its destination, or 0xB, 6, 7, 8, 9 where the state (or, by the model's choice of log
entry 169, the hold state), the target, the slot, its destinations or its type forbid it; REVOKE the key gone; EXTEND and
VERIFY_IMAGE the measurement register extended, or the reason; ATTEST and EXPORT_PUB their bytes written, refused in RAW; UPDATE
the reason of the first check that fails with nothing else changed, or the high-water fuses, its ledger record due and result 1,
7 for a tag that differs; a LIFECYCLE message its fuse written and the keys destroyed; PERSONALISE the root, the two hashes and
the fuse P. A crypto descriptor of a function whose turn it is completes: a NOP; SHA and CMAC with their bytes at DST; GCM with
the text and the tag; a tag that differs with zeros, 0x10 and a count; one whose key is not loaded and mapped with 0x11 and no
byte written. (15_keys_attestation.md, Root identity and lifecycle (R457, R458); 15_keys_attestation.md, The key register and
destinations (R461, R462, R464); 15_keys_attestation.md, Key update messages (R466, R468, R470); 15_keys_attestation.md, Boot
images and measurements (R472, R473); 15_keys_attestation.md, Brirum statements (R475); 15_keys_attestation.md, Crypto engine
(R480, R481); 05_application_cluster_virtual_functions.md, Fixed shares (R170)) -/
def Obligations.KeyOperationsAndCryptoHaveTheirEffects : Prop :=
  ∀ s : State,
    (∀ (c : Fin 2) (ok : Bool) (sig : List Byte), Block.key.live s = true → s.keys.run = some (.chan c.val) →
      let m := s.keys.runCmd
      let run (P : State → Prop) : Prop := Does (.keyOperationComplete ok sig 5) s P
      let ended (r : Nat) (t : State) : Prop := t.get (KEY_RESULT_BUSY c) = 0 ∧ t.get (KEY_RESULT_RESULT c) = r
        ∧ t.isPending (240 + c) = true ∧ t.keys.run = none ∧ t.keys.keyReg = none
      let only (r : Nat) (t : State) : Prop := ended r t ∧ Keeps [KEY_RESULT_BUSY c, KEY_RESULT_RESULT c] [240 + c.val] s t
        ∧ t = { s with regs := t.regs, keys := { s.keys with run := none, step := 0, keyReg := none }, arb := t.arb }
      let reads (addr n : Nat) (d : List Byte) : Prop := (s.busRead .keyMgr addr n).1 = .ok d
        ∧ (s.busRead .keyMgr addr n).2 = { s with arb := (s.busRead .keyMgr addr n).2.arb }
      let lc := s.lifecycle
      let alarm := s.get KEY_TAMPER_BOOT ≠ 0
      (m.op = 1 → (lc = 0 ∨ lc = 4 ∨ alarm ∨ s.pwr.phase = .hold → run (only 0xB)) ∧ (lc ≠ 0 → lc ≠ 4 → ¬ alarm → s.pwr.phase ≠ .hold →
        (targetOk m.dest m.target = false → run (only 6))
        ∧ (targetOk m.dest m.target = true → s.holdsKey m.idx = false → run (only 7))
        ∧ (∀ d key, targetOk m.dest m.target = true → s.holdsKey m.idx = true → reads (halfAddr m.idx ((s.activeHalf m.idx).getD 0)) 128 d →
            s.keyArg c = 0 →
            let key0 := key.take (ktypeLen (fieldAt d 1 1))
            (bit (fieldAt d 2 1) m.dest = false → run (only 8))
            ∧ (bit (fieldAt d 2 1) m.dest = true → s.acceptsKey m.dest m.target (fieldAt d 1 1) = false → run (only 9))
            ∧ (bit (fieldAt d 2 1) m.dest = true → s.acceptsKey m.dest m.target (fieldAt d 1 1) = true → s.unwrapHalf d = some key →
                (targetBlock m.dest).live s = true →
                run (fun t => ended 1 t ∧ t.mem = s.mem
                  ∧ (m.dest = 0 → (t.keys.cry.find? (fun p => p.1 == m.target)).map (·.2) = some key0 ∧ bit (t.get CRY_KEYS) m.target = true)
                  ∧ (m.dest = 2 → (t.keys.cgw.find? (fun p => p.1 == m.target)).map (·.2) = some key0 ∧ bit (t.get CGW_STAT_KEYS) m.target = true)
                  ∧ (m.dest = 3 → t.keys.ledgerKey = some key0 ∧ t.get KEY_STAT_HMAC = 1)
                  ∧ (m.dest = 4 → t.keys.sealerKey = some key0 ∧ t.get KEY_STAT_SEALER = 1))))))
      ∧ (m.op = 7 → (lc = 0 → run (only 0xB)) ∧ (lc ≠ 0 → targetOk m.dest m.target = true → (targetBlock m.dest).live s = true →
        run (fun t => ended 1 t ∧ t.mem = s.mem
          ∧ (m.dest = 0 → t.keys.cry.find? (fun p => p.1 == m.target) = none ∧ bit (t.get CRY_KEYS) m.target = false)
          ∧ (m.dest = 1 → ∀ x, look t.eth.sa (16 * (m.target % 8) + saOf m.target) x = x)
          ∧ (m.dest = 2 → t.keys.cgw.find? (fun p => p.1 == m.target) = none ∧ bit (t.get CGW_STAT_KEYS) m.target = false)
          ∧ (m.dest = 3 → t.keys.ledgerKey = none ∧ t.get KEY_STAT_HMAC = 0)
          ∧ (m.dest = 4 → t.keys.sealerKey = none ∧ t.get KEY_STAT_SEALER = 0))))
      ∧ (let extended (by0 : List Byte) (t : State) : Prop := ended 1 t
            ∧ (∀ w, w < 12 → t.get (KEY_MEAS m.idx w) = fieldAt (fitBytes 48 (Config.sha384 (s.measure m.idx ++ by0))) (4 * w) 4)
            ∧ Keeps (KEY_RESULT_BUSY c :: KEY_RESULT_RESULT c :: (List.range 12).map (KEY_MEAS m.idx)) [240 + c.val] s t
            ∧ t = { s with regs := t.regs, keys := t.keys, arb := t.arb }
         let may := if c = 0 then 1 ≤ m.idx ∧ m.idx < 16 else 8 ≤ m.idx ∧ m.idx < 16
         (m.op = 4 → (¬ may → run (only 0xE)) ∧ (∀ d, may → reads (s.keyArg c) 48 d → run (extended d)))
         ∧ (m.op = 5 → (¬ may → run (only 0xE)) ∧ (∀ r h, may →
              let x := s.checkImage (s.keyArg c) (s.keyArg2 c) (s.get (KEY_AUX c) % 256) ok
              x.1 = r → x.2.1 = h → x.2.2 = { s with arb := x.2.2.arb } →
              (r = 1 → run (extended (fitBytes 48 (Config.sha384 h)))) ∧ (r ≠ 1 → r < 256 → run (only r)))))
      ∧ (let writes (out : List Byte) : Prop :=
            let w := s.busWrite .keyMgr (s.keyArg2 c) out
            run (fun t => ended (if w.1.cause = 0 then 1 else 0xC) t ∧ t.mem = w.2.mem ∧ t.syn = w.2.syn ∧ t.otp = s.otp)
         (m.op = 3 → (lc = 0 → run (only 0xB)) ∧ (∀ n, lc ≠ 0 → reads (s.keyArg c) 32 n → writes (s.attestation n (s.get (KEY_AUX c)) sig)))
         ∧ (m.op = 6 → (lc = 0 → run (only 0xB)) ∧ (∀ r, lc ≠ 0 → s.otp.root = some r → writes (exportBytes r))))
      ∧ (∀ h msg, m.op = 2 → s.keys.step = 0 → reads (s.keyArg c) 32 h → reads (s.keyArg c) (min (0x80 + fieldAt h 0xC 2 + 3309) 5120) msg →
          let cnt := fieldAt msg 8 4
          let cmd := fieldAt msg 6 1
          let otp : OtpSt := { s.otp with hwm := max s.otp.hwm (cnt / 32) }
          let entered (four : List Byte) (t : State) : Prop := ended 1 t ∧ t.otp = otp
            ∧ ∃ r, t.recorder = { s.recorder with due := s.recorder.due ++ [r] } ∧ r.ledger = true ∧ r.code = 3
              ∧ r.payload.take 8 = four ++ leBytes 4 cnt
          (s.updCheck msg ok ≠ 1 → run (only (s.updCheck msg ok)))
          ∧ (s.updCheck msg ok = 1 →
            (cmd = 5 → run (entered [5, 0, 0xFF, 0]))
            ∧ (cmd = 1 → (s.decapsulate msg = none → run (fun t => ended 7 t ∧ t.otp = otp ∧ t.mem = s.mem ∧ t.recorder = s.recorder))
              ∧ ((s.decapsulate msg).isSome = true → run (entered ([1, 0] ++ leBytes 1 (fieldAt msg 32 1) ++ leBytes 1 (fieldAt msg 34 1)))))
            ∧ (cmd = 2 → run (entered ([2, 0] ++ leBytes 1 (fieldAt msg 32 1) ++ [0])))
            ∧ (cmd = 3 → Does (.keyOperationComplete ok sig 3) s (fun t =>
                t.otp = (if fieldAt msg 32 1 = 4 then { otp with dFuse := true } else { otp with lcGen := s.otp.lcGen + 1 })
                ∧ t.keys = { s.keys with keyReg := none, ledgerKey := none, sealerKey := none, cry := [], cgw := [], step := 3, msg := msg } ∧ t.eth.sa = []
                ∧ t.get CRY_KEYS = 0 ∧ ∀ b, 0x10FE0000 ≤ b → b < 0x10FE4000 → t.readByte b = 0))))
      ∧ (∀ e l, m.op = 8 → lc = 0 → ¬ alarm → reads (s.keyArg c) 97 e → reads (s.keyArg2 c) 1952 l → s.otp.authEc = none →
          s.otp.authMl = none →
          run (fun t => ended 1 t ∧ t.otp.pFuse = true ∧ t.otp.authEc = some (fitBytes 48 (Config.sha384 e))
            ∧ t.otp.authMl = some (fitBytes 48 (Config.sha384 l)) ∧ t.otp.root.isSome = true ∧ (s.otp.root.isSome = true → t.otp.root = s.otp.root)
            ∧ t.otp.lcGen = s.otp.lcGen ∧ t.otp.hwm = s.otp.hwm ∧ t.get SYS_LC_STATE = t.lifecycle)
          ∧ ∀ n : Fin 5, Does (.keyOperationComplete ok sig n.castSucc) s (fun t => t.otp.pFuse = s.otp.pFuse ∧ t.keys = s.keys)))
    ∧ (∀ (r : Ring) (it : Item), s.awake = true → isCry r = true → s.nextItem r = some it → s.cryWork r = true → s.cryTurn r = true →
        let s1 := (s.cryServe r).startItem r it.idx
        let dst := dbits it.desc 152 40
        let ended (st : Nat) (t : State) : Prop :=
          (t.ring r).items = (s.ring r).items.map (fun y => if y.idx = it.idx then { y with started := true, fin := some (st, 0, 0) } else y)
          ∧ t.keys = { s.keys with round := t.keys.round } ∧ t.keys.round.contains (cryFn r) = true
        let stored (w : BusRes × State) (st : Nat) (t : State) : Prop := ended st t ∧ t.mem = w.2.mem ∧ t.syn = w.2.syn
        (dOp it.desc = 0 → Does (.cryNop r) s (fun t => ended 0 t ∧ Keeps [] [] s t
          ∧ t = { s with regs := t.regs, keys := t.keys, rings := t.rings }))
        ∧ (∀ p ∈ ([(1, .cryGcmEnc r), (2, .cryGcmDec r), (3, .cryCmac r)] : List (Nat × Instr)), dOp it.desc = p.1 →
            s.cryKey r it.desc = none → Does p.2 s (fun t => ended 0x11 t ∧ t.mem = s.mem ∧ t.syn = s.syn))
        ∧ (let reads (addr n : Nat) (d : List Byte) : Prop := (s1.ringRead r addr n).1 = .ok d ∧ (s1.ringRead r addr n).2 = { s1 with arb := (s1.ringRead r addr n).2.arb }
          ∀ d, reads (dbits it.desc 64 40) (dbits it.desc 112 24) d →
            (dOp it.desc = 4 → let w := s1.ringWrite r dst (fitBytes 48 (Config.sha384 d))
              w.1.cause = 0 → Does (.crySha384 r) s (stored w 0))
            ∧ (∀ key, s.cryKey r it.desc = some key →
                (dOp it.desc = 3 → let w := s1.ringWrite r dst (fitBytes 16 (Config.cmac key d))
                  w.1.cause = 0 → Does (.cryCmac r) s (stored w 0))
                ∧ (∀ iv, dOp it.desc = 1 → reads (ivTag it.desc) 16 iv →
                    let n := dbits it.desc 136 16
                    let x := Config.gcmEnc key (iv.take 12) (d.take n) (d.drop n)
                    let w := s1.ringWrite r dst (fitBytes (d.length - n) x.1)
                    let u := (w.2.finish r it.idx 0 0 0).ringWrite r (ivTag it.desc + 16) (fitBytes 16 x.2)
                    w.1.cause = 0 → u.1.cause = 0 → Does (.cryGcmEnc r) s (stored u 0))
                ∧ (∀ iv, dOp it.desc = 2 → reads (ivTag it.desc) 32 iv →
                    let n := dbits it.desc 136 16
                    let x := Config.gcmDec key (iv.take 12) (d.take n) (d.drop n)
                    (fitBytes 16 x.2 = iv.drop 16 → let w := s1.ringWrite r dst (fitBytes (d.length - n) x.1)
                      w.1.cause = 0 → Does (.cryGcmDec r) s (stored w 0))
                    ∧ (fitBytes 16 x.2 ≠ iv.drop 16 → let w := s1.ringWrite r dst (List.replicate (d.length - n) 0)
                      w.1.cause = 0 → Does (.cryGcmDec r) s (fun t => stored w 0x10 t
                        ∧ t.get CRY_AUTHFAIL = satInc (s.get CRY_AUTHFAIL) 32))))))

/-- A command written while another runs reports 3; one its function's state does not allow 2, one that does not exist 9; any other
is BUSY with its result to come. ENABLE gives RUN with empty ring pairs; DISABLE and RESET take a generation step, to OFF and
RUN, with GEN one on, STALE the started items and the ring pairs emptied, or are held while STALE is not 0 (0xA); FREEZE
withdraws the unstarted descriptors; RESUME gives RUN; SAVE writes the blob or asks the sealer; RESTORE loads an accepted blob
into FROZEN. The end of a command writes its result and event 252. A guest's reset acts in RUN, else event 254. A drained freeze
captures, a drain bound forces; stale items count down, and the last lets a held step take effect. A window is enabled where its
range is legal. (05_application_cluster_virtual_functions.md, VF life and generation numbers (R176, R177, R178, R179, R180,
R181, R182); 05_application_cluster_virtual_functions.md, VF state blob (R183, R184, R185);
05_application_cluster_virtual_functions.md, VFM register map) -/
def Obligations.VirtualFunctionsLiveByTheirCommands : Prop :=
  ∀ (s : State) (f : Fin 32),
    let state (t : State) : Nat := t.get (VFM_VF_STATE_STATE f)
    let rings := ringsOf f
    let frame (t : State) : Prop := t = { s with regs := t.regs, arb := t.arb, resp := t.resp, vfm := t.vfm, rings := t.rings, eth := t.eth, can := t.can }
    let stepped (off : Bool) (t : State) : Prop := state t = (if off then 0 else 1)
      ∧ t.get (VFM_VF_STATE_GEN f) = (s.get (VFM_VF_STATE_GEN f) + 1) % 256 ∧ t.get (VFM_VF_STATE_STALE f) = s.vfStarted f % 256
      ∧ t.get (VFM_VF_STATE_RST_HELD f) = 0 ∧ (∀ r, r ∈ rings → t.ring r = ringInit ∧ t.on (RING_CFG_EN r.base) = false)
      ∧ (off = false → bit (t.get (VFP_VF_EVT_PEND f)) 5 = true) ∧ frame t
    let held (t : State) : Prop := t.get (VFM_VF_STATE_RST_HELD f) = 1 ∧ state t = state s ∧ t.rings = s.rings
      ∧ t.get (VFM_VF_STATE_GEN f) = s.get (VFM_VF_STATE_GEN f) ∧ t.get (VFM_VF_STATE_STALE f) = s.get (VFM_VF_STATE_STALE f)
    let withdrawn (all : Bool) (t : State) : Prop := ∀ r, r ∈ rings →
      (t.ring r).items = (s.ring r).items.filter (fun i => !all && i.started)
      ∧ (t.ring r).again = (((s.ring r).items.filter (fun i => all || !i.started)).map (·.idx)).foldr (putPending (s.sqCi r)) (s.ring r).again
    (∀ a : Agent, s.gate a VFM_CMD_OP.addr true = .pass →
      let ops : List (Nat × Instr) := [(1, .vfmEnable a f), (2, .vfmDisable a f), (3, .vfmReset a f), (4, .vfmFreeze a f), (5, .vfmResume a f),
        (6, .vfmSave a f), (7, .vfmRestore a f)]
      let named := [VFM_CMD_STAT_FN, VFM_CMD_STAT_OP]
      let names (op : Nat) (t : State) : Prop := t.get VFM_CMD_STAT_FN = f ∧ t.get VFM_CMD_STAT_OP = op
      let taken (op res : Nat) (t : State) : Prop := names op t ∧ t.get VFM_CMD_STAT_BUSY = 1 ∧ t.vfm.result = res
      let only (op res : Nat) (t : State) : Prop := taken op res t ∧ Keeps (VFM_CMD_STAT_BUSY :: named) [] s t
        ∧ t = { s with regs := t.regs, arb := t.arb, resp := ⟨false, 0, false⟩, vfm := { s.vfm with result := res, fn := f, op := op, blobAt := s.blobAddr } }
      let reads (n : Nat) (d : List Byte) : Prop := (s.busRead .vfm s.blobAddr n).1 = .ok d
        ∧ (s.busRead .vfm s.blobAddr n).2 = { s with arb := (s.busRead .vfm s.blobAddr n).2.arb }
      (∀ p, p ∈ ops → s.on VFM_CMD_STAT_BUSY = true → Does p.2 s (fun t => names p.1 t ∧ t.get VFM_CMD_STAT_RESULT = 3
          ∧ Writes (VFM_CMD_STAT_RESULT :: named) [] s t))
      ∧ (∀ v : Word, let op := bits v.toNat 0 4
          let o := if op ≤ 7 then 0 else op
          (s.on VFM_CMD_STAT_BUSY = true → Does (.vfmInvalidOp a v) s (fun t => t.get VFM_CMD_STAT_RESULT = 3 ∧ t.get VFM_CMD_STAT_OP = o
            ∧ Writes (VFM_CMD_STAT_RESULT :: named) [] s t))
          ∧ (s.on VFM_CMD_STAT_BUSY = false → Does (.vfmInvalidOp a v) s (fun t => t.vfm = { s.vfm with result := 9, fn := bits v.toNat 16 5, op := o, blobAt := s.blobAddr }
            ∧ t.get VFM_CMD_STAT_FN = bits v.toNat 16 5 ∧ t.get VFM_CMD_STAT_OP = o ∧ t.get VFM_CMD_STAT_BUSY = 1
            ∧ Keeps (VFM_CMD_STAT_BUSY :: named) [] s t ∧ t = { s with regs := t.regs, arb := t.arb, resp := ⟨false, 0, false⟩, vfm := t.vfm })))
      ∧ (s.on VFM_CMD_STAT_BUSY = false →
        (∀ p, p ∈ ops → (p.1 = 1 ∨ p.1 = 7) ∧ state s ≠ 0 ∨ p.1 = 3 ∧ state s = 0 ∨ p.1 = 4 ∧ state s ≠ 1 ∨ (p.1 = 5 ∨ p.1 = 6) ∧ state s ≠ 3 →
            Does p.2 s (only p.1 2))
        ∧ (state s = 0 → Does (.vfmEnable a f) s (fun t => taken 1 1 t ∧ state t = 1
            ∧ (∀ r, r ∈ rings → t.ring r = ringInit ∧ t.on (RING_CFG_EN r.base) = false) ∧ frame t))
        ∧ (s.get (VFM_VF_STATE_STALE f) = 0 → Does (.vfmDisable a f) s (fun t => taken 2 1 t ∧ stepped true t)
            ∧ (state s ≠ 0 → Does (.vfmReset a f) s (fun t => taken 3 1 t ∧ stepped false t)))
        ∧ (s.get (VFM_VF_STATE_STALE f) ≠ 0 → Does (.vfmDisable a f) s (fun t => taken 2 0xA t ∧ held t ∧ bit t.vfm.heldOff f = true ∧ frame t)
            ∧ (state s ≠ 0 → Does (.vfmReset a f) s (fun t => taken 3 0xA t ∧ held t ∧ frame t)))
        ∧ (state s = 1 → Does (.vfmFreeze a f) s (fun t => taken 4 1 t ∧ state t = 2 ∧ withdrawn false t ∧ frame t))
        ∧ (state s = 3 →
          Does (.vfmResume a f) s (fun t => taken 5 1 t ∧ state t = 1 ∧ bit t.vfm.forced f = false
            ∧ Keeps (VFM_CMD_STAT_BUSY :: VFM_VF_STATE_STATE f :: named) [] s t ∧ t = { s with regs := t.regs, arb := t.arb, resp := ⟨false, 0, false⟩, vfm := t.vfm })
          ∧ (s.blobPlace (if s.on VFM_SEAL then 576 else 512) = false → Does (.vfmSave a f) s (only 6 8))
          ∧ (s.blobPlace 576 = true → s.on VFM_SEAL = true → Does (.vfmSave a f) s (fun t => taken 6 1 t
              ∧ t.keys = { s.keys with job := some ⟨true, s.blob f, none⟩ } ∧ t.mem = s.mem ∧ Keeps (VFM_CMD_STAT_BUSY :: named) [] s t))
          ∧ (s.blobPlace 512 = true → s.on VFM_SEAL = false → Does (.vfmSave a f) s (fun t =>
              let w := s.busWrite .vfm s.blobAddr (s.blob f)
              taken 6 (if w.1.cause = 0 then 1 else 8) t ∧ t.mem = w.2.mem ∧ t.syn = w.2.syn ∧ state t = 3)))
        ∧ (state s = 0 →
          (s.blobPlace (if s.on VFM_SEAL then 576 else 512) = false → Does (.vfmRestore a f) s (only 7 8))
          ∧ (∀ d, s.blobPlace 576 = true → s.on VFM_SEAL = true → reads 576 d → Does (.vfmRestore a f) s (fun t =>
              taken 7 1 t ∧ t.keys = { s.keys with job := some ⟨false, d, none⟩ } ∧ state t = 0 ∧ Keeps (VFM_CMD_STAT_BUSY :: named) [] s t))
          ∧ (∀ d, s.blobPlace 512 = true → s.on VFM_SEAL = false → reads 512 d →
              (s.blobCheck f d ≠ 1 → Does (.vfmRestore a f) s (only 7 (s.blobCheck f d)))
              ∧ (s.blobCheck f d = 1 → Does (.vfmRestore a f) s (fun t => taken 7 1 t ∧ state t = 3
                ∧ t.get (VFM_VF_STATE_GEN f) = fieldAt d 0xB 1 ∧ t.get (VFP_VF_EVT_EN f) = fieldAt d 0x1C0 1
                ∧ (∀ r, r ∈ rings → (t.ring r).tail = fieldAt d (0x40 + 0x40 * r.num + 0x1C) 2 ∧ (t.ring r).items = []
                  ∧ (t.ring r).again = blobAgain d r.num (fieldAt d (0x40 + 0x40 * r.num + 0x1E) 2) (fieldAt d (0x40 + 0x40 * r.num + 0x18) 1))
                ∧ frame t))))))
    ∧ (Block.vfm.live s = true → s.on VFM_CMD_STAT_BUSY = true → s.vfm.later = [] →
        let stat := [VFM_CMD_STAT_RESULT, VFM_CMD_STAT_BUSY, VFM_CMD_STAT_FN, VFM_CMD_STAT_OP]
        let ended (res : Nat) (t : State) : Prop := t.get VFM_CMD_STAT_RESULT = res % 256 ∧ t.get VFM_CMD_STAT_BUSY = 0 ∧ t.isPending 252 = true
          ∧ t.get VFM_CMD_STAT_FN = s.vfm.fn % 32 ∧ t.get VFM_CMD_STAT_OP = s.vfm.op % 16
        (s.keys.job = none → Does .vfmCommandComplete s (fun t => ended s.vfm.result t ∧ Changes stat [252] s t))
        ∧ (∀ j, s.keys.job = some j → (j.out = none → Does .vfmCommandComplete s (Changes [] [] s))
            ∧ (j.out = some none → Does .vfmCommandComplete s (fun t => ended 6 t ∧ t.keys = { s.keys with job := none }
              ∧ Keeps stat [252] s t))
            ∧ (∀ d, j.out = some (some d) → j.sealing = true → Does .vfmCommandComplete s (fun t =>
                let w := s.busWrite .vfm s.vfm.blobAt d
                ended (if w.1.cause = 0 then 1 else 8) t ∧ t.keys = { s.keys with job := none } ∧ t.mem = w.2.mem ∧ t.syn = w.2.syn))))
    ∧ (∀ a : Agent, s.gate a (VFP_VF_CTL f).addr true = .pass →
        (state s = 1 → s.get (VFM_VF_STATE_STALE f) = 0 → Does (.vfCtlReset a f) s (stepped false))
        ∧ (state s = 1 → s.get (VFM_VF_STATE_STALE f) ≠ 0 → Does (.vfCtlReset a f) s (fun t => held t ∧ frame t))
        ∧ (state s ≠ 1 → Does (.vfCtlReset a f) s (fun t => (eventLive s 254 = true → t.isPending 254 = true) ∧ Writes [] [254] s t)))
    ∧ (∀ (a : Agent) (v : Word), s.gate a (VFP_VF_FWD_ACK f).addr true = .pass →
        let e := v.toNat % 256
        (s.forwardedVf e = some f.val → Does (.vfFwdAck a f v) s (fun t => Answered s t ∧ (e ∉ levelEvents → e ≠ 254 → t.isPending e = false)
          ∧ (∀ g, pendFld g = false → t.get g = s.get g) ∧ ∀ x, x < 256 → x ≠ e → s.isPending x = true → t.isPending x = true))
        ∧ (s.forwardedVf e ≠ some f.val → Does (.vfFwdAck a f v) s (fun t => (eventLive s 254 = true → t.isPending 254 = true) ∧ Writes [] [254] s t)))
    ∧ (Block.vfm.live s = true →
        (state s = 2 → s.vfStarted f = 0 → Does (.vfFreezeDrained f) s (fun t => state t = 3 ∧ t.isPending 252 = true
          ∧ t.vfm = { s.vfm with frozen := ins s.vfm.frozen f (s.zone, s.epoch) } ∧ Keeps [VFM_VF_STATE_STATE f] [252] s t
          ∧ t = { s with regs := t.regs, vfm := t.vfm }))
        ∧ (let forced (t : State) : Prop := t.get VFM_FORCED = satInc (s.get VFM_FORCED) 32 ∧ t.isPending 255 = true ∧ frame t
           (state s = 2 → s.vfStarted f ≠ 0 → s.get (VFM_VF_STATE_STALE f) = 0 → Does (.vfDrainBoundExpiry f) s (fun t => forced t ∧ state t = 3
              ∧ withdrawn true t ∧ bit t.vfm.forced f = true ∧ t.isPending 252 = true))
           ∧ (s.get (VFM_VF_STATE_STALE f) ≠ 0 → s.on (VFM_VF_STATE_RST_HELD f) = false → Does (.vfDrainBoundExpiry f) s (fun t =>
              forced t ∧ t.get (VFM_VF_STATE_STALE f) = 0 ∧ state t = state s ∧ t.rings = s.rings)))
        ∧ (let n := s.get (VFM_VF_STATE_STALE f)
           let counted (t : State) : Prop := t.get (VFM_VF_DROP_STALE_DROP f) = satInc (s.get (VFM_VF_DROP_STALE_DROP f)) 16
             ∧ t.get64 VFM_STALE_DROP_LO VFM_STALE_DROP_HI = satInc (s.get64 VFM_STALE_DROP_LO VFM_STALE_DROP_HI) 64 ∧ t.isPending 253 = true
           n ≠ 0 → (n ≠ 1 ∨ s.on (VFM_VF_STATE_RST_HELD f) = false → Does (.staleItemEnd f) s (fun t => counted t
                ∧ t.get (VFM_VF_STATE_STALE f) = (n - 1) % 256
                ∧ Changes [VFM_VF_STATE_STALE f, VFM_VF_DROP_STALE_DROP f, VFM_STALE_DROP_LO, VFM_STALE_DROP_HI] [253] s t))
             ∧ (n = 1 → s.on (VFM_VF_STATE_RST_HELD f) = true → Does (.staleItemEnd f) s (fun t => counted t
                ∧ stepped (bit s.vfm.heldOff f) t ∧ t.isPending 252 = true))))
    ∧ (∀ (a : Agent) (w : Fin 4) (v : Word), s.gate a (VFM_WIN_CTL_EN f w).addr true = .pass →
        let size := bits v.toNat 0 12
        let fields := [VFM_WIN_CTL_SIZE f w, VFM_WIN_CTL_EN f w]
        let legal := hostRangeOk (s.get (VFM_WIN_HBASE f w)) size = true
        Does (.vfmWindowEnable a f w v) s (fun t => t.get (VFM_WIN_CTL_SIZE f w) = size
          ∧ (t.get (VFM_WIN_CTL_EN f w) = 1 ↔ bit v.toNat 31 = true ∧ legal)
          ∧ (bit v.toNat 31 = false ∨ legal → Writes fields [] s t)
          ∧ (bit v.toNat 31 = true → ¬ legal → s.on VFM_ERR_INFO_VALID = false → t.get VFM_ERR_INFO_CAUSE = 4 ∧ t.get VFM_ERR_INFO_FN = f)))

/-- WLD_HO reports 2 while busy, 3 for a block that cannot be handed over, 4 for the world it has, 5 for a VFM in use, each with
event 248; else the block's hand-over is in progress. The end of its drain resets the block and opens its gate; its completion
gives the block and the events that follow it the new world, these disabled, and reports 1, or 6 where the drain was forced.
WLD_APPW moves only the bits of cores in reset, captures where others were asked to move, and does nothing once locked.
DBG_GRANT takes its bits, without bit 3 in FIELD and DECOMMISSIONED; LOCK and the last minute end grant and token; a change of
the reaches raises event 250. CHALLENGE draws a nonce; TBUF_DATA fills the buffer; SUBMIT asks for the check, whose end voids
the challenge and grants and records a token that passes. SYSRST acts under Secure STEER only, and leaves the DBG page.
(16_worlds_debug.md, The world of a transaction (R487); 16_worlds_debug.md, Hand-over (R491); 16_worlds_debug.md, Debug (R495,
R496, R500); 16_worlds_debug.md, Unlock token (R501, R503); 16_worlds_debug.md, WLD register map; 16_worlds_debug.md, DBG
register map) -/
def Obligations.WorldsChangeHandsAndDebugIsGranted : Prop :=
  ∀ s : State,
    (∀ (a : Agent) (v : Word), s.gate a WLD_HO_WORLD.addr true = .pass →
      let b := bits v.toNat 0 5
      let w := bits v.toNat 8 1
      let busy := s.on WLD_HO_STAT_BUSY = true ∨ s.on PWR_STAT_BUSY = true
      let quiet := ∀ f, f < 32 → s.get (VFM_VF_STATE_STATE f) = 0 ∧ s.get (VFM_VF_STATE_STALE f) = 0
      let refused (r : Nat) : Prop := Does (.wldHandover a v) s (fun t => t.get WLD_HO_STAT_RESULT = r ∧ t.get WLD_HO_STAT_BLOCK = b
        ∧ t.isPending 248 = true ∧ Writes [WLD_HO_STAT_RESULT, WLD_HO_STAT_BLOCK] [248] s t)
      (busy → refused 2) ∧ (¬ busy → handable b = false → refused 3)
      ∧ (¬ busy → handable b = true → bits (s.get WLD_OWN) b 1 = w → refused 4)
      ∧ (¬ busy → handable b = true → bits (s.get WLD_OWN) b 1 ≠ w →
          (b = 23 → ¬ quiet → refused 5)
          ∧ (b ≠ 23 ∨ quiet → Does (.wldHandover a v) s (fun t => t.get WLD_HO_STAT_BUSY = 1 ∧ t.get WLD_HO_STAT_BLOCK = b
              ∧ Keeps [WLD_HO_STAT_BUSY, WLD_HO_STAT_BLOCK] [] s t ∧ t = { s with
                regs := t.regs, arb := t.arb, resp := ⟨false, 0, false⟩
                dbg := { s.dbg with handOver := some ⟨b, if w = 1 then .secure else .normal, none⟩ } }))))
    ∧ (∀ (b : Nat) (w : World) (forced : Bool), s.awake = true → handable b = true →
        (∀ blk, s.dbg.handOver = some ⟨b, w, none⟩ → blockOfBit b = some blk → blk ≠ .sns → Does (.handoverDrainEnd forced) s (fun t =>
            t.dbg = { s.dbg with handOver := some ⟨b, w, some forced⟩ } ∧ bit (t.get CLK_BLK_GATE) b = false
            ∧ (∀ g : Fld, blk.base * 32 ≤ g.key → g.key < (blk.base + blk.size) * 32 → t.get g = g.reset) ∧ t.otp = s.otp))
        ∧ (s.dbg.handOver = some ⟨b, w, some forced⟩ → Does .handoverComplete s (fun t =>
            bit (t.get WLD_OWN) b = decide (w = .secure) ∧ (∀ i, i < 24 → i ≠ b → bit (t.get WLD_OWN) i = bit (s.get WLD_OWN) i)
            ∧ t.get WLD_HO_STAT_BUSY = 0 ∧ t.get WLD_HO_STAT_RESULT = (if forced then 6 else 1) ∧ t.isPending 248 = true
            ∧ (∀ e, e ∈ followers b → t.get (EVC_CFG_WORLD e) = (if w = .secure then 1 else 0) ∧ t.isEnabled e = false
              ∧ t.get (EVC_CFG_PRIO e) = (EVC_CFG_PRIO e).reset ∧ (e ∉ levelEvents → e ≠ 254 → t.isPending e = false))
            ∧ t = { s with regs := t.regs, dbg := { s.dbg with handOver := none } })))
    ∧ (∀ (a : Agent) (v : Word), s.gate a WLD_APPW.addr true = .pass →
        (s.on WLD_LOCK = true → Does (.wldAppwWrite a v) s (Writes [] [] s))
        ∧ (s.on WLD_LOCK = false → s.get WLD_APPW < 16 →
            let held (n : Nat) : Prop := bit (s.get RST_APP) n = false ∧ bit v.toNat n ≠ bit (s.get WLD_APPW) n
            Does (.wldAppwWrite a v) s (fun t => Answered s t
              ∧ (∀ n, n < 4 → bit (t.get WLD_APPW) n = if bit (s.get RST_APP) n then bit v.toNat n else bit (s.get WLD_APPW) n)
              ∧ (decide (t.get WLD_APPW = 0) ≠ decide (s.get WLD_APPW = 0) →
                  t.get (EVC_CFG_WORLD 3) = (if t.get WLD_APPW = 0 then 0 else 1) ∧ t.isEnabled 3 = false)
              ∧ ((∀ n, n < 4 → ¬ held n) → t.get WLD_VIOL_CNT = s.get WLD_VIOL_CNT)
              ∧ ((∃ n, n < 4 ∧ held n) → t.get WLD_VIOL_CNT = satInc (s.get WLD_VIOL_CNT) 32 ∧ t.isPending 249 = true
                ∧ (s.on WLD_VIOL_INFO_VALID = false → t.get WLD_VIOL_INFO_CAUSE = 6 ∧ t.get WLD_VIOL_INFO_ID = idOf a)))))
    ∧ (let moved (t : State) : Prop := t.reaches ≠ s.reaches → t.isPending 250 = true
       let ended (t : State) : Prop := t.get DBG_STAT_TOKEN = 0 ∧ t.get DBG_STAT_LEFT = 0 ∧ moved t
       let dbgOnly (t : State) : Prop := t = { s with regs := t.regs, arb := t.arb, resp := ⟨false, 0, false⟩, dbg := t.dbg, fresh := t.fresh }
       (∀ a : Agent,
        (∀ v : Word, s.gate a DBG_GRANT.addr true = .pass → Does (.dbgGrantWrite a v) s (fun t => moved t ∧ Writes [DBG_GRANT] [250] s t
            ∧ t.get DBG_GRANT = if s.lifecycle = 2 ∨ s.lifecycle = 4 then bits v.toNat 0 3 else bits v.toNat 0 4))
        ∧ (s.gate a DBG_CMD_LOCK.addr true = .pass → Does (.dbgLock a) s (fun t => t.get DBG_GRANT = 0 ∧ ended t
            ∧ Writes [DBG_GRANT, DBG_STAT_TOKEN, DBG_STAT_LEFT] [250] s t))
        ∧ (s.gate a DBG_CMD_CHALLENGE.addr true = .pass → Does (.dbgChallenge a) s (fun t => t.get DBG_CHAL = (s.get DBG_CHAL + 1) % 2 ^ 32
            ∧ t.dbg = { s.dbg with challenge := true } ∧ Keeps (DBG_CHAL :: (List.range 4).map DBG_NONCE) [] s t ∧ dbgOnly t))
        ∧ (s.gate a DBG_CMD_SUBMIT.addr true = .pass → Does (.dbgSubmit a) s (fun t => t.dbg = { s.dbg with checking := true }
            ∧ Keeps [] [] s t ∧ dbgOnly t))
        ∧ (∀ v : Word, s.gate a DBG_TBUF_DATA.addr true = .pass → Does (.dbgTbufWrite a v) s (fun t =>
            look t.dbg.tbuf (s.get DBG_TBUF_IDX) 0 = v.toNat ∧ (∀ i, i ≠ s.get DBG_TBUF_IDX → look t.dbg.tbuf i 0 = look s.dbg.tbuf i 0)
            ∧ t.get DBG_TBUF_IDX = (s.get DBG_TBUF_IDX + 1) % 1024 ∧ t.dbg = { s.dbg with tbuf := t.dbg.tbuf }
            ∧ Keeps [DBG_TBUF_IDX] [] s t ∧ dbgOnly t))
        ∧ (s.gate a DBG_CMD_SYSRST.addr true = .pass →
            (s.steer .secure = false → Does (.debugReset a) s (Writes [] [] s))
            ∧ (s.steer .secure = true → s.pwr.phase ≠ .hold → Does (.debugReset a) s (fun t => t.pwr.phase = .clocking ∧ t.get RST_CAUSE_DBG = 1
              ∧ (∀ g : Fld, 0x40100000 * 32 ≤ g.key → g.key < 0x40101000 * 32 → t.get g = s.get g)
              ∧ t.dbg.tbuf = s.dbg.tbuf ∧ t.dbg.challenge = s.dbg.challenge ∧ t.mem = s.mem ∧ t.otp = s.otp))))
       ∧ (s.awake = true →
          Does .dbgChallengeExpiry s (fun t => t.dbg = { s.dbg with challenge := false } ∧ Keeps [] [] s t ∧ t = { s with regs := t.regs, dbg := t.dbg })
          ∧ (s.get DBG_STAT_LEFT = 0 → Does .dbgTokenMinute s (Changes [] [] s))
          ∧ (s.get DBG_STAT_LEFT = 1 → Does .dbgTokenMinute s (fun t => ended t ∧ Changes [DBG_STAT_TOKEN, DBG_STAT_LEFT] [250] s t))
          ∧ (1 < s.get DBG_STAT_LEFT → Does .dbgTokenMinute s (fun t => t.get DBG_STAT_LEFT = (s.get DBG_STAT_LEFT - 1) % 2 ^ 16
              ∧ Changes [DBG_STAT_LEFT] [] s t)))
       ∧ (∀ ok : Bool, Block.key.live s = true → s.dbg.checking = true → s.keys.run = some (.chan 0) → s.keys.runCmd.op = 15 →
          let m := s.token
          let r := s.tokenCheck m ok
          Does (.dbgTokenResult ok) s (fun t => t.get DBG_TOK_RESULT = r ∧ t.isPending 250 = true
            ∧ t.dbg = { s.dbg with checking := false, challenge := false } ∧ t.keys = { s.keys with run := none, step := 0 }
            ∧ (s.dbg.challenge = false → r ≠ 1)
            ∧ (r = 1 → t.get DBG_STAT_TOKEN = fieldAt m 32 1 ∧ t.get DBG_STAT_LEFT = fieldAt m 34 2
              ∧ t.recorder = { s.recorder with
                due := s.recorder.due ++ [⟨false, 0x0F20, 2, 0, fieldAt m 32 1, fieldAt m 34 2, s.get DBG_CHAL, [], none⟩] })
            ∧ (r ≠ 1 → t.recorder = s.recorder ∧ Keeps [DBG_TOK_RESULT] [250] s t)
            ∧ t = { s with regs := t.regs, dbg := t.dbg, keys := t.keys, recorder := t.recorder })))

/-- With no debug access outstanding, one whose reach is active is BUSY with what the registers name, one that none allows reports
3. Its end gives the word read from clean memory and 1, or 2 with DATA kept where the access fails; a write goes to memory. With
the groups quiet and the fabric running: a hart with STEER that is available halts on request, resumes with an acknowledgment,
and keeps HALTED over a step, with the registers the step writes; a VOTED group halts and resumes at its commit, and a step of
it commits; others leave command error 4. A write reaches a register of a halted hart that can be written, a read gives the
register's value, or what the model derives for it, in data0 and data1; mip of a core shows its timer and its line; x0 reads
zero, mhartid the hart's number. Once they answer (the model's reading of R540), the TAP gives IDCODE, delays a bit in BYPASS,
and loads the boundary register; the UART answers a wrong CRC with 1, a request it does not know with 2, a closed register with
zero, and writes the token buffer. (16_worlds_debug.md, Debug (R495, R497, R498, R499); 16_worlds_debug.md, Service port (R504,
R505); 16_worlds_debug.md, DBG register map) -/
def Obligations.DebuggersReachHartsAndMemory : Prop :=
  ∀ s : State,
    (∀ (a : Agent) (wr : Bool), s.gate a DBG_ACC_CMD_READ.addr true = .pass →
      let w : World := if s.on DBG_ACC_ADDR_HI_WORLD then .secure else .normal
      let cmd : Instr := if wr then .dbgAccWrite a else .dbgAccRead a
      (s.dbg.acc.isSome = true → Does cmd s (Writes [] [] s))
      ∧ (s.dbg.acc = none → (if wr then s.steer w else s.watch w) = false → Does cmd s (fun t => t.get DBG_ACC_STAT_RESULT = 3
          ∧ Writes [DBG_ACC_STAT_RESULT] [] s t))
      ∧ (s.dbg.acc = none → (if wr then s.steer w else s.watch w) = true → Does cmd s (fun t => t.get DBG_ACC_STAT_BUSY = 1
          ∧ t.dbg = { s.dbg with
            acc := some ⟨wr, w, 4 * s.get DBG_ACC_ADDR_LO + 2 ^ 32 * s.get DBG_ACC_ADDR_HI_ADDR, s.get DBG_ACC_DATA, none⟩ }
          ∧ Keeps [DBG_ACC_STAT_BUSY] [] s t ∧ t = { s with regs := t.regs, arb := t.arb, resp := ⟨false, 0, false⟩, dbg := t.dbg })))
    ∧ (∀ x : DbgAcc, s.awake = true → s.fabStalls = false → s.dbg.acc = some x → x.wait = none → inT0to6 x.addr 4 = true →
        let ended (r : Nat) (t : State) : Prop := t.get DBG_ACC_STAT_BUSY = 0 ∧ t.get DBG_ACC_STAT_RESULT = r ∧ t.dbg = { s.dbg with acc := none }
        (x.write = false → let r := s.busRead (.dbg x.world) x.addr 4
          (∀ d, r.1 = .ok d → Does .dbgAccComplete s (fun t => ended 1 t ∧ t.get DBG_ACC_DATA = leNat d % 2 ^ 32 ∧ t.mem = s.mem))
          ∧ ((∀ d, r.1 ≠ .ok d) → Does .dbgAccComplete s (fun t => ended 2 t ∧ t.get DBG_ACC_DATA = s.get DBG_ACC_DATA ∧ t.mem = s.mem)))
        ∧ (x.write = true → s.lanesQuiet = true →
            let w := s.busWrite (.dbg x.world) x.addr (leBytes 4 x.data)
            Does .dbgAccComplete s (fun t => ended (if w.1 = .ok [] then 1 else 2) t ∧ t.mem = w.2.mem ∧ t.syn = w.2.syn)))
    ∧ (∀ (h : Fin 12) (wr : List (Nat × Nat)), s.awake = true → s.fabStalls = false → s.lanesQuiet = true →
        let g := h.val / 4
        let mine := s.hartAvail h = true ∧ s.steer (s.hartWorld h) = true
        let voted := h.val < 8 ∧ s.isSplit g = false
        let halted := bit s.haltedHarts h = true
        let ack (t : State) : Prop := bit (look t.dbg.dm 0x80 0) h = true
        let ran := if h.val < 8 then (s.hartWrites h wr).laneTick h 1 true else s.hartWrites h wr
        (¬ mine → ∀ c ∈ ([.dmHaltRequest h, .dmResume h, .dmStep ⟨h, wr⟩] : List Instr), Does c s (fun t => t.haltedHarts = s.haltedHarts
            ∧ (look s.dbg.dm 0x16 0 = 0 → look t.dbg.dm 0x16 0 = 4) ∧ Keeps [] [] s t ∧ t = { s with regs := t.regs, dbg := t.dbg }))
        ∧ (mine → ¬ voted →
            Does (.dmHaltRequest h) s (fun t => bit t.haltedHarts h = true ∧ (∀ i, i ≠ h.val → bit t.haltedHarts i = bit s.haltedHarts i)
              ∧ Keeps [] [] s t ∧ t = { s with regs := t.regs, haltedHarts := t.haltedHarts })
            ∧ (halted → Does (.dmResume h) s (fun t => bit t.haltedHarts h = false ∧ (∀ i, i ≠ h.val → bit t.haltedHarts i = bit s.haltedHarts i)
                ∧ ack t ∧ (h.val < 8 → t.harts = s.harts) ∧ (8 ≤ h.val → (t.hart h).lost = true) ∧ (∀ i, i ≠ h.val → t.hart i = s.hart i)
                ∧ Keeps [] [] s t ∧ t = { s with regs := t.regs, haltedHarts := t.haltedHarts, harts := t.harts, dbg := t.dbg })
              ∧ Does (.dmStep ⟨h, wr⟩) s (fun t => ack t ∧ t.harts = ran.harts ∧ Keeps [] [] s t
                ∧ t = { s with regs := t.regs, harts := t.harts, dbg := t.dbg })))
        ∧ (∀ k : Fin 2, mine → voted → h.val = 4 * k.val → (s.grp k).relq = [] → s.group k = 0 →
            (s.canCommit k = true → Does (.dmHaltRequest h) s (fun t => bit t.haltedHarts h = true ∧ bit t.dbg.asks k = false
                ∧ (t.grp k).undo = (s.grp k).tail ∧ t.mem = s.mem))
            ∧ (s.canCommit k = false → Does (.dmHaltRequest h) s (fun t => bit t.dbg.asks k = true ∧ t.haltedHarts = s.haltedHarts))
            ∧ (halted → Does (.dmResume h) s (fun t => bit t.haltedHarts h = false ∧ bit t.dbg.asks (2 + k) = false ∧ ack t ∧ t.mem = s.mem))
            ∧ (halted → s.groupLive k = true → Does (.dmStep ⟨h, wr⟩) s (fun t => t.haltedHarts = s.haltedHarts ∧ ack t ∧ t.harts = ran.harts
                ∧ (t.grp k).undo = (s.grp k).tail ∧ t.mem = s.mem))))
    ∧ (∀ (h : Fin 12) (n : Fin 65536) (v : Nat), s.awake = true → look s.dbg.dm 0x16 0 = 0 → s.hartAvail h = true →
        (n.val < 0x1000 ∧ csrExists h n = true) ∨ (0x1000 ≤ n.val ∧ n.val < 0x1040) →
        (csrReadOnly n = true → Does (.dmAccessRegister h true n v) s (fun t => look t.dbg.dm 0x16 0 = 3 ∧ t.harts = s.harts))
        ∧ (csrReadOnly n = false → s.steer (s.hartWorld h) = true → bit s.haltedHarts h = true → n.val ≠ 0x1000 → ¬(h.val < 8 ∧ n.val = 0x7C1) →
          Does (.dmAccessRegister h true n v) s (fun t => t.hartReg h n = v &&& writable h n ∧ (∀ i, i ≠ n.val → t.hartReg h i = s.hartReg h i) ∧ look t.dbg.dm 0x16 0 = 0 ∧ Keeps [] [] s t
            ∧ t = { s with regs := t.regs, harts := t.harts, dbg := t.dbg }))
        ∧ (csrReadOnly n = false → s.steer (s.hartWorld h) = false ∨ bit s.haltedHarts h = false → Does (.dmAccessRegister h true n v) s (fun t =>
            look t.dbg.dm 0x16 0 = 4 ∧ t.harts = s.harts))
        ∧ (let shows (x : Nat) (t : State) : Prop := look t.dbg.dm 4 0 = x % 2 ^ 32 ∧ (8 ≤ h.val → look t.dbg.dm 5 0 = x / 2 ^ 32 % 2 ^ 32)
           (n.val = 0x1000 → Does (.dmAccessRegister h false n v) s (fun t => shows 0 t ∧ t.harts = s.harts))
           ∧ (n.val = 0xF14 → Does (.dmAccessRegister h false n v) s (fun t => shows h t ∧ t.harts = s.harts))
           ∧ (∀ x, s.hartDerived h n = some x → Does (.dmAccessRegister h false n v) s (shows x))
           ∧ (s.hartDerived h n = none → (s.hart h).lost = false → Does (.dmAccessRegister h false n v) s (fun t =>
              shows (s.hartReg h (counterOf n)) t ∧ t.harts = s.harts))
           ∧ (s.hartDerived h n = none → n.val ≠ 0x344 → bit s.haltedHarts h = true → Does (.dmAccessRegister h false n v) s (fun t =>
              shows (t.hartReg h (counterOf n)) t))
           ∧ (8 ≤ h.val → n.val = 0x344 → Does (.dmAccessRegister h false n v) s (fun t =>
              bit (look t.dbg.dm 4 0) 5 = (s.hart h).fired ∧ bit (look t.dbg.dm 4 0) 6 = (s.hart h).vfired
              ∧ bit (look t.dbg.dm 4 0) 11 = (s.irqLine (2 + (h.val - 8)) && !bit (s.get VFM_APP_EXT) (h.val - 8))))))
    ∧ (s.portAnswers = true →
        (∀ dr, Does (.tapInstruction 1 dr) s (fun t => t.dbg = { s.dbg with ir := 1, tdo := 0xA72400A3 } ∧ Keeps [] [] s t
          ∧ t = { s with regs := t.regs, dbg := t.dbg }))
        ∧ (∀ (ir : Fin 32) (dr : Nat), ir.val ∉ [0, 1, 2, 0x10] ∨ ir = 0 ∧ s.lifecycle ≠ 0 ∧ s.lifecycle ≠ 3 → Does (.tapInstruction ir dr) s (fun t =>
            t.dbg = { s.dbg with ir := 0x1F, tdo := 2 * dr } ∧ Keeps [] [] s t ∧ t = { s with regs := t.regs, dbg := t.dbg }))
        ∧ (∀ dr, Does (.tapInstruction 2 dr) s (fun t => t.dbg.ir = 2 ∧ t.dbg.bsr = dr % 2 ^ 78 ∧ t.dbg.tdo < 2 ^ 78 ∧ Keeps [] [] s t
            ∧ t = { s with regs := t.regs, dbg := t.dbg, fresh := t.fresh }))
        ∧ (∀ dr, s.reaches = 0 → bit dr 42 = false → openRead (4 * bits dr 32 10) = false → Does (.tapInstruction 0x10 dr) s (fun t =>
            t.dbg.tapRead = 0 ∧ t.dbg.tdo % 2 ^ 32 = s.dbg.tapRead % 2 ^ 32 ∧ Keeps [] [] s t
            ∧ t = { s with regs := t.regs, dbg := t.dbg, fresh := t.fresh }))
        ∧ (∀ req : List Byte, req.length = 9 → fieldAt req 0 1 = 0xA5 →
            let crcOk := crc8 0 ((req.drop 1).take 7) = fieldAt req 8 1
            let op := fieldAt req 1 1
            let off := fieldAt req 2 2
            let known := off < 0x1000 ∧ off % 4 = 0 ∧ (op = 1 ∨ op = 2)
            let shows (l : List Byte) : Prop := Does (.uartRequest req) s (fun t => t.dbg = { s.dbg with uart := l } ∧ Keeps [] [] s t
              ∧ t = { s with regs := t.regs, dbg := t.dbg })
            (¬ crcOk → shows (uartAnswer 1 0)) ∧ (crcOk → ¬ known → shows (uartAnswer 2 0))
            ∧ (crcOk → known → op = 1 → s.reaches = 0 → openRead off = false → shows (uartAnswer 0 0))
            ∧ (crcOk → op = 2 → off = 0x2C → s.lanesQuiet = true → Does (.uartRequest req) s (fun t => t.dbg.uart.take 2 = [0x5A, 0]
                ∧ look t.dbg.tbuf (s.get DBG_TBUF_IDX) 0 = fieldAt req 4 4 ∧ t.get DBG_TBUF_IDX = (s.get DBG_TBUF_IDX + 1) % 1024))))

/-- While the agent runs and the module is a member: a beacon carries its position, SEQ, MODULE_ID and digest, SEQ moves on, and
FENCED says whether its digest is not the reference one. A beacon without MACsec, and one not newer, changes nothing; one of a
peer not heard makes it HEARD with a new NONCE sent in an ATTEST_REQ; one with another MODULE_ID makes it ABSENT; one from the
own position with another identity marks a duplicate. A first fragment of several is kept, a timeout drops what was kept. A
request of a peer that is heard is answered with the keys and a statement over its nonce; a response that passes its checks
makes the peer VERIFIED, another ends the attempt. Re-verification asks again; a request not answered is sent again three times.
An absent peer's entry is emptied and no frozen copy of it stays held. The time error marks time untrusted above 1000 ns and
trusted again at 500 ns in LOCKED. (17_zone_cohort.md, Membership (R509, R510); 17_zone_cohort.md, Messages (R511, R512);
17_zone_cohort.md, Peer states (R513, R514); 17_zone_cohort.md, Disagreement (R515, R516); 17_zone_cohort.md, Time quality
(R519, R520); 17_zone_cohort.md, Logbook records) -/
def Obligations.CohortPeersAreHeardAttestedAndFenced : Prop :=
  ∀ s : State, s.agentRuns = true →
    let c := s.cohort
    let quiet (t : State) : Prop := t.cohort = { c with out := [] } ∧ Keeps [] [] s t ∧ t = { s with regs := t.regs, cohort := t.cohort }
    let frame (t : State) : Prop := Keeps [] [] s t ∧ t = { s with regs := t.regs, cohort := t.cohort, recorder := t.recorder, fresh := t.fresh }
    let sent (z typ : Nat) (content : List Byte) (t : State) : Prop := t.cohort.out.flatMap (fun f => f.2.drop 16) = content
      ∧ ∀ f, f ∈ t.cohort.out → f.1 = some z ∧ fieldAt f.2 1 1 = typ ∧ fieldAt f.2 2 1 = s.position
    let fenced (t : State) : Prop := t.cohort.fenced = decide (t.ownDigest ≠ refDigest t.digests)
    let asks (z : Nat) (t : State) : Prop := (t.peer z).nonce.length = 32 ∧ sent z 2 (t.peer z).nonce t ∧ (t.peer z).tries = 0
    let others (z : Nat) (t : State) : Prop := ∀ y, y ≠ z → t.peer y = s.peer y
    (s.member = true →
      Does .cohortBeaconSend s (fun t => fenced t ∧ frame t ∧ t.cohort.seq = (c.seq + 1) % 2 ^ 32
        ∧ ∃ m, t.cohort.out = [(none, m)] ∧ m.length = 112 ∧ fieldAt m 2 1 = s.position ∧ fieldAt m 4 4 = c.seq % 2 ^ 32
          ∧ (m.drop 0x10).take 16 = s.moduleId ∧ (m.drop 0x20).take 32 = s.ownDigest
          ∧ fieldAt m 3 1 = b2n (t.cohort.fenced || c.dup) + 2 * b2n c.untrusted + 4 * b2n c.dup)
      ∧ (∀ m : List Byte, Does (.cohortBeaconReceive m false) s quiet)
      ∧ (∀ m : List Byte, m.length = 112 → fieldAt m 0 1 = 1 → fieldAt m 1 1 = 1 → (m.drop 8).take 8 = fitBytes 8 (Config.cohortId s.tables) →
          let z := fieldAt m 2 1
          let id := (m.drop 0x10).take 16
          s.taken z = true →
          (z = s.position → id ≠ s.moduleId → c.dup = false → Does (.cohortBeaconReceive m true) s (fun t => frame t ∧ t.cohort.dup = true
              ∧ t.cohort.peers = c.peers ∧ t.cohort.out = []))
          ∧ (z ≠ s.position → id ≠ s.expected z → (∀ i, i ∈ c.inb → i.pos ≠ z) → Does (.cohortBeaconReceive m true) s (fun t => frame t ∧ fenced t
              ∧ t.peer z = ⟨0, [], [], 0, (s.peer z).warned⟩ ∧ others z t))
          ∧ (z ≠ s.position → id = s.expected z →
            ((s.peer z).state ≠ 0 → fieldAt m 4 4 ≤ fieldAt (s.peer z).beacon 4 4 → Does (.cohortBeaconReceive m true) s quiet)
            ∧ ((s.peer z).state = 0 → Does (.cohortBeaconReceive m true) s (fun t => frame t ∧ fenced t ∧ (t.peer z).state = 1
                ∧ (t.peer z).beacon = m ∧ asks z t ∧ others z t))
            ∧ ((s.peer z).state ≠ 0 → fieldAt (s.peer z).beacon 4 4 < fieldAt m 4 4 → (m.drop 0x20).take 44 = ((s.peer z).beacon.drop 0x20).take 44 →
                Does (.cohortBeaconReceive m true) s (fun t => frame t ∧ fenced t ∧ (t.peer z).state = (s.peer z).state ∧ (t.peer z).beacon = m
                  ∧ t.cohort.out = [] ∧ others z t))))
      ∧ (∀ (m : List Byte) (ok : Bool),
          let rows : List (Nat × (Bool → Instr)) := [(2, .attestReq m), (3, fun b => .attestRsp m b ok), (4, .offer m), (5, .ack m), (6, .commit m),
            (7, .abort m), (8, .done m), (9, .query m), (10, .status m)]
          let z := fieldAt m 2 1
          let fresh (typ : Nat) : Prop := s.frameOk m true typ = true
            ∧ ∀ p, p ∈ c.parts → ¬ (p.pos = z ∧ p.id = fieldAt m 4 4 ∧ p.typ = typ)
          (∀ r, r ∈ rows → Does (r.2 false) s quiet ∧ (fresh r.1 → 1 < fieldAt m 10 2 → Does (r.2 true) s (fun t => Keeps [] [] s t
              ∧ t.cohort = { c with out := [], parts := c.parts ++ [⟨z, fieldAt m 4 4, r.1, fieldAt m 10 2, [(fieldAt m 8 2, m.drop 16)]⟩] })))
          ∧ (fresh 2 → fieldAt m 10 2 = 1 →
              ((s.peer z).state = 0 ∨ s.lifecycle = 0 → Does (.attestReq m true) s quiet)
              ∧ (∀ r, (s.peer z).state ≠ 0 → s.lifecycle ≠ 0 → m.length = 48 → s.otp.root = some r → Does (.attestReq m true) s (fun t =>
                  (∃ sig, sent z 3 (exportBytes r ++ s.attestation (m.drop 16) 0x1F sig) t) ∧ t.cohort.peers = c.peers ∧ frame t)))
          ∧ (fresh 3 → fieldAt m 10 2 = 1 → (s.peer z).nonce ≠ [] →
              let r := s.checkRsp z (m.drop 16) ok
              Does (.attestRsp m true ok) s (fun t => frame t ∧ others z t
                ∧ t.peer z = { s.peer z with state := if r = 0 then 2 else (s.peer z).state, nonce := [], tries := 0 })))
      ∧ (∀ z : Fin 6, (s.peer z).state = 2 ∨ (s.peer z).state = 1 ∧ (s.peer z).nonce = [] → Does (.peerReverifyExpiry z) s (fun t => frame t
          ∧ (t.peer z).state = 1 ∧ asks z t ∧ others z t))
      ∧ (∀ z : Fin 6, (z.val = s.position → Does (.peerAbsentTimeout z) s (fun t => frame t ∧ t.cohort = { c with out := [], dup := false }))
          ∧ (z.val ≠ s.position → Does (.peerAbsentTimeout z) s (fun t => t.peer z = ⟨0, [], [], 0, (s.peer z).warned⟩ ∧ others z t ∧ fenced t
              ∧ ∀ i, i ∈ t.cohort.inb → i.pos = z.val → i.state ≠ 1)))
      ∧ (∀ (z : Fin 6) (id : Word), Does (.transferReassemblyTimeout z id) s (fun t => Keeps [] [] s t
          ∧ t.cohort = { c with out := [], parts := c.parts.filter (fun p => !(p.pos == z.val && p.id == id.toNat)) }))
      ∧ (∀ z : Fin 6, (s.peer z).nonce ≠ [] →
          ((s.peer z).tries < 3 → Does (.transferRetryTimeout z 2) s (fun t => frame t ∧ sent z 2 (s.peer z).nonce t ∧ others z t
              ∧ t.peer z = { s.peer z with tries := (s.peer z).tries + 1 }))
          ∧ (3 ≤ (s.peer z).tries → Does (.transferRetryTimeout z 2) s (fun t => frame t ∧ others z t
              ∧ t.peer z = { s.peer z with nonce := [], tries := 0 }))))
    ∧ (∀ err : Word,
        let state := s.get TIME_STAT_STATE
        let e := if state = 4 then 0 else if state = 2 then (signed (s.get TIME_OFFSET) 32).natAbs else if state = 3 then s.heldErr err.toNat else 0xFFFFFFFF
        let mark (b : Bool) : Prop := Does (.timeTrustChange err) s (fun t => t.cohort.untrusted = b ∧ t.get REC_CTL_UNTRUSTED = b2n b
          ∧ t.cohort.peers = c.peers ∧ Keeps [REC_CTL_UNTRUSTED] [] s t
          ∧ t = { s with regs := t.regs, cohort := t.cohort, recorder := t.recorder })
        (c.untrusted = false → 1000 < e → mark true) ∧ (c.untrusted = true → state = 2 → e ≤ 500 → mark false)
        ∧ ((c.untrusted = false ∧ e ≤ 1000) ∨ (c.untrusted = true ∧ (500 < e ∨ state ≠ 2)) → Does (.timeTrustChange err) s (fun t =>
            t.cohort.untrusted = c.untrusted ∧ Changes [] [] s { t with cohort := c })))

/-- For a message in one frame, under MACsec, from another member: an OFFER is answered with the result of its checks (0x20 fenced,
0x21 a peer not verified), and where it is 1 the frozen copy is held; one sent again is answered 1. COMMIT runs the copy, which
DONE answers, again if it comes again; ABORT disables it. An ACK of 1 disables the source's function, records COMMITTED and
sends COMMIT; another one gives the migration up, its function resumes. While a VFM command runs, the agent's DISABLE and RESUME
wait and an OFFER is not answered yet. DONE and STATUS 2 close it; STATUS 3 and 0 close it with the function restored here;
STATUS 4 and 5 run and drop a held copy. QUERY is answered with the outcome or the state here. The waits send QUERY; an OFFER
not answered is sent again three times, then given up with ABORT; a QUERY not answered is sent again, without limit by a source
that has committed. Memory does not change. (17_zone_cohort.md, Migration (R521, R522, R523); 17_zone_cohort.md, Messages
(R512); 17_zone_cohort.md, Logbook records) -/
def Obligations.FunctionsMigrateBetweenMembers : Prop :=
  ∀ s : State, s.agentRuns = true → s.member = true →
    let c := s.cohort
    let frame (t : State) : Prop := t = { s with
      regs := t.regs, cohort := t.cohort, recorder := t.recorder, fresh := t.fresh, vfm := t.vfm, rings := t.rings, eth := t.eth, can := t.can }
    let sent (z typ : Nat) (content : List Byte) (t : State) : Prop := t.cohort.out.flatMap (fun f => f.2.drop 16) = content ∧ frame t
      ∧ ∀ f, f ∈ t.cohort.out → f.1 = some z ∧ fieldAt f.2 1 1 = typ ∧ fieldAt f.2 2 1 = s.position
    let state (f : Nat) (t : State) : Nat := t.get (VFM_VF_STATE_STATE f)
    let idle := s.on VFM_CMD_STAT_BUSY = false
    let noStale (f : Nat) : Prop := s.get (VFM_VF_STATE_STALE f) = 0
    let waits (op f : Nat) (t : State) : Prop := ¬ idle → t.vfm.later = s.vfm.later ++ [(op, f)] ∧ state f t = state f s
    (∀ m : List Byte,
      let z := fieldAt m 2 1
      let b := m.drop 16
      let mig := fieldAt b 0 4
      let one (typ : Nat) : Prop := s.frameOk m true typ = true ∧ fieldAt m 10 2 = 1
        ∧ ∀ p, p ∈ c.parts → ¬ (p.pos = z ∧ p.id = fieldAt m 4 4 ∧ p.typ = typ)
      (one 4 → m.length = 600 →
        let r := s.checkOffer z (fieldAt b 4 1) (b.drop 8)
        (∀ i, s.inOf z mig = some i → Does (.offer m true) s (fun t => sent z 5 (leBytes 4 mig ++ leBytes 1 1 ++ leBytes 3 0) t
            ∧ t.cohort.inb = c.inb))
        ∧ (s.inOf z mig = none → (s.ownFence = true → r.1 = 0x20)
            ∧ (s.ownFence = false → s.peerFenced z = false → (s.peer z).state ≠ 2 → r.1 = 0x21)
            ∧ (idle → Does (.offer m true) s (fun t => sent z 5 (leBytes 4 mig ++ leBytes 1 r.1 ++ leBytes 3 0) t
              ∧ t.inOf z mig = if r.1 = 1 then some ⟨z, mig, r.2.2, 1⟩ else none))
            ∧ (¬ idle → Does (.offer m true) s (fun t => t.cohort = { c with out := [], parts := t.cohort.parts } ∧ frame t ∧ Keeps [] [] s t))))
      ∧ (∀ i, s.inOf z mig = some i → i.fn < 32 →
          let runs (t : State) : Prop := sent z 8 (leBytes 4 mig) t ∧ t.inOf z mig = some { i with state := 2 }
            ∧ (idle → state i.fn s = 3 → state i.fn t = 1) ∧ waits 5 i.fn t
          let dropped (t : State) : Prop := t.inOf z mig = some { i with state := 3 } ∧ t.cohort.out = [] ∧ frame t
            ∧ (idle → noStale i.fn → state i.fn t = 0) ∧ waits 2 i.fn t
          (one 6 → (i.state = 1 → Does (.commit m true) s runs)
            ∧ (i.state = 2 → Does (.commit m true) s (fun t => sent z 8 (leBytes 4 mig) t ∧ t.cohort.inb = c.inb)))
          ∧ (one 7 → i.state = 1 → Does (.abort m true) s dropped)
          ∧ (one 10 → s.outOf z mig = none → i.state = 1 → (fieldAt b 4 1 = 4 → Does (.status m true) s runs)
              ∧ (fieldAt b 4 1 = 5 → Does (.status m true) s dropped)))
      ∧ (∀ o, s.outOf z mig = some o → o.fn < 32 →
          let closed (t : State) : Prop := t.outOf z mig = none ∧ (∀ q, q ∈ t.cohort.asked → ¬ (q.pos = z ∧ q.mig = mig)) ∧ frame t
          (one 5 → m.length = 24 → o.committed = false →
            (fieldAt b 4 1 = 1 → Does (.ack m true) s (fun t => sent z 6 (leBytes 4 mig) t ∧ t.outOf z mig = some { o with committed := true }
              ∧ t.cohort.outcomes = ((mig, 4) :: c.outcomes).take 8 ∧ (idle → noStale o.fn → state o.fn t = 0) ∧ waits 2 o.fn t))
            ∧ (fieldAt b 4 1 ≠ 1 → Does (.ack m true) s (fun t => closed t ∧ t.cohort.outcomes = ((mig, 5) :: c.outcomes).take 8
              ∧ (idle → state o.fn s = 3 → state o.fn t = 1) ∧ waits 5 o.fn t)))
          ∧ (one 8 → o.committed = true → Does (.done m true) s (fun t => closed t ∧ t.vfm = s.vfm ∧ t.rings = s.rings))
          ∧ (one 10 → o.committed = true → (fieldAt b 4 1 = 2 → Does (.status m true) s (fun t => closed t ∧ t.vfm = s.vfm ∧ t.rings = s.rings))
              ∧ (idle → fieldAt b 4 1 = 3 ∨ fieldAt b 4 1 = 0 → Does (.status m true) s (fun t => closed t ∧ ∀ d, s.unsealed (o.offer.drop 8) = some d →
                  s.blobCheck o.fn d = 1 → state o.fn t = 3))))
      ∧ (one 9 → Does (.query m true) s (fun t => sent z 10 (leBytes 4 mig ++ leBytes 1 (s.migState z mig)) t ∧ t.cohort.inb = c.inb
          ∧ t.cohort.outb = c.outb ∧ Keeps [] [] s t)))
    ∧ (∀ (z : Fin 6) (mig : Word) (i : Inbound), s.inOf z mig.toNat = some i → i.state = 1 → Does (.migrationCommitWaitExpiry z mig) s (fun t =>
        sent z 9 (leBytes 4 mig.toNat) t ∧ ⟨z, mig.toNat, 0⟩ ∈ t.cohort.asked ∧ t.cohort.inb = c.inb ∧ Keeps [] [] s t))
    ∧ (∀ (mig : Word) (o : Outbound), c.outb.find? (fun o => o.mig == mig.toNat && o.committed) = some o → Does (.migrationDoneWaitExpiry mig) s (fun t =>
        sent o.pos 9 (leBytes 4 mig.toNat) t ∧ ⟨o.pos, mig.toNat, 0⟩ ∈ t.cohort.asked ∧ t.cohort.outb = c.outb ∧ Keeps [] [] s t))
    ∧ (∀ (z : Fin 6) (o : Outbound), c.outb.find? (fun o => o.pos == z.val && !o.committed) = some o → o.fn < 32 →
        (o.tries < 3 → Does (.transferRetryTimeout z 4) s (fun t => sent z 4 o.offer t ∧ { o with tries := o.tries + 1 } ∈ t.cohort.outb ∧ Keeps [] [] s t))
        ∧ (3 ≤ o.tries → Does (.transferRetryTimeout z 4) s (fun t => sent z 7 (leBytes 4 o.mig) t ∧ t.outOf z o.mig = none
            ∧ t.cohort.outcomes = ((o.mig, 5) :: c.outcomes).take 8 ∧ (idle → state o.fn s = 3 → state o.fn t = 1) ∧ waits 5 o.fn t)))
    ∧ (∀ (z : Fin 6) (q : Asked), c.asked.find? (fun q => q.pos == z.val) = some q →
        (q.tries < 3 ∨ (s.outOf z q.mig).isSome = true → Does (.transferRetryTimeout z 9) s (fun t => sent z 9 (leBytes 4 q.mig) t
            ∧ ⟨z, q.mig, q.tries + 1⟩ ∈ t.cohort.asked ∧ Keeps [] [] s t))
        ∧ (3 ≤ q.tries → s.outOf z q.mig = none → Does (.transferRetryTimeout z 9) s (fun t => t.cohort.out = []
            ∧ (∀ p, p ∈ t.cohort.asked → ¬ (p.pos = z.val ∧ p.mig = q.mig)) ∧ Keeps [] [] s t)))
end

