-- ==== Sys2Proof/Laws/Cells.lean ====
section
/-! SUPPORT. Keyed lists: what a lookup finds after an insertion or a deletion, and that the canonical form stays. -/

namespace Sys2Proof.Machine

variable {α : Type}

@[simp] theorem look_nil (k : Nat) (d : α) : look [] k d = d := rfl

@[simp] theorem look_ins_self (m : List (Nat × α)) (k : Nat) (v d : α) : look (ins m k v) k d = v := by
  induction m with
  | nil => simp [ins, look]
  | cons p t ih =>
    unfold ins
    split
    · simp [look]
    · split
      · simp [look]
      · simp only [look]
        rw [if_neg ‹_›]
        exact ih

theorem look_ins_ne (m : List (Nat × α)) {k j : Nat} (h : j ≠ k) (v d : α) : look (ins m k v) j d = look m j d := by
  induction m with
  | nil => simp [ins, look, Ne.symm h]
  | cons p t ih =>
    unfold ins
    split
    · rename_i hk
      simp only [look]
      rw [if_neg (Ne.symm h), if_neg (by rw [hk]; exact Ne.symm h)]
    · split
      · simp only [look]
        rw [if_neg (Ne.symm h)]
      · simp only [look]
        split
        · rfl
        · exact ih

theorem look_filter (p : Nat × α → Bool) (q : Nat → Bool) (h : ∀ c, p c = q c.1) (m : List (Nat × α)) (k : Nat) (d : α) :
    look (m.filter p) k d = if q k then look m k d else d := by
  induction m with
  | nil => simp [look]
  | cons c t ih =>
    simp only [List.filter_cons]
    by_cases hc : p c = true
    · rw [if_pos hc]
      simp only [look]
      by_cases hk : c.1 = k
      · rw [if_pos hk, if_pos hk, ← hk, ← h c, hc]
        simp
      · rw [if_neg hk, if_neg hk, ih]
    · rw [if_neg hc, ih]
      by_cases hk : c.1 = k
      · have : q k = false := by rw [← hk, ← h c]; simpa using hc
        simp [this]
      · simp only [look]
        rw [if_neg hk]

@[simp] theorem look_del_self (m : List (Nat × α)) (k : Nat) (d : α) : look (del m k) k d = d := by
  unfold del
  rw [look_filter _ (fun j => j != k) (fun _ => rfl)]
  simp

theorem look_del_ne (m : List (Nat × α)) {k j : Nat} (h : j ≠ k) (d : α) : look (del m k) j d = look m j d := by
  unfold del
  rw [look_filter _ (fun j => j != k) (fun _ => rfl)]
  simp [h]

theorem look_delRange (m : List (Nat × α)) (lo hi k : Nat) (d : α) :
    look (delRange m lo hi) k d = if lo ≤ k ∧ k < hi then d else look m k d := by
  unfold delRange
  rw [look_filter _ (fun j => !(decide (lo ≤ j) && decide (j < hi))) (fun _ => rfl)]
  by_cases h : lo ≤ k ∧ k < hi
  · simp [h]
  · rw [if_neg h]
    have : (!(decide (lo ≤ k) && decide (k < hi))) = true := by simp; omega
    rw [if_pos this]

/-! ### The canonical form -/

theorem rising_tail {p : Nat × α} {t : List (Nat × α)} (h : rising (p :: t) = true) : rising t = true := by
  cases t with
  | nil => rfl
  | cons q t =>
    simp [rising] at h
    exact h.2

theorem rising_head_lt {p : Nat × α} {t : List (Nat × α)} (h : rising (p :: t) = true) : ∀ c ∈ t, p.1 < c.1 := by
  induction t generalizing p with
  | nil => simp
  | cons q t ih =>
    simp only [rising, Bool.and_eq_true, decide_eq_true_eq] at h
    intro c hc
    rcases List.mem_cons.1 hc with rfl | hc
    · exact h.1
    · exact Nat.lt_trans h.1 (ih h.2 c hc)

theorem rising_cons {p : Nat × α} {t : List (Nat × α)} (h : ∀ c ∈ t, p.1 < c.1) (ht : rising t = true) : rising (p :: t) = true := by
  cases t with
  | nil => rfl
  | cons q t =>
    simp only [rising, Bool.and_eq_true, decide_eq_true_eq]
    exact ⟨h q (by simp), ht⟩

theorem rising_filter (p : Nat × α → Bool) {m : List (Nat × α)} (h : rising m = true) : rising (m.filter p) = true := by
  induction m with
  | nil => rfl
  | cons c t ih =>
    simp only [List.filter_cons]
    split
    · exact rising_cons (fun x hx => rising_head_lt h x ((List.mem_filter.1 hx).1)) (ih (rising_tail h))
    · exact ih (rising_tail h)

theorem mem_ins {m : List (Nat × α)} {k : Nat} {v : α} {c : Nat × α} (h : c ∈ ins m k v) : c = (k, v) ∨ c ∈ m := by
  induction m with
  | nil => simp [ins] at h; exact .inl h
  | cons p t ih =>
    unfold ins at h
    split at h
    · rcases List.mem_cons.1 h with rfl | h
      · exact .inl rfl
      · exact .inr (by simp [h])
    · split at h
      · rcases List.mem_cons.1 h with rfl | h
        · exact .inl rfl
        · exact .inr h
      · rcases List.mem_cons.1 h with rfl | h
        · exact .inr (by simp)
        · rcases ih h with h | h
          · exact .inl h
          · exact .inr (by simp [h])

theorem rising_ins {m : List (Nat × α)} (h : rising m = true) (k : Nat) (v : α) : rising (ins m k v) = true := by
  induction m with
  | nil => rfl
  | cons p t ih =>
    have hl := rising_head_lt h
    unfold ins
    split
    · rename_i hk
      exact rising_cons (fun c hc => by have := hl c hc; simp at this ⊢; omega) (rising_tail h)
    · split
      · exact rising_cons (fun c hc => by
          rcases List.mem_cons.1 hc with rfl | hc
          · assumption
          · exact Nat.lt_trans ‹_› (hl c hc)) h
      · refine rising_cons (fun c hc => ?_) (ih (rising_tail h))
        rcases mem_ins hc with rfl | hc
        · simp; omega
        · exact hl c hc

theorem rising_del {m : List (Nat × α)} (h : rising m = true) (k : Nat) : rising (del m k) = true := rising_filter _ h

theorem rising_delRange {m : List (Nat × α)} (h : rising m = true) (lo hi : Nat) : rising (delRange m lo hi) = true :=
  rising_filter _ h

theorem rising_keepRange {m : List (Nat × α)} (h : rising m = true) (lo hi : Nat) : rising (keepRange m lo hi) = true :=
  rising_filter _ h

end Sys2Proof.Machine
end

