-- ==== Sys2Proof/Laws/State.lean ====
section
/-! SUPPORT. Each field of the state after an update of a field: one lemma each, true by definition. -/

namespace Sys2Proof.Machine

@[simp] theorem State.regs_of_pending (s : State) (x : List Instr) : ({ s with pending := x } : State).regs = s.regs := rfl
@[simp] theorem State.mem_of_pending (s : State) (x : List Instr) : ({ s with pending := x } : State).mem = s.mem := rfl
@[simp] theorem State.syn_of_pending (s : State) (x : List Instr) : ({ s with pending := x } : State).syn = s.syn := rfl
@[simp] theorem State.resp_of_pending (s : State) (x : List Instr) : ({ s with pending := x } : State).resp = s.resp := rfl
@[simp] theorem State.fresh_of_pending (s : State) (x : List Instr) : ({ s with pending := x } : State).fresh = s.fresh := rfl
@[simp] theorem State.mem_of_regs (s : State) (x : List (Nat × Nat)) : ({ s with regs := x } : State).mem = s.mem := rfl
@[simp] theorem State.syn_of_regs (s : State) (x : List (Nat × Nat)) : ({ s with regs := x } : State).syn = s.syn := rfl
@[simp] theorem State.resp_of_regs (s : State) (x : List (Nat × Nat)) : ({ s with regs := x } : State).resp = s.resp := rfl
@[simp] theorem State.pending_of_regs (s : State) (x : List (Nat × Nat)) : ({ s with regs := x } : State).pending = s.pending := rfl
@[simp] theorem State.fresh_of_regs (s : State) (x : List (Nat × Nat)) : ({ s with regs := x } : State).fresh = s.fresh := rfl
@[simp] theorem State.regs_of_aon (s : State) (x : List (Nat × Nat)) : ({ s with aon := x } : State).regs = s.regs := rfl
@[simp] theorem State.mem_of_aon (s : State) (x : List (Nat × Nat)) : ({ s with aon := x } : State).mem = s.mem := rfl
@[simp] theorem State.syn_of_aon (s : State) (x : List (Nat × Nat)) : ({ s with aon := x } : State).syn = s.syn := rfl
@[simp] theorem State.resp_of_aon (s : State) (x : List (Nat × Nat)) : ({ s with aon := x } : State).resp = s.resp := rfl
@[simp] theorem State.pending_of_aon (s : State) (x : List (Nat × Nat)) : ({ s with aon := x } : State).pending = s.pending := rfl
@[simp] theorem State.fresh_of_aon (s : State) (x : List (Nat × Nat)) : ({ s with aon := x } : State).fresh = s.fresh := rfl
@[simp] theorem State.regs_of_mirrorQ (s : State) (x : List MirrorWr) : ({ s with mirrorQ := x } : State).regs = s.regs := rfl
@[simp] theorem State.mem_of_mirrorQ (s : State) (x : List MirrorWr) : ({ s with mirrorQ := x } : State).mem = s.mem := rfl
@[simp] theorem State.syn_of_mirrorQ (s : State) (x : List MirrorWr) : ({ s with mirrorQ := x } : State).syn = s.syn := rfl
@[simp] theorem State.resp_of_mirrorQ (s : State) (x : List MirrorWr) : ({ s with mirrorQ := x } : State).resp = s.resp := rfl
@[simp] theorem State.pending_of_mirrorQ (s : State) (x : List MirrorWr) : ({ s with mirrorQ := x } : State).pending = s.pending := rfl
@[simp] theorem State.fresh_of_mirrorQ (s : State) (x : List MirrorWr) : ({ s with mirrorQ := x } : State).fresh = s.fresh := rfl
@[simp] theorem State.regs_of_locks (s : State) (x : List Nat) : ({ s with locks := x } : State).regs = s.regs := rfl
@[simp] theorem State.mem_of_locks (s : State) (x : List Nat) : ({ s with locks := x } : State).mem = s.mem := rfl
@[simp] theorem State.syn_of_locks (s : State) (x : List Nat) : ({ s with locks := x } : State).syn = s.syn := rfl
@[simp] theorem State.resp_of_locks (s : State) (x : List Nat) : ({ s with locks := x } : State).resp = s.resp := rfl
@[simp] theorem State.pending_of_locks (s : State) (x : List Nat) : ({ s with locks := x } : State).pending = s.pending := rfl
@[simp] theorem State.fresh_of_locks (s : State) (x : List Nat) : ({ s with locks := x } : State).fresh = s.fresh := rfl
@[simp] theorem State.regs_of_latches (s : State) (x : List (Nat × Nat)) : ({ s with latches := x } : State).regs = s.regs := rfl
@[simp] theorem State.mem_of_latches (s : State) (x : List (Nat × Nat)) : ({ s with latches := x } : State).mem = s.mem := rfl
@[simp] theorem State.syn_of_latches (s : State) (x : List (Nat × Nat)) : ({ s with latches := x } : State).syn = s.syn := rfl
@[simp] theorem State.resp_of_latches (s : State) (x : List (Nat × Nat)) : ({ s with latches := x } : State).resp = s.resp := rfl
@[simp] theorem State.pending_of_latches (s : State) (x : List (Nat × Nat)) : ({ s with latches := x } : State).pending = s.pending := rfl
@[simp] theorem State.fresh_of_latches (s : State) (x : List (Nat × Nat)) : ({ s with latches := x } : State).fresh = s.fresh := rfl
@[simp] theorem State.regs_of_resp (s : State) (x : Resp) : ({ s with resp := x } : State).regs = s.regs := rfl
@[simp] theorem State.mem_of_resp (s : State) (x : Resp) : ({ s with resp := x } : State).mem = s.mem := rfl
@[simp] theorem State.syn_of_resp (s : State) (x : Resp) : ({ s with resp := x } : State).syn = s.syn := rfl
@[simp] theorem State.pending_of_resp (s : State) (x : Resp) : ({ s with resp := x } : State).pending = s.pending := rfl
@[simp] theorem State.fresh_of_resp (s : State) (x : Resp) : ({ s with resp := x } : State).fresh = s.fresh := rfl
@[simp] theorem State.regs_of_mem (s : State) (x : List Host.Cell) : ({ s with mem := x } : State).regs = s.regs := rfl
@[simp] theorem State.syn_of_mem (s : State) (x : List Host.Cell) : ({ s with mem := x } : State).syn = s.syn := rfl
@[simp] theorem State.resp_of_mem (s : State) (x : List Host.Cell) : ({ s with mem := x } : State).resp = s.resp := rfl
@[simp] theorem State.pending_of_mem (s : State) (x : List Host.Cell) : ({ s with mem := x } : State).pending = s.pending := rfl
@[simp] theorem State.fresh_of_mem (s : State) (x : List Host.Cell) : ({ s with mem := x } : State).fresh = s.fresh := rfl
@[simp] theorem State.regs_of_syn (s : State) (x : List (Nat × Nat)) : ({ s with syn := x } : State).regs = s.regs := rfl
@[simp] theorem State.mem_of_syn (s : State) (x : List (Nat × Nat)) : ({ s with syn := x } : State).mem = s.mem := rfl
@[simp] theorem State.resp_of_syn (s : State) (x : List (Nat × Nat)) : ({ s with syn := x } : State).resp = s.resp := rfl
@[simp] theorem State.pending_of_syn (s : State) (x : List (Nat × Nat)) : ({ s with syn := x } : State).pending = s.pending := rfl
@[simp] theorem State.fresh_of_syn (s : State) (x : List (Nat × Nat)) : ({ s with syn := x } : State).fresh = s.fresh := rfl
@[simp] theorem State.regs_of_arb (s : State) (x : List (Nat × Arb)) : ({ s with arb := x } : State).regs = s.regs := rfl
@[simp] theorem State.mem_of_arb (s : State) (x : List (Nat × Arb)) : ({ s with arb := x } : State).mem = s.mem := rfl
@[simp] theorem State.syn_of_arb (s : State) (x : List (Nat × Arb)) : ({ s with arb := x } : State).syn = s.syn := rfl
@[simp] theorem State.resp_of_arb (s : State) (x : List (Nat × Arb)) : ({ s with arb := x } : State).resp = s.resp := rfl
@[simp] theorem State.pending_of_arb (s : State) (x : List (Nat × Arb)) : ({ s with arb := x } : State).pending = s.pending := rfl
@[simp] theorem State.fresh_of_arb (s : State) (x : List (Nat × Arb)) : ({ s with arb := x } : State).fresh = s.fresh := rfl
@[simp] theorem State.regs_of_fresh (s : State) (x : Nat) : ({ s with fresh := x } : State).regs = s.regs := rfl
@[simp] theorem State.mem_of_fresh (s : State) (x : Nat) : ({ s with fresh := x } : State).mem = s.mem := rfl
@[simp] theorem State.syn_of_fresh (s : State) (x : Nat) : ({ s with fresh := x } : State).syn = s.syn := rfl
@[simp] theorem State.resp_of_fresh (s : State) (x : Nat) : ({ s with fresh := x } : State).resp = s.resp := rfl
@[simp] theorem State.pending_of_fresh (s : State) (x : Nat) : ({ s with fresh := x } : State).pending = s.pending := rfl
@[simp] theorem State.regs_of_pwr (s : State) (x : PowerSt) : ({ s with pwr := x } : State).regs = s.regs := rfl
@[simp] theorem State.mem_of_pwr (s : State) (x : PowerSt) : ({ s with pwr := x } : State).mem = s.mem := rfl
@[simp] theorem State.syn_of_pwr (s : State) (x : PowerSt) : ({ s with pwr := x } : State).syn = s.syn := rfl
@[simp] theorem State.resp_of_pwr (s : State) (x : PowerSt) : ({ s with pwr := x } : State).resp = s.resp := rfl
@[simp] theorem State.pending_of_pwr (s : State) (x : PowerSt) : ({ s with pwr := x } : State).pending = s.pending := rfl
@[simp] theorem State.fresh_of_pwr (s : State) (x : PowerSt) : ({ s with pwr := x } : State).fresh = s.fresh := rfl
@[simp] theorem State.regs_of_haltedHarts (s : State) (x : Nat) : ({ s with haltedHarts := x } : State).regs = s.regs := rfl
@[simp] theorem State.mem_of_haltedHarts (s : State) (x : Nat) : ({ s with haltedHarts := x } : State).mem = s.mem := rfl
@[simp] theorem State.syn_of_haltedHarts (s : State) (x : Nat) : ({ s with haltedHarts := x } : State).syn = s.syn := rfl
@[simp] theorem State.resp_of_haltedHarts (s : State) (x : Nat) : ({ s with haltedHarts := x } : State).resp = s.resp := rfl
@[simp] theorem State.pending_of_haltedHarts (s : State) (x : Nat) : ({ s with haltedHarts := x } : State).pending = s.pending := rfl
@[simp] theorem State.fresh_of_haltedHarts (s : State) (x : Nat) : ({ s with haltedHarts := x } : State).fresh = s.fresh := rfl
@[simp] theorem State.regs_of_groups (s : State) (x : List (Nat × LaneGrp)) : ({ s with groups := x } : State).regs = s.regs := rfl
@[simp] theorem State.mem_of_groups (s : State) (x : List (Nat × LaneGrp)) : ({ s with groups := x } : State).mem = s.mem := rfl
@[simp] theorem State.syn_of_groups (s : State) (x : List (Nat × LaneGrp)) : ({ s with groups := x } : State).syn = s.syn := rfl
@[simp] theorem State.resp_of_groups (s : State) (x : List (Nat × LaneGrp)) : ({ s with groups := x } : State).resp = s.resp := rfl
@[simp] theorem State.pending_of_groups (s : State) (x : List (Nat × LaneGrp)) : ({ s with groups := x } : State).pending = s.pending := rfl
@[simp] theorem State.fresh_of_groups (s : State) (x : List (Nat × LaneGrp)) : ({ s with groups := x } : State).fresh = s.fresh := rfl
@[simp] theorem State.regs_of_harts (s : State) (x : List (Nat × HartSt)) : ({ s with harts := x } : State).regs = s.regs := rfl
@[simp] theorem State.mem_of_harts (s : State) (x : List (Nat × HartSt)) : ({ s with harts := x } : State).mem = s.mem := rfl
@[simp] theorem State.syn_of_harts (s : State) (x : List (Nat × HartSt)) : ({ s with harts := x } : State).syn = s.syn := rfl
@[simp] theorem State.resp_of_harts (s : State) (x : List (Nat × HartSt)) : ({ s with harts := x } : State).resp = s.resp := rfl
@[simp] theorem State.pending_of_harts (s : State) (x : List (Nat × HartSt)) : ({ s with harts := x } : State).pending = s.pending := rfl
@[simp] theorem State.fresh_of_harts (s : State) (x : List (Nat × HartSt)) : ({ s with harts := x } : State).fresh = s.fresh := rfl
@[simp] theorem State.regs_of_vfm (s : State) (x : VfmSt) : ({ s with vfm := x } : State).regs = s.regs := rfl
@[simp] theorem State.mem_of_vfm (s : State) (x : VfmSt) : ({ s with vfm := x } : State).mem = s.mem := rfl
@[simp] theorem State.syn_of_vfm (s : State) (x : VfmSt) : ({ s with vfm := x } : State).syn = s.syn := rfl
@[simp] theorem State.resp_of_vfm (s : State) (x : VfmSt) : ({ s with vfm := x } : State).resp = s.resp := rfl
@[simp] theorem State.pending_of_vfm (s : State) (x : VfmSt) : ({ s with vfm := x } : State).pending = s.pending := rfl
@[simp] theorem State.fresh_of_vfm (s : State) (x : VfmSt) : ({ s with vfm := x } : State).fresh = s.fresh := rfl
@[simp] theorem State.regs_of_rings (s : State) (x : List (Nat × RingSt)) : ({ s with rings := x } : State).regs = s.regs := rfl
@[simp] theorem State.mem_of_rings (s : State) (x : List (Nat × RingSt)) : ({ s with rings := x } : State).mem = s.mem := rfl
@[simp] theorem State.syn_of_rings (s : State) (x : List (Nat × RingSt)) : ({ s with rings := x } : State).syn = s.syn := rfl
@[simp] theorem State.resp_of_rings (s : State) (x : List (Nat × RingSt)) : ({ s with rings := x } : State).resp = s.resp := rfl
@[simp] theorem State.pending_of_rings (s : State) (x : List (Nat × RingSt)) : ({ s with rings := x } : State).pending = s.pending := rfl
@[simp] theorem State.fresh_of_rings (s : State) (x : List (Nat × RingSt)) : ({ s with rings := x } : State).fresh = s.fresh := rfl
@[simp] theorem State.regs_of_dma (s : State) (x : List (Nat × DmaRun)) : ({ s with dma := x } : State).regs = s.regs := rfl
@[simp] theorem State.mem_of_dma (s : State) (x : List (Nat × DmaRun)) : ({ s with dma := x } : State).mem = s.mem := rfl
@[simp] theorem State.syn_of_dma (s : State) (x : List (Nat × DmaRun)) : ({ s with dma := x } : State).syn = s.syn := rfl
@[simp] theorem State.resp_of_dma (s : State) (x : List (Nat × DmaRun)) : ({ s with dma := x } : State).resp = s.resp := rfl
@[simp] theorem State.pending_of_dma (s : State) (x : List (Nat × DmaRun)) : ({ s with dma := x } : State).pending = s.pending := rfl
@[simp] theorem State.fresh_of_dma (s : State) (x : List (Nat × DmaRun)) : ({ s with dma := x } : State).fresh = s.fresh := rfl
@[simp] theorem State.regs_of_fifos (s : State) (x : List (Nat × FifoSt)) : ({ s with fifos := x } : State).regs = s.regs := rfl
@[simp] theorem State.mem_of_fifos (s : State) (x : List (Nat × FifoSt)) : ({ s with fifos := x } : State).mem = s.mem := rfl
@[simp] theorem State.syn_of_fifos (s : State) (x : List (Nat × FifoSt)) : ({ s with fifos := x } : State).syn = s.syn := rfl
@[simp] theorem State.resp_of_fifos (s : State) (x : List (Nat × FifoSt)) : ({ s with fifos := x } : State).resp = s.resp := rfl
@[simp] theorem State.pending_of_fifos (s : State) (x : List (Nat × FifoSt)) : ({ s with fifos := x } : State).pending = s.pending := rfl
@[simp] theorem State.fresh_of_fifos (s : State) (x : List (Nat × FifoSt)) : ({ s with fifos := x } : State).fresh = s.fresh := rfl
@[simp] theorem State.regs_of_ist (s : State) (x : IstSt) : ({ s with ist := x } : State).regs = s.regs := rfl
@[simp] theorem State.mem_of_ist (s : State) (x : IstSt) : ({ s with ist := x } : State).mem = s.mem := rfl
@[simp] theorem State.syn_of_ist (s : State) (x : IstSt) : ({ s with ist := x } : State).syn = s.syn := rfl
@[simp] theorem State.resp_of_ist (s : State) (x : IstSt) : ({ s with ist := x } : State).resp = s.resp := rfl
@[simp] theorem State.pending_of_ist (s : State) (x : IstSt) : ({ s with ist := x } : State).pending = s.pending := rfl
@[simp] theorem State.fresh_of_ist (s : State) (x : IstSt) : ({ s with ist := x } : State).fresh = s.fresh := rfl
@[simp] theorem State.regs_of_links (s : State) (x : List (Nat × LinkSt)) : ({ s with links := x } : State).regs = s.regs := rfl
@[simp] theorem State.mem_of_links (s : State) (x : List (Nat × LinkSt)) : ({ s with links := x } : State).mem = s.mem := rfl
@[simp] theorem State.syn_of_links (s : State) (x : List (Nat × LinkSt)) : ({ s with links := x } : State).syn = s.syn := rfl
@[simp] theorem State.resp_of_links (s : State) (x : List (Nat × LinkSt)) : ({ s with links := x } : State).resp = s.resp := rfl
@[simp] theorem State.pending_of_links (s : State) (x : List (Nat × LinkSt)) : ({ s with links := x } : State).pending = s.pending := rfl
@[simp] theorem State.fresh_of_links (s : State) (x : List (Nat × LinkSt)) : ({ s with links := x } : State).fresh = s.fresh := rfl
@[simp] theorem State.regs_of_perr (s : State) (x : List PErr) : ({ s with perr := x } : State).regs = s.regs := rfl
@[simp] theorem State.mem_of_perr (s : State) (x : List PErr) : ({ s with perr := x } : State).mem = s.mem := rfl
@[simp] theorem State.syn_of_perr (s : State) (x : List PErr) : ({ s with perr := x } : State).syn = s.syn := rfl
@[simp] theorem State.resp_of_perr (s : State) (x : List PErr) : ({ s with perr := x } : State).resp = s.resp := rfl
@[simp] theorem State.pending_of_perr (s : State) (x : List PErr) : ({ s with perr := x } : State).pending = s.pending := rfl
@[simp] theorem State.fresh_of_perr (s : State) (x : List PErr) : ({ s with perr := x } : State).fresh = s.fresh := rfl
@[simp] theorem State.regs_of_bursts (s : State) (x : Nat) : ({ s with bursts := x } : State).regs = s.regs := rfl
@[simp] theorem State.mem_of_bursts (s : State) (x : Nat) : ({ s with bursts := x } : State).mem = s.mem := rfl
@[simp] theorem State.syn_of_bursts (s : State) (x : Nat) : ({ s with bursts := x } : State).syn = s.syn := rfl
@[simp] theorem State.resp_of_bursts (s : State) (x : Nat) : ({ s with bursts := x } : State).resp = s.resp := rfl
@[simp] theorem State.pending_of_bursts (s : State) (x : Nat) : ({ s with bursts := x } : State).pending = s.pending := rfl
@[simp] theorem State.fresh_of_bursts (s : State) (x : Nat) : ({ s with bursts := x } : State).fresh = s.fresh := rfl
@[simp] theorem State.regs_of_chan (s : State) (x : List (Nat × ChanSt)) : ({ s with chan := x } : State).regs = s.regs := rfl
@[simp] theorem State.mem_of_chan (s : State) (x : List (Nat × ChanSt)) : ({ s with chan := x } : State).mem = s.mem := rfl
@[simp] theorem State.syn_of_chan (s : State) (x : List (Nat × ChanSt)) : ({ s with chan := x } : State).syn = s.syn := rfl
@[simp] theorem State.resp_of_chan (s : State) (x : List (Nat × ChanSt)) : ({ s with chan := x } : State).resp = s.resp := rfl
@[simp] theorem State.pending_of_chan (s : State) (x : List (Nat × ChanSt)) : ({ s with chan := x } : State).pending = s.pending := rfl
@[simp] theorem State.fresh_of_chan (s : State) (x : List (Nat × ChanSt)) : ({ s with chan := x } : State).fresh = s.fresh := rfl
@[simp] theorem State.regs_of_die (s : State) (x : List (Nat × DieSt)) : ({ s with die := x } : State).regs = s.regs := rfl
@[simp] theorem State.mem_of_die (s : State) (x : List (Nat × DieSt)) : ({ s with die := x } : State).mem = s.mem := rfl
@[simp] theorem State.syn_of_die (s : State) (x : List (Nat × DieSt)) : ({ s with die := x } : State).syn = s.syn := rfl
@[simp] theorem State.resp_of_die (s : State) (x : List (Nat × DieSt)) : ({ s with die := x } : State).resp = s.resp := rfl
@[simp] theorem State.pending_of_die (s : State) (x : List (Nat × DieSt)) : ({ s with die := x } : State).pending = s.pending := rfl
@[simp] theorem State.fresh_of_die (s : State) (x : List (Nat × DieSt)) : ({ s with die := x } : State).fresh = s.fresh := rfl
@[simp] theorem State.regs_of_lines (s : State) (x : Nat) : ({ s with lines := x } : State).regs = s.regs := rfl
@[simp] theorem State.mem_of_lines (s : State) (x : Nat) : ({ s with lines := x } : State).mem = s.mem := rfl
@[simp] theorem State.syn_of_lines (s : State) (x : Nat) : ({ s with lines := x } : State).syn = s.syn := rfl
@[simp] theorem State.resp_of_lines (s : State) (x : Nat) : ({ s with lines := x } : State).resp = s.resp := rfl
@[simp] theorem State.pending_of_lines (s : State) (x : Nat) : ({ s with lines := x } : State).pending = s.pending := rfl
@[simp] theorem State.fresh_of_lines (s : State) (x : Nat) : ({ s with lines := x } : State).fresh = s.fresh := rfl
@[simp] theorem State.regs_of_lcc (s : State) (x : LccSt) : ({ s with lcc := x } : State).regs = s.regs := rfl
@[simp] theorem State.mem_of_lcc (s : State) (x : LccSt) : ({ s with lcc := x } : State).mem = s.mem := rfl
@[simp] theorem State.syn_of_lcc (s : State) (x : LccSt) : ({ s with lcc := x } : State).syn = s.syn := rfl
@[simp] theorem State.resp_of_lcc (s : State) (x : LccSt) : ({ s with lcc := x } : State).resp = s.resp := rfl
@[simp] theorem State.pending_of_lcc (s : State) (x : LccSt) : ({ s with lcc := x } : State).pending = s.pending := rfl
@[simp] theorem State.fresh_of_lcc (s : State) (x : LccSt) : ({ s with lcc := x } : State).fresh = s.fresh := rfl
@[simp] theorem State.regs_of_zone (s : State) (x : Nat) : ({ s with zone := x } : State).regs = s.regs := rfl
@[simp] theorem State.mem_of_zone (s : State) (x : Nat) : ({ s with zone := x } : State).mem = s.mem := rfl
@[simp] theorem State.syn_of_zone (s : State) (x : Nat) : ({ s with zone := x } : State).syn = s.syn := rfl
@[simp] theorem State.resp_of_zone (s : State) (x : Nat) : ({ s with zone := x } : State).resp = s.resp := rfl
@[simp] theorem State.pending_of_zone (s : State) (x : Nat) : ({ s with zone := x } : State).pending = s.pending := rfl
@[simp] theorem State.fresh_of_zone (s : State) (x : Nat) : ({ s with zone := x } : State).fresh = s.fresh := rfl
@[simp] theorem State.regs_of_zoneFrac (s : State) (x : Nat) : ({ s with zoneFrac := x } : State).regs = s.regs := rfl
@[simp] theorem State.mem_of_zoneFrac (s : State) (x : Nat) : ({ s with zoneFrac := x } : State).mem = s.mem := rfl
@[simp] theorem State.syn_of_zoneFrac (s : State) (x : Nat) : ({ s with zoneFrac := x } : State).syn = s.syn := rfl
@[simp] theorem State.resp_of_zoneFrac (s : State) (x : Nat) : ({ s with zoneFrac := x } : State).resp = s.resp := rfl
@[simp] theorem State.pending_of_zoneFrac (s : State) (x : Nat) : ({ s with zoneFrac := x } : State).pending = s.pending := rfl
@[simp] theorem State.fresh_of_zoneFrac (s : State) (x : Nat) : ({ s with zoneFrac := x } : State).fresh = s.fresh := rfl
@[simp] theorem State.regs_of_time (s : State) (x : TimeSt) : ({ s with time := x } : State).regs = s.regs := rfl
@[simp] theorem State.mem_of_time (s : State) (x : TimeSt) : ({ s with time := x } : State).mem = s.mem := rfl
@[simp] theorem State.syn_of_time (s : State) (x : TimeSt) : ({ s with time := x } : State).syn = s.syn := rfl
@[simp] theorem State.resp_of_time (s : State) (x : TimeSt) : ({ s with time := x } : State).resp = s.resp := rfl
@[simp] theorem State.pending_of_time (s : State) (x : TimeSt) : ({ s with time := x } : State).pending = s.pending := rfl
@[simp] theorem State.fresh_of_time (s : State) (x : TimeSt) : ({ s with time := x } : State).fresh = s.fresh := rfl
@[simp] theorem State.regs_of_eth (s : State) (x : EthSt) : ({ s with eth := x } : State).regs = s.regs := rfl
@[simp] theorem State.mem_of_eth (s : State) (x : EthSt) : ({ s with eth := x } : State).mem = s.mem := rfl
@[simp] theorem State.syn_of_eth (s : State) (x : EthSt) : ({ s with eth := x } : State).syn = s.syn := rfl
@[simp] theorem State.resp_of_eth (s : State) (x : EthSt) : ({ s with eth := x } : State).resp = s.resp := rfl
@[simp] theorem State.pending_of_eth (s : State) (x : EthSt) : ({ s with eth := x } : State).pending = s.pending := rfl
@[simp] theorem State.fresh_of_eth (s : State) (x : EthSt) : ({ s with eth := x } : State).fresh = s.fresh := rfl
@[simp] theorem State.regs_of_can (s : State) (x : CanSt) : ({ s with can := x } : State).regs = s.regs := rfl
@[simp] theorem State.mem_of_can (s : State) (x : CanSt) : ({ s with can := x } : State).mem = s.mem := rfl
@[simp] theorem State.syn_of_can (s : State) (x : CanSt) : ({ s with can := x } : State).syn = s.syn := rfl
@[simp] theorem State.resp_of_can (s : State) (x : CanSt) : ({ s with can := x } : State).resp = s.resp := rfl
@[simp] theorem State.pending_of_can (s : State) (x : CanSt) : ({ s with can := x } : State).pending = s.pending := rfl
@[simp] theorem State.fresh_of_can (s : State) (x : CanSt) : ({ s with can := x } : State).fresh = s.fresh := rfl
@[simp] theorem State.regs_of_nmw (s : State) (x : NmwSt) : ({ s with nmw := x } : State).regs = s.regs := rfl
@[simp] theorem State.mem_of_nmw (s : State) (x : NmwSt) : ({ s with nmw := x } : State).mem = s.mem := rfl
@[simp] theorem State.syn_of_nmw (s : State) (x : NmwSt) : ({ s with nmw := x } : State).syn = s.syn := rfl
@[simp] theorem State.resp_of_nmw (s : State) (x : NmwSt) : ({ s with nmw := x } : State).resp = s.resp := rfl
@[simp] theorem State.pending_of_nmw (s : State) (x : NmwSt) : ({ s with nmw := x } : State).pending = s.pending := rfl
@[simp] theorem State.fresh_of_nmw (s : State) (x : NmwSt) : ({ s with nmw := x } : State).fresh = s.fresh := rfl
@[simp] theorem State.regs_of_md (s : State) (x : MdSt) : ({ s with md := x } : State).regs = s.regs := rfl
@[simp] theorem State.mem_of_md (s : State) (x : MdSt) : ({ s with md := x } : State).mem = s.mem := rfl
@[simp] theorem State.syn_of_md (s : State) (x : MdSt) : ({ s with md := x } : State).syn = s.syn := rfl
@[simp] theorem State.resp_of_md (s : State) (x : MdSt) : ({ s with md := x } : State).resp = s.resp := rfl
@[simp] theorem State.pending_of_md (s : State) (x : MdSt) : ({ s with md := x } : State).pending = s.pending := rfl
@[simp] theorem State.fresh_of_md (s : State) (x : MdSt) : ({ s with md := x } : State).fresh = s.fresh := rfl
@[simp] theorem State.regs_of_sns (s : State) (x : SnsSt) : ({ s with sns := x } : State).regs = s.regs := rfl
@[simp] theorem State.mem_of_sns (s : State) (x : SnsSt) : ({ s with sns := x } : State).mem = s.mem := rfl
@[simp] theorem State.syn_of_sns (s : State) (x : SnsSt) : ({ s with sns := x } : State).syn = s.syn := rfl
@[simp] theorem State.resp_of_sns (s : State) (x : SnsSt) : ({ s with sns := x } : State).resp = s.resp := rfl
@[simp] theorem State.pending_of_sns (s : State) (x : SnsSt) : ({ s with sns := x } : State).pending = s.pending := rfl
@[simp] theorem State.fresh_of_sns (s : State) (x : SnsSt) : ({ s with sns := x } : State).fresh = s.fresh := rfl
@[simp] theorem State.regs_of_recArea (s : State) (x : RecArea) : ({ s with recArea := x } : State).regs = s.regs := rfl
@[simp] theorem State.mem_of_recArea (s : State) (x : RecArea) : ({ s with recArea := x } : State).mem = s.mem := rfl
@[simp] theorem State.syn_of_recArea (s : State) (x : RecArea) : ({ s with recArea := x } : State).syn = s.syn := rfl
@[simp] theorem State.resp_of_recArea (s : State) (x : RecArea) : ({ s with recArea := x } : State).resp = s.resp := rfl
@[simp] theorem State.pending_of_recArea (s : State) (x : RecArea) : ({ s with recArea := x } : State).pending = s.pending := rfl
@[simp] theorem State.fresh_of_recArea (s : State) (x : RecArea) : ({ s with recArea := x } : State).fresh = s.fresh := rfl
@[simp] theorem State.regs_of_recorder (s : State) (x : RecSt) : ({ s with recorder := x } : State).regs = s.regs := rfl
@[simp] theorem State.mem_of_recorder (s : State) (x : RecSt) : ({ s with recorder := x } : State).mem = s.mem := rfl
@[simp] theorem State.syn_of_recorder (s : State) (x : RecSt) : ({ s with recorder := x } : State).syn = s.syn := rfl
@[simp] theorem State.resp_of_recorder (s : State) (x : RecSt) : ({ s with recorder := x } : State).resp = s.resp := rfl
@[simp] theorem State.pending_of_recorder (s : State) (x : RecSt) : ({ s with recorder := x } : State).pending = s.pending := rfl
@[simp] theorem State.fresh_of_recorder (s : State) (x : RecSt) : ({ s with recorder := x } : State).fresh = s.fresh := rfl
@[simp] theorem State.regs_of_otp (s : State) (x : OtpSt) : ({ s with otp := x } : State).regs = s.regs := rfl
@[simp] theorem State.mem_of_otp (s : State) (x : OtpSt) : ({ s with otp := x } : State).mem = s.mem := rfl
@[simp] theorem State.syn_of_otp (s : State) (x : OtpSt) : ({ s with otp := x } : State).syn = s.syn := rfl
@[simp] theorem State.resp_of_otp (s : State) (x : OtpSt) : ({ s with otp := x } : State).resp = s.resp := rfl
@[simp] theorem State.pending_of_otp (s : State) (x : OtpSt) : ({ s with otp := x } : State).pending = s.pending := rfl
@[simp] theorem State.fresh_of_otp (s : State) (x : OtpSt) : ({ s with otp := x } : State).fresh = s.fresh := rfl
@[simp] theorem State.regs_of_keys (s : State) (x : KeySt) : ({ s with keys := x } : State).regs = s.regs := rfl
@[simp] theorem State.mem_of_keys (s : State) (x : KeySt) : ({ s with keys := x } : State).mem = s.mem := rfl
@[simp] theorem State.syn_of_keys (s : State) (x : KeySt) : ({ s with keys := x } : State).syn = s.syn := rfl
@[simp] theorem State.resp_of_keys (s : State) (x : KeySt) : ({ s with keys := x } : State).resp = s.resp := rfl
@[simp] theorem State.pending_of_keys (s : State) (x : KeySt) : ({ s with keys := x } : State).pending = s.pending := rfl
@[simp] theorem State.fresh_of_keys (s : State) (x : KeySt) : ({ s with keys := x } : State).fresh = s.fresh := rfl
@[simp] theorem State.regs_of_dbg (s : State) (x : DbgSt) : ({ s with dbg := x } : State).regs = s.regs := rfl
@[simp] theorem State.mem_of_dbg (s : State) (x : DbgSt) : ({ s with dbg := x } : State).mem = s.mem := rfl
@[simp] theorem State.syn_of_dbg (s : State) (x : DbgSt) : ({ s with dbg := x } : State).syn = s.syn := rfl
@[simp] theorem State.resp_of_dbg (s : State) (x : DbgSt) : ({ s with dbg := x } : State).resp = s.resp := rfl
@[simp] theorem State.pending_of_dbg (s : State) (x : DbgSt) : ({ s with dbg := x } : State).pending = s.pending := rfl
@[simp] theorem State.fresh_of_dbg (s : State) (x : DbgSt) : ({ s with dbg := x } : State).fresh = s.fresh := rfl
@[simp] theorem State.regs_of_cohort (s : State) (x : CohortSt) : ({ s with cohort := x } : State).regs = s.regs := rfl
@[simp] theorem State.mem_of_cohort (s : State) (x : CohortSt) : ({ s with cohort := x } : State).mem = s.mem := rfl
@[simp] theorem State.syn_of_cohort (s : State) (x : CohortSt) : ({ s with cohort := x } : State).syn = s.syn := rfl
@[simp] theorem State.resp_of_cohort (s : State) (x : CohortSt) : ({ s with cohort := x } : State).resp = s.resp := rfl
@[simp] theorem State.pending_of_cohort (s : State) (x : CohortSt) : ({ s with cohort := x } : State).pending = s.pending := rfl
@[simp] theorem State.fresh_of_cohort (s : State) (x : CohortSt) : ({ s with cohort := x } : State).fresh = s.fresh := rfl

end Sys2Proof.Machine
end

