-- ==== Sys2Proof/Laws/Registers.lean ====
section
/-! SUPPORT. Register fields: what a field holds after each operation on fields, and what those operations leave alone. -/

namespace Sys2Proof.Machine

/-! ### One field -/

theorem State.get_eq (s : State) (f : Fld) : s.get f = look s.regs f.key f.reset := rfl

@[simp] theorem State.get_set_self (s : State) (f : Fld) (v : Nat) : (s.set f v).get f = v % 2 ^ f.w := by
  simp [State.get, State.set]

theorem State.get_set_ne (s : State) {f g : Fld} (h : g.key ≠ f.key) (v : Nat) : (s.set f v).get g = s.get g := by
  simp [State.get, State.set, look_ins_ne _ h]

@[simp] theorem State.get_count_self (s : State) (f : Fld) : (s.count f).get f = satInc (s.get f) f.w % 2 ^ f.w := by
  simp [State.count]

theorem State.get_count_ne (s : State) {f g : Fld} (h : g.key ≠ f.key) : (s.count f).get g = s.get g := by
  simp [State.count, State.get_set_ne _ h]

@[simp] theorem State.get_bump_self (s : State) (f : Fld) : (s.bump f).get f = (s.get f + 1) % 2 ^ f.w := by simp [State.bump]

theorem State.get_bump_ne (s : State) {f g : Fld} (h : g.key ≠ f.key) : (s.bump f).get g = s.get g := by
  simp [State.bump, State.get_set_ne _ h]

@[simp] theorem State.get_setBits_self (s : State) (f : Fld) (m : Nat) : (s.setBits f m).get f = orBits (s.get f) m % 2 ^ f.w := by
  simp [State.setBits]

theorem State.get_setBits_ne (s : State) {f g : Fld} (h : g.key ≠ f.key) (m : Nat) : (s.setBits f m).get g = s.get g := by
  simp [State.setBits, State.get_set_ne _ h]

@[simp] theorem State.get_clrBits_self (s : State) (f : Fld) (m : Nat) :
    (s.clrBits f m).get f = clearBits (s.get f) m % 2 ^ f.w := by simp [State.clrBits]

theorem State.get_clrBits_ne (s : State) {f g : Fld} (h : g.key ≠ f.key) (m : Nat) : (s.clrBits f m).get g = s.get g := by
  simp [State.clrBits, State.get_set_ne _ h]

@[simp] theorem State.setAll_nil (s : State) : s.setAll [] = s := rfl

@[simp] theorem State.setAll_cons (s : State) (p : Fld × Nat) (l : List (Fld × Nat)) :
    s.setAll (p :: l) = (s.set p.1 p.2).setAll l := rfl

theorem State.get_setAll_ne (s : State) (l : List (Fld × Nat)) {g : Fld} (h : ∀ p ∈ l, g.key ≠ p.1.key) :
    (s.setAll l).get g = s.get g := by
  induction l generalizing s with
  | nil => rfl
  | cons p t ih =>
    rw [State.setAll_cons, ih _ (fun q hq => h q (by simp [hq])), State.get_set_ne _ (h p (by simp))]

theorem State.get_resetRegs (s : State) (lo hi : Nat) (f : Fld) :
    (s.resetRegs lo hi).get f = if lo * 32 ≤ f.key ∧ f.key < hi * 32 then f.reset else s.get f := by
  simp [State.get, State.resetRegs, look_delRange]

/-! ### What field operations leave alone -/

/-- The state with a new register file keeps everything else. -/
theorem State.set_eq (s : State) (f : Fld) (v : Nat) : s.set f v = { s with regs := ins s.regs f.key (v % 2 ^ f.w) } := rfl

@[simp] theorem State.set_mem (s : State) (f : Fld) (v : Nat) : (s.set f v).mem = s.mem := rfl
@[simp] theorem State.set_syn (s : State) (f : Fld) (v : Nat) : (s.set f v).syn = s.syn := rfl
@[simp] theorem State.set_resp (s : State) (f : Fld) (v : Nat) : (s.set f v).resp = s.resp := rfl
@[simp] theorem State.set_pending (s : State) (f : Fld) (v : Nat) : (s.set f v).pending = s.pending := rfl
@[simp] theorem State.set_pwr (s : State) (f : Fld) (v : Nat) : (s.set f v).pwr = s.pwr := rfl
@[simp] theorem State.set_dbg (s : State) (f : Fld) (v : Nat) : (s.set f v).dbg = s.dbg := rfl
@[simp] theorem State.set_haltedHarts (s : State) (f : Fld) (v : Nat) : (s.set f v).haltedHarts = s.haltedHarts := rfl
@[simp] theorem State.set_awake (s : State) (f : Fld) (v : Nat) : (s.set f v).awake = s.awake := rfl

@[simp] theorem State.count_mem (s : State) (f : Fld) : (s.count f).mem = s.mem := rfl
@[simp] theorem State.count_syn (s : State) (f : Fld) : (s.count f).syn = s.syn := rfl
@[simp] theorem State.bump_mem (s : State) (f : Fld) : (s.bump f).mem = s.mem := rfl
@[simp] theorem State.bump_syn (s : State) (f : Fld) : (s.bump f).syn = s.syn := rfl
@[simp] theorem State.setBits_mem (s : State) (f : Fld) (m : Nat) : (s.setBits f m).mem = s.mem := rfl
@[simp] theorem State.setBits_syn (s : State) (f : Fld) (m : Nat) : (s.setBits f m).syn = s.syn := rfl
@[simp] theorem State.setBits_resp (s : State) (f : Fld) (m : Nat) : (s.setBits f m).resp = s.resp := rfl
@[simp] theorem State.setBits_pwr (s : State) (f : Fld) (m : Nat) : (s.setBits f m).pwr = s.pwr := rfl
@[simp] theorem State.setBits_dbg (s : State) (f : Fld) (m : Nat) : (s.setBits f m).dbg = s.dbg := rfl
@[simp] theorem State.setBits_awake (s : State) (f : Fld) (m : Nat) : (s.setBits f m).awake = s.awake := rfl
@[simp] theorem State.clrBits_mem (s : State) (f : Fld) (m : Nat) : (s.clrBits f m).mem = s.mem := rfl
@[simp] theorem State.clrBits_syn (s : State) (f : Fld) (m : Nat) : (s.clrBits f m).syn = s.syn := rfl

@[simp] theorem State.setAll_mem (s : State) (l : List (Fld × Nat)) : (s.setAll l).mem = s.mem := by
  induction l generalizing s with
  | nil => rfl
  | cons p t ih => rw [State.setAll_cons, ih]; rfl

@[simp] theorem State.setAll_syn (s : State) (l : List (Fld × Nat)) : (s.setAll l).syn = s.syn := by
  induction l generalizing s with
  | nil => rfl
  | cons p t ih => rw [State.setAll_cons, ih]; rfl

@[simp] theorem State.answer_regs (s : State) (v : Nat) : (s.answer v).regs = s.regs := rfl
@[simp] theorem State.answer_mem (s : State) (v : Nat) : (s.answer v).mem = s.mem := rfl
@[simp] theorem State.answer_syn (s : State) (v : Nat) : (s.answer v).syn = s.syn := rfl
@[simp] theorem State.answer_resp (s : State) (v : Nat) : (s.answer v).resp = ⟨false, v, false⟩ := rfl
@[simp] theorem State.get_answer (s : State) (v : Nat) (f : Fld) : (s.answer v).get f = s.get f := rfl
@[simp] theorem State.grantAt_regs (s : State) (a : Agent) (addr : Nat) : (s.grantAt a addr).regs = s.regs := by
  unfold State.grantAt; split <;> rfl
@[simp] theorem State.grantAt_mem (s : State) (a : Agent) (addr : Nat) : (s.grantAt a addr).mem = s.mem := by
  unfold State.grantAt; split <;> rfl
@[simp] theorem State.get_grantAt (s : State) (a : Agent) (addr : Nat) (f : Fld) : (s.grantAt a addr).get f = s.get f := by
  rw [State.get_eq, State.get_eq, State.grantAt_regs]
theorem State.grantAt_rest (s : State) (a : Agent) (addr : Nat) : s.grantAt a addr = { s with arb := (s.grantAt a addr).arb } := by
  unfold State.grantAt; split <;> rfl
@[simp] theorem State.answerErr_regs (s : State) : s.answerErr.regs = s.regs := rfl
@[simp] theorem State.answerErr_mem (s : State) : s.answerErr.mem = s.mem := rfl
@[simp] theorem State.answerErr_resp (s : State) : s.answerErr.resp = ⟨true, 0, false⟩ := rfl
@[simp] theorem State.get_answerErr (s : State) (f : Fld) : s.answerErr.get f = s.get f := rfl

/-! ### Raising events and settling: only pending bits move -/

/-- What may change in one step of settling: pending words, and nothing else of the state than registers. -/
structure PendOnly (s t : State) : Prop where
  get : ∀ f : Fld, pendFld f = false → t.get f = s.get f
  rest : t = { s with regs := t.regs }

theorem PendOnly.refl (s : State) : PendOnly s s := ⟨fun _ _ => rfl, rfl⟩

theorem PendOnly.trans {s t u : State} (h : PendOnly s t) (k : PendOnly t u) : PendOnly s u := by
  refine ⟨fun f hf => (k.get f hf).trans (h.get f hf), ?_⟩
  have h1 := h.rest
  have h2 := k.rest
  rw [h2, h1]

theorem PendOnly.set (s : State) {f : Fld} (hf : pendFld f = true) (v : Nat) : PendOnly s (s.set f v) := by
  refine ⟨fun g hg => State.get_set_ne s (fun e => ?_) v, rfl⟩
  have : pendFld g = pendFld f := by unfold pendFld; rw [e]
  rw [this, hf] at hg
  exact Bool.noConfusion hg

theorem pendFld_evcPend {k : Nat} (h : k < 8) : pendFld (EVC_PEND k) = true := by
  have : k = 0 ∨ k = 1 ∨ k = 2 ∨ k = 3 ∨ k = 4 ∨ k = 5 ∨ k = 6 ∨ k = 7 := by omega
  rcases this with rfl | rfl | rfl | rfl | rfl | rfl | rfl | rfl <;> decide

theorem PendOnly.setBits (s : State) {f : Fld} (hf : pendFld f = true) (m : Nat) : PendOnly s (s.setBits f m) :=
  PendOnly.set s hf _

theorem State.setPend_pendOnly (s : State) {e : Nat} (h : e < 256) : PendOnly s (s.setPend e) := by
  unfold State.setPend
  simp only
  split
  · exact PendOnly.refl s
  · have h8 : e / 32 < 8 := by omega
    split
    · exact (PendOnly.setBits s (pendFld_evcPend h8) _).trans (PendOnly.setBits _ (pendFld_evcPend (by omega)) _)
    · exact PendOnly.setBits s (pendFld_evcPend h8) _

/-- Raising an event changes pending bits only. -/
theorem State.raise_pendOnly (s : State) {e : Nat} (h : e < 256) : PendOnly s (s.raise e) := by
  unfold State.raise
  split
  · exact s.setPend_pendOnly h
  · exact PendOnly.refl s

theorem State.raiseIf_pendOnly (s : State) (c : Bool) {e : Nat} (h : e < 256) : PendOnly s (s.raiseIf c e) := by
  unfold State.raiseIf
  split
  · exact s.raise_pendOnly h
  · exact PendOnly.refl s

theorem State.foldl_pendOnly {β : Type} (l : List β) (f : State → β → State) (h : ∀ b ∈ l, ∀ s, PendOnly s (f s b)) (s : State) :
    PendOnly s (l.foldl f s) := by
  induction l generalizing s with
  | nil => exact PendOnly.refl s
  | cons b t ih =>
    exact (h b (by simp) s).trans (ih (fun c hc => h c (by simp [hc])) _)

theorem pendFld_vfEvt (f : Nat) (h : f < 32) : pendFld (VFP_VF_EVT_PEND f) = true := by
  have : ∀ g : Fin 32, pendFld (VFP_VF_EVT_PEND g) = true := by decide
  exact this ⟨f, h⟩

end Sys2Proof.Machine
end

