-- ==== Sys2Proof/Laws/Settle.lean ====
section
/-! SUPPORT. What raising events and settling the level sources does, and the frame `Moves` by which a command's changes are
collected before it is settled. -/

namespace Sys2Proof.Machine

/-! ### Bits -/

theorem bit_eq_testBit (v i : Nat) : bit v i = v.testBit i := by
  rw [Nat.testBit_eq_decide_div_mod_eq]
  unfold bit
  by_cases h : v / 2 ^ i % 2 = 1 <;> simp [h]

theorem bit_orBits (v m i w : Nat) (h : i < w) : bit (orBits v m % 2 ^ w) i = (bit v i || bit m i) := by
  simp [bit_eq_testBit, orBits, Nat.testBit_mod_two_pow, h, Nat.testBit_or]

theorem bit_two_pow (i j : Nat) : bit (2 ^ i) j = decide (i = j) := by
  rw [bit_eq_testBit, Nat.testBit_two_pow]

/-! ### Keys of the pending words -/

theorem evcPend_key (k : Nat) : (EVC_PEND k).key = 0x40010000 * 32 + 128 * k := by
  simp [Fld.key, EVC_PEND]; omega

theorem pendFld_of_pend {e : Nat} (h : e < 256) : pendFld (EVC_PEND (e / 32)) = true := pendFld_evcPend (by omega)

theorem vfPage_ge (f : Nat) : 0x41000000 ≤ vfPage f := by
  unfold vfPage
  split
  · omega
  · split <;> omega

theorem vfEvt_key_ne (f k : Nat) (h : k < 8) : (EVC_PEND k).key ≠ (VFP_VF_EVT_PEND f).key := by
  rw [evcPend_key]
  simp only [Fld.key, VFP_VF_EVT_PEND]
  have := vfPage_ge f
  omega

theorem vfPage_inj {f g : Nat} (h : f ≠ g) (hf : f < 32) (hg : g < 32) :
    (VFP_VF_EVT_PEND f).key ≠ (VFP_VF_EVT_PEND g).key := by
  simp only [Fld.key, VFP_VF_EVT_PEND, vfPage]
  split <;> split <;> (try split) <;> (try split) <;> omega

/-- A field other than the pending words has another key than any of them. -/
theorem key_ne_of_pendFld {f g : Fld} (hf : pendFld f = false) (hg : pendFld g = true) : g.key ≠ f.key := by
  intro e
  have : pendFld g = pendFld f := by unfold pendFld; rw [e]
  rw [hf, hg] at this
  exact Bool.noConfusion this

/-! ### Collecting changes -/

/-- From `s` to `t` no register field changes but `fs` and pending words; pending bits only appear, and only those of `evs` and
event 254. -/
structure Moves (fs : List Fld) (evs : List Nat) (s t : State) : Prop where
  fields : ∀ f : Fld, pendFld f = false → (∀ g ∈ fs, g.key ≠ f.key) → t.get f = s.get f
  stays : ∀ e, e < 256 → s.isPending e = true → t.isPending e = true
  appears : ∀ e, e < 256 → t.isPending e = true → s.isPending e = true ∨ e ∈ evs ∨ e = 254
  forwarded : ∀ f, f < 32 → t.get (VFP_VF_EVT_PEND f) = s.get (VFP_VF_EVT_PEND f)

theorem Moves.refl (fs : List Fld) (evs : List Nat) (s : State) : Moves fs evs s s :=
  ⟨fun _ _ _ => rfl, fun _ _ h => h, fun _ _ h => .inl h, fun _ _ => rfl⟩

theorem Moves.trans {fs : List Fld} {evs : List Nat} {s t u : State} (h : Moves fs evs s t) (k : Moves fs evs t u) :
    Moves fs evs s u := by
  refine ⟨fun f hf hg => (k.fields f hf hg).trans (h.fields f hf hg), fun e he hp => k.stays e he (h.stays e he hp),
    fun e he hp => ?_, fun f hf => (k.forwarded f hf).trans (h.forwarded f hf)⟩
  rcases k.appears e he hp with hp | hp
  · exact h.appears e he hp
  · exact .inr hp

/-- More named fields and events allow more. -/
theorem Moves.mono {fs gs : List Fld} {evs ews : List Nat} {s t : State} (h : Moves fs evs s t) (hf : ∀ f ∈ fs, f ∈ gs)
    (he : ∀ e ∈ evs, e ∈ ews) : Moves gs ews s t := by
  refine ⟨fun f hp hg => h.fields f hp (fun g hm => hg g (hf g hm)), h.stays, fun e hl hp => ?_, h.forwarded⟩
  rcases h.appears e hl hp with hp | hp | hp
  · exact .inl hp
  · exact .inr (.inl (he e hp))
  · exact .inr (.inr hp)

theorem State.isPending_set (s : State) {f : Fld} (hf : pendFld f = false) (v : Nat) {e : Nat} (he : e < 256) :
    (s.set f v).isPending e = s.isPending e := by
  unfold State.isPending
  rw [State.get_set_ne s (key_ne_of_pendFld hf (pendFld_of_pend he))]

theorem Moves.set {fs : List Fld} {evs : List Nat} (s : State) {f : Fld} (hm : f ∈ fs) (hf : pendFld f = false) (v : Nat) :
    Moves fs evs s (s.set f v) := by
  refine ⟨fun g _ hk => State.get_set_ne s (Ne.symm (hk f hm)) v, fun e he hp => ?_, fun e he hp => .inl ?_, fun g hg => ?_⟩
  · rw [s.isPending_set hf v he]; exact hp
  · rw [s.isPending_set hf v he] at hp; exact hp
  · exact State.get_set_ne s (key_ne_of_pendFld hf (pendFld_vfEvt g hg)) v

theorem Moves.count {fs : List Fld} {evs : List Nat} (s : State) {f : Fld} (hm : f ∈ fs) (hf : pendFld f = false) :
    Moves fs evs s (s.count f) := Moves.set s hm hf _

theorem Moves.setBits {fs : List Fld} {evs : List Nat} (s : State) {f : Fld} (hm : f ∈ fs) (hf : pendFld f = false) (v : Nat) :
    Moves fs evs s (s.setBits f v) := Moves.set s hm hf _

theorem Moves.clrBits {fs : List Fld} {evs : List Nat} (s : State) {f : Fld} (hm : f ∈ fs) (hf : pendFld f = false) (v : Nat) :
    Moves fs evs s (s.clrBits f v) := Moves.set s hm hf _

theorem Moves.setAll {fs : List Fld} {evs : List Nat} (s : State) (l : List (Fld × Nat)) (hm : ∀ p ∈ l, p.1 ∈ fs)
    (hf : ∀ p ∈ l, pendFld p.1 = false) : Moves fs evs s (s.setAll l) := by
  induction l generalizing s with
  | nil => exact Moves.refl ..
  | cons p t ih =>
    exact (Moves.set s (hm p (by simp)) (hf p (by simp)) p.2).trans
      (ih _ (fun q hq => hm q (by simp [hq])) (fun q hq => hf q (by simp [hq])))

/-- A state with the same register file. -/
theorem Moves.ofRegs {fs : List Fld} {evs : List Nat} {s t : State} (h : t.regs = s.regs) : Moves fs evs s t := by
  have hg : ∀ f, t.get f = s.get f := fun f => by rw [State.get_eq, State.get_eq, h]
  exact ⟨fun f _ _ => hg f, fun e _ hp => by unfold State.isPending at *; rw [hg]; exact hp,
    fun e _ hp => .inl (by unfold State.isPending at *; rw [hg] at hp; exact hp), fun f _ => hg _⟩

theorem Moves.answer {fs : List Fld} {evs : List Nat} (s : State) (v : Nat) : Moves fs evs s (s.answer v) := Moves.ofRegs rfl

theorem Moves.answerErr {fs : List Fld} {evs : List Nat} (s : State) : Moves fs evs s s.answerErr := Moves.ofRegs rfl

/-! ### Raising events -/

theorem State.isPending_setBits (s : State) {e j : Nat} (_he : e < 256) (_hj : j < 256) :
    (s.setBits (EVC_PEND (e / 32)) (2 ^ (e % 32))).isPending j = (s.isPending j || decide (e = j)) := by
  unfold State.isPending
  by_cases hk : e / 32 = j / 32
  · rw [← hk, State.get_setBits_self, show (EVC_PEND (e / 32)).w = 32 from rfl, bit_orBits _ _ _ _ (by omega), bit_two_pow]
    congr 1
    by_cases hm : e % 32 = j % 32
    · rw [hm]; simp; omega
    · simp [hm]; intro h; rw [h] at hm; exact hm rfl
  · rw [State.get_setBits_ne _ (by rw [evcPend_key, evcPend_key]; omega)]
    have : decide (e = j) = false := by simp; intro h; rw [h] at hk; exact hk rfl
    simp [this]

/-- An event becomes pending; every other pending bit but that of event 254 stays as it is. -/
theorem State.isPending_setPend (s : State) {e : Nat} (he : e < 256) : (s.setPend e).isPending e = true := by
  unfold State.setPend
  simp only
  split
  · assumption
  · split
    · rw [show (7 : Nat) = 254 / 32 from rfl, show (30 : Nat) = 254 % 32 from rfl, State.isPending_setBits _ (by omega) he,
        State.isPending_setBits _ he he]
      simp
    · rw [State.isPending_setBits _ he he]
      simp

theorem Moves.setPend {fs : List Fld} {evs : List Nat} (s : State) {e : Nat} (he : e < 256) (hm : e ∈ evs) :
    Moves fs evs s (s.setPend e) := by
  have hp := s.setPend_pendOnly he
  refine ⟨fun f hf _ => hp.get f hf, fun j hj h => ?_, fun j hj h => ?_, fun f hf => ?_⟩
  · unfold State.setPend
    simp only
    split
    · exact h
    · split
      · rw [show (7 : Nat) = 254 / 32 from rfl, show (30 : Nat) = 254 % 32 from rfl, State.isPending_setBits _ (by omega) hj,
          State.isPending_setBits _ he hj, h]
        simp
      · rw [State.isPending_setBits _ he hj, h]
        simp
  · unfold State.setPend at h
    simp only at h
    split at h
    · exact .inl h
    · split at h
      · rw [show (7 : Nat) = 254 / 32 from rfl, show (30 : Nat) = 254 % 32 from rfl, State.isPending_setBits _ (by omega) hj,
          State.isPending_setBits _ he hj] at h
        simp only [Bool.or_eq_true, decide_eq_true_eq] at h
        rcases h with (h | h) | h
        · exact .inl h
        · exact .inr (.inl (h ▸ hm))
        · exact .inr (.inr h.symm)
      · rw [State.isPending_setBits _ he hj] at h
        simp only [Bool.or_eq_true, decide_eq_true_eq] at h
        rcases h with h | h
        · exact .inl h
        · exact .inr (.inl (h ▸ hm))
  · unfold State.setPend
    simp only
    split
    · rfl
    · split
      · rw [State.get_setBits_ne _ (vfEvt_key_ne f 7 (by omega)).symm, State.get_setBits_ne _ (vfEvt_key_ne f _ (by omega)).symm]
      · rw [State.get_setBits_ne _ (vfEvt_key_ne f _ (by omega)).symm]

/-- Raising an event whose unit can raise it makes it pending. -/
theorem State.isPending_raise (s : State) {e : Nat} (he : e < 256) (hl : eventLive s e = true) : (s.raise e).isPending e = true := by
  unfold State.raise
  rw [if_pos hl]
  exact s.isPending_setPend he

theorem Moves.raise {fs : List Fld} {evs : List Nat} (s : State) {e : Nat} (he : e < 256) (hm : e ∈ evs) :
    Moves fs evs s (s.raise e) := by
  unfold State.raise
  split
  · exact Moves.setPend s he hm
  · exact Moves.refl ..

theorem Moves.raiseIf {fs : List Fld} {evs : List Nat} (s : State) (c : Bool) {e : Nat} (he : e < 256) (hm : e ∈ evs) :
    Moves fs evs s (s.raiseIf c e) := by
  unfold State.raiseIf
  split
  · exact Moves.raise s he hm
  · exact Moves.refl ..

theorem Moves.foldl {fs : List Fld} {evs : List Nat} {β : Type} (l : List β) (f : State → β → State)
    (h : ∀ b ∈ l, ∀ s, Moves fs evs s (f s b)) (s : State) : Moves fs evs s (l.foldl f s) := by
  induction l generalizing s with
  | nil => exact Moves.refl ..
  | cons b t ih => exact (h b (by simp) s).trans (ih (fun c hc => h c (by simp [hc])) _)

/-! ### Settling -/

theorem levelEvents_lt : ∀ e ∈ levelEvents, e < 256 := by decide

/-- A field between the pending words of the EVC and the doorbell pages. -/
theorem pendFld_of_addr {f : Fld} (h : 0x40010020 ≤ f.addr) (h' : f.addr < 0x40fffffe) (hl : f.lo < 32) : pendFld f = false := by
  have hk : f.key = f.addr * 32 + f.lo := rfl
  have h1 : ¬ f.key < 0x40010020 * 32 := by omega
  have h2 : ¬ 0x41000000 * 32 ≤ f.key := by omega
  unfold pendFld
  rw [decide_eq_false h1, decide_eq_false h2]
  simp

/-- An event is forwarded to one of the 32 functions. -/
theorem State.forwardTo_lt {s : State} {e f : Nat} (h : s.forwardTo e = some f) : f < 32 := by
  unfold State.forwardTo State.forwardedVf at h
  split at h
  · split at h
    · rw [← Option.some.inj h]; omega
    · cases h
  · cases h

theorem State.settleFwd_step (s : State) (e : Nat) :
    PendOnly s (match s.forwardTo e with
      | some f => if s.get (VFM_VF_STATE_STATE f) = 0 then s else s.setBits (VFP_VF_EVT_PEND f) 128
      | none => s) := by
  split
  · rename_i f hf
    split
    · exact PendOnly.refl s
    · exact PendOnly.setBits s (pendFld_vfEvt f (State.forwardTo_lt hf)) _
  · exact PendOnly.refl s

/-- Settling changes pending words only. -/
theorem State.settle_pendOnly (s : State) : PendOnly s s.settle := by
  unfold State.settle
  refine (State.foldl_pendOnly levelEvents (fun s e => s.raiseIf (s.levelHolds e) e)
    (fun e he s => s.raiseIf_pendOnly _ (levelEvents_lt e he)) s).trans ?_
  · unfold State.settleFwd
    split
    · exact PendOnly.refl _
    · exact State.foldl_pendOnly _ _ (fun e _ s => s.settleFwd_step e) _

/-- Settling leaves every field but the pending words as it is. -/
theorem State.get_settle (s : State) {f : Fld} (h : pendFld f = false) : s.settle.get f = s.get f := s.settle_pendOnly.get f h

/-- Settling changes registers only. -/
theorem State.settle_rest (s : State) : s.settle = { s with regs := s.settle.regs } := s.settle_pendOnly.rest

/-- Two states with the same registers but pending words, and with the same rest, have the same level conditions. -/
theorem PendOnly.levelHolds {s t : State} (h : PendOnly s t) (e : Nat) : t.levelHolds e = s.levelHolds e := by
  have hr := h.rest
  have hl : t.haltedHarts = s.haltedHarts := by rw [hr]
  have hp : t.pwr = s.pwr := by rw [hr]
  have hc : ∀ k, k ≤ 12 → t.get (CAN_STAT_STATE k) = s.get (CAN_STAT_STATE k) := fun k hk => h.get _
    (pendFld_of_addr (by simp only [CAN_STAT_STATE]; omega) (by simp only [CAN_STAT_STATE]; omega) (by simp only [CAN_STAT_STATE]; omega))
  have hc' : ∀ k, k ≤ 12 → t.get (CAN_STAT_RECOVERING k) = s.get (CAN_STAT_RECOVERING k) := fun k hk => h.get _
    (pendFld_of_addr (by simp only [CAN_STAT_RECOVERING]; omega) (by simp only [CAN_STAT_RECOVERING]; omega) (by simp only [CAN_STAT_RECOVERING]; omega))
  unfold State.levelHolds
  split <;> simp only [State.on, State.hbRuns, State.hbBlocked, State.linkUp, State.link, hl, hp,
    h.get PWR_STAT_VLOW (by decide), h.get PWR_STAT_VHIGH (by decide), h.get PWR_TEMP (by decide),
    h.get (VOTE_STAT_GROUP 0) (by decide), h.get (VOTE_STAT_GROUP 1) (by decide), h.get IST_STAT_SG0_OVERDUE (by decide),
    h.get IST_STAT_SG1_OVERDUE (by decide), h.get BRG_CTL_HB_EN (by decide), h.get BRG_STAT_LINK (by decide),
    h.get BRG_CTL_HB_DBG_STOP (by decide), h.get LCC_LOAD_MEAN (by decide), h.get TIME_STAT_CLAMP (by decide),
    h.get NMW_STAT_ALL_ASLEEP (by decide), h.get SYS_KEYCNT_HWM (by decide), h.get SYS_LC_LC_GEN (by decide)]
  by_cases hr : 144 ≤ e ∧ e < 192 ∧ e % 4 = 1
  · have : (e - 144) / 4 ≤ 12 := by omega
    rw [hc _ this, hc' _ this]
  · simp [hr]

theorem PendOnly.eventLive {s t : State} (h : PendOnly s t) (e : Nat) : eventLive t e = eventLive s e := by
  have hr := h.rest
  have hd : t.dbg = s.dbg := by rw [hr]
  have hp : t.pwr = s.pwr := by rw [hr]
  unfold Sys2Proof.Machine.eventLive State.awake Block.gated Block.fenced Block.stalled State.islandStalls
  rw [hp, hd, h.get CLK_BLK_GATE (by decide)]

/-- Settling leaves the level conditions as they are. -/
theorem State.levelHolds_settle (s : State) (e : Nat) : s.settle.levelHolds e = s.levelHolds e := s.settle_pendOnly.levelHolds e

/-- No pending bit is lost by forwarding. -/
theorem State.isPending_setFwd (s : State) (f : Nat) (m : Nat) {e : Nat} (he : e < 256) :
    (s.setBits (VFP_VF_EVT_PEND f) m).isPending e = s.isPending e := by
  unfold State.isPending
  rw [State.get_setBits_ne _ (vfEvt_key_ne f _ (by omega))]

theorem State.isPending_settleFwd (s : State) {e : Nat} (he : e < 256) : s.settleFwd.isPending e = s.isPending e := by
  unfold State.settleFwd
  split
  · rfl
  · rename_i hz
    clear hz
    generalize List.range 256 = l
    induction l generalizing s with
    | nil => rfl
    | cons b t ih =>
      rw [List.foldl_cons, ih]
      split
      · split
        · rfl
        · exact s.isPending_setFwd _ _ he
      · rfl

/-- Raising the level sources whose conditions hold. -/
theorem State.isPending_levels (l : List Nat) (hl : ∀ e ∈ l, e < 256) (s : State) (e : Nat) (he : e < 256) :
    ((s.isPending e = true → (l.foldl (fun s e => s.raiseIf (s.levelHolds e) e) s).isPending e = true)
    ∧ ((l.foldl (fun s e => s.raiseIf (s.levelHolds e) e) s).isPending e = true →
        s.isPending e = true ∨ e = 254 ∨ (e ∈ l ∧ s.levelHolds e = true))
    ∧ (e ∈ l → eventLive s e = true → s.levelHolds e = true →
        (l.foldl (fun s e => s.raiseIf (s.levelHolds e) e) s).isPending e = true)) := by
  induction l generalizing s with
  | nil => exact ⟨fun h => h, fun h => .inl h, fun h => by simp at h⟩
  | cons b t ih =>
    rw [List.foldl_cons]
    have hb : b < 256 := hl b (by simp)
    have hpo := s.raiseIf_pendOnly (s.levelHolds b) hb
    have hmv : Moves [] [b] s (s.raiseIf (s.levelHolds b) b) := Moves.raiseIf s _ hb (by simp)
    obtain ⟨h1, h2, h3⟩ := ih (fun e he => hl e (by simp [he])) (s.raiseIf (s.levelHolds b) b)
    refine ⟨fun h => h1 (hmv.stays e he h), fun h => ?_, fun hm hlv hh => ?_⟩
    · rcases h2 h with h | h | ⟨hm, h⟩
      · rcases hmv.appears e he h with h' | h' | h'
        · exact .inl h'
        · have : e = b := by simpa using h'
          subst this
          by_cases hh : s.levelHolds e = true
          · exact .inr (.inr ⟨by simp, hh⟩)
          · rw [State.raiseIf, if_neg hh] at h
            exact .inl h
        · exact .inr (.inl h')
      · exact .inr (.inl h)
      · exact .inr (.inr ⟨by simp [hm], by rw [hpo.levelHolds] at h; exact h⟩)
    · rcases List.mem_cons.1 hm with rfl | hm
      · refine h1 ?_
        rw [State.raiseIf, if_pos hh]
        exact s.isPending_raise he hlv
      · exact h3 hm (by rw [hpo.eventLive]; exact hlv) (by rw [hpo.levelHolds]; exact hh)

theorem State.isPending_settle (s : State) {e : Nat} (he : e < 256) (h : s.isPending e = true) : s.settle.isPending e = true := by
  unfold State.settle
  rw [State.isPending_settleFwd _ he]
  exact (State.isPending_levels levelEvents levelEvents_lt s e he).1 h

theorem State.isPending_of_settle (s : State) {e : Nat} (he : e < 256) (h : s.settle.isPending e = true) :
    s.isPending e = true ∨ e = 254 ∨ (e ∈ levelEvents ∧ s.levelHolds e = true) := by
  unfold State.settle at h
  rw [State.isPending_settleFwd _ he] at h
  exact (State.isPending_levels levelEvents levelEvents_lt s e he).2.1 h

/-- A settled state has every level source whose condition holds pending (R39). -/
theorem State.levelsPending_settle (s : State) : s.settle.levelsPending = true := by
  unfold State.levelsPending
  rw [List.all_eq_true]
  intro e he
  have hlt := levelEvents_lt e he
  rw [s.settle_pendOnly.levelHolds, s.settle_pendOnly.eventLive]
  by_cases h : eventLive s e && s.levelHolds e
  · simp only [Bool.and_eq_true] at h
    have := (State.isPending_levels levelEvents levelEvents_lt s e hlt).2.2 he h.1 h.2
    unfold State.settle
    rw [State.isPending_settleFwd _ hlt, this]
    simp
  · simp [h]

theorem State.get_vfEvt_settle (s : State) {f : Nat} (hf : f < 32) :
    s.settle.get (VFP_VF_EVT_PEND f) = s.get (VFP_VF_EVT_PEND f)
    ∨ s.settle.get (VFP_VF_EVT_PEND f) = orBits (s.get (VFP_VF_EVT_PEND f)) 128 % 2 ^ (VFP_VF_EVT_PEND f).w := by
  have h1 : (levelEvents.foldl (fun s e => s.raiseIf (s.levelHolds e) e) s).get (VFP_VF_EVT_PEND f) = s.get (VFP_VF_EVT_PEND f) :=
    (Moves.foldl (fs := []) (evs := List.range 256) levelEvents _
      (fun e he s => Moves.raiseIf s _ (levelEvents_lt e he) (List.mem_range.2 (levelEvents_lt e he))) s).forwarded f hf
  unfold State.settle
  generalize hu : levelEvents.foldl (fun s e => s.raiseIf (s.levelHolds e) e) s = u at h1
  rw [← h1]
  clear h1 hu
  unfold State.settleFwd
  split
  · exact .inl rfl
  · generalize List.range 256 = l
    suffices h : ∀ v : State, (v.get (VFP_VF_EVT_PEND f) = u.get (VFP_VF_EVT_PEND f)
        ∨ v.get (VFP_VF_EVT_PEND f) = orBits (u.get (VFP_VF_EVT_PEND f)) 128 % 2 ^ (VFP_VF_EVT_PEND f).w) →
        ((l.foldl (fun s e => match s.forwardTo e with
          | some f => if s.get (VFM_VF_STATE_STATE f) = 0 then s else s.setBits (VFP_VF_EVT_PEND f) 128
          | none => s) v).get (VFP_VF_EVT_PEND f) = u.get (VFP_VF_EVT_PEND f)
        ∨ (l.foldl (fun s e => match s.forwardTo e with
          | some f => if s.get (VFM_VF_STATE_STATE f) = 0 then s else s.setBits (VFP_VF_EVT_PEND f) 128
          | none => s) v).get (VFP_VF_EVT_PEND f) = orBits (u.get (VFP_VF_EVT_PEND f)) 128 % 2 ^ (VFP_VF_EVT_PEND f).w) from
      h u (.inl rfl)
    induction l with
    | nil => exact fun v h => h
    | cons b t ih =>
      intro v h
      rw [List.foldl_cons]
      refine ih _ ?_
      split
      · rename_i g hg
        split
        · exact h
        · have hg32 : g < 32 := State.forwardTo_lt hg
          by_cases hfg : f = g
          · subst hfg
            rw [State.get_setBits_self]
            rcases h with h | h
            · exact .inr (by rw [h])
            · refine .inr ?_
              rw [h]
              have hw : (VFP_VF_EVT_PEND f).w = 8 := rfl
              rw [hw]
              apply Nat.eq_of_testBit_eq
              intro i
              simp only [orBits, Nat.testBit_mod_two_pow, Nat.testBit_or]
              cases decide (i < 8) <;> simp
          · rw [State.get_setBits_ne _ (vfPage_inj hfg hf hg32)]
            exact h
      · exact h

/-- A command's changes, settled. -/
theorem Moves.settle {fs : List Fld} {evs : List Nat} {s t : State} (h : Moves fs evs s t) : Keeps fs evs s t.settle := by
  refine ⟨fun f hf hg => (t.get_settle hf).trans (h.fields f hf hg), fun e he hp => t.isPending_settle he (h.stays e he hp),
    fun e he hp => ?_, fun f hf => ?_⟩
  · rcases t.isPending_of_settle he hp with hp | hp | ⟨hm, hp⟩
    · rcases h.appears e he hp with hp | hp | hp
      · exact .inl hp
      · exact .inr (.inl hp)
      · exact .inr (.inr (.inl hp))
    · exact .inr (.inr (.inl hp))
    · exact .inr (.inr (.inr ⟨hm, by rw [t.levelHolds_settle]; exact hp⟩))
  · rw [← h.forwarded f hf]
    exact t.get_vfEvt_settle hf

end Sys2Proof.Machine
end

