-- ==== Sys2Proof/Laws/Memory.lean ====
section
/-! SUPPORT. Memory: a read after a write, and that every memory operation keeps the canonical form. -/

namespace Sys2Proof.Machine

/-! ### Reads after writes -/

@[simp] theorem State.readByte_writeByte_self (s : State) (a : Nat) (b : Byte) : (s.writeByte a b).readByte a = b := by
  unfold State.readByte State.writeByte
  split
  · simp [*]
  · simp

theorem State.readByte_writeByte_ne (s : State) {a c : Nat} (h : c ≠ a) (b : Byte) : (s.writeByte a b).readByte c = s.readByte c := by
  unfold State.readByte State.writeByte
  simp only
  split
  · exact look_del_ne _ h _
  · exact look_ins_ne _ h _ _

/-- Bytes outside the ones written read as before. -/
theorem State.readByte_writeBytes_ne (s : State) (l : List Byte) {a c : Nat} (h : c < a ∨ a + l.length ≤ c) :
    (s.writeBytes a l).readByte c = s.readByte c := by
  induction l generalizing s a with
  | nil => rfl
  | cons b t ih =>
    simp only [List.length_cons] at h
    rw [State.writeBytes, ih _ (by omega), State.readByte_writeByte_ne _ (by omega)]

/-- A byte written reads back. -/
theorem State.readByte_writeBytes (s : State) (l : List Byte) {a i : Nat} (h : i < l.length) :
    (s.writeBytes a l).readByte (a + i) = l[i] := by
  induction l generalizing s a i with
  | nil => exact absurd h (Nat.not_lt_zero _)
  | cons b t ih =>
    rw [State.writeBytes]
    cases i with
    | zero =>
      rw [State.readByte_writeBytes_ne _ _ (by omega)]
      simp
    | succ i =>
      rw [show a + (i + 1) = a + 1 + i by omega, ih _ (by simpa using h)]
      simp

theorem State.readByte_zeroFill (s : State) (lo hi a : Nat) :
    (s.zeroFill lo hi).readByte a = if lo ≤ a ∧ a < hi then 0 else s.readByte a := by
  unfold State.readByte State.zeroFill
  exact look_delRange _ _ _ _ _

@[simp] theorem State.readByte_setSyn (s : State) (w v a : Nat) : (s.setSyn w v).readByte a = s.readByte a := rfl
@[simp] theorem State.readByte_set (s : State) (f : Fld) (v a : Nat) : (s.set f v).readByte a = s.readByte a := rfl
@[simp] theorem State.readByte_answer (s : State) (v a : Nat) : (s.answer v).readByte a = s.readByte a := rfl

@[simp] theorem State.synOf_setSyn_self (s : State) (w v : Nat) : (s.setSyn w v).synOf w = v := by
  unfold State.synOf State.setSyn
  split
  · simp [*]
  · simp

theorem State.synOf_setSyn_ne (s : State) {w x : Nat} (h : x ≠ w) (v : Nat) : (s.setSyn w v).synOf x = s.synOf x := by
  unfold State.synOf State.setSyn
  simp only
  split
  · exact look_del_ne _ h _
  · exact look_ins_ne _ h _ _

/-! ### What reports and settling leave alone -/

@[simp] theorem State.settle_mem (s : State) : s.settle.mem = s.mem := by rw [s.settle_rest]
@[simp] theorem State.settle_syn (s : State) : s.settle.syn = s.syn := by rw [s.settle_rest]
@[simp] theorem State.settle_resp (s : State) : s.settle.resp = s.resp := by rw [s.settle_rest]
@[simp] theorem State.settle_pwr (s : State) : s.settle.pwr = s.pwr := by rw [s.settle_rest]
@[simp] theorem State.settle_dbg (s : State) : s.settle.dbg = s.dbg := by rw [s.settle_rest]
@[simp] theorem State.readByte_settle (s : State) (a : Nat) : s.settle.readByte a = s.readByte a := by
  unfold State.readByte; rw [State.settle_mem]

theorem State.setPend_rest (s : State) (e : Nat) : s.setPend e = { s with regs := (s.setPend e).regs } := by
  unfold State.setPend
  simp only
  split
  · rfl
  · split <;> rfl

/-- Raising an event changes registers only. -/
theorem State.raise_rest (s : State) (e : Nat) : s.raise e = { s with regs := (s.raise e).regs } := by
  unfold State.raise
  split
  · exact s.setPend_rest e
  · rfl

theorem State.raiseIf_rest (s : State) (c : Bool) (e : Nat) : s.raiseIf c e = { s with regs := (s.raiseIf c e).regs } := by
  unfold State.raiseIf
  split
  · exact s.raise_rest e
  · rfl

theorem State.setAll_rest (s : State) (l : List (Fld × Nat)) : s.setAll l = { s with regs := (s.setAll l).regs } := by
  induction l generalizing s with
  | nil => rfl
  | cons p t ih => rw [State.setAll_cons, ih]; rfl

@[simp] theorem State.raise_mem (s : State) (e : Nat) : (s.raise e).mem = s.mem := by rw [s.raise_rest]
@[simp] theorem State.raise_syn (s : State) (e : Nat) : (s.raise e).syn = s.syn := by rw [s.raise_rest]
@[simp] theorem State.raise_resp (s : State) (e : Nat) : (s.raise e).resp = s.resp := by rw [s.raise_rest]
@[simp] theorem State.readByte_raise (s : State) (e a : Nat) : (s.raise e).readByte a = s.readByte a := by
  unfold State.readByte; rw [State.raise_mem]

/-- Checking a codeword reports, and leaves memory alone. -/
theorem State.codeReport_rest (s : State) (addr unit syn : Nat) :
    s.codeReport addr unit syn = { s with regs := (s.codeReport addr unit syn).regs } := by
  unfold State.codeReport
  split
  · rfl
  · simp only
    rw [State.raise_rest]
    split
    · rfl
    · rw [State.setAll_rest]; rfl
  · simp only
    rw [State.raise_rest]
    split
    · rfl
    · rw [State.setAll_rest]; rfl

@[simp] theorem State.codeReport_mem (s : State) (addr unit syn : Nat) : (s.codeReport addr unit syn).mem = s.mem := by
  rw [s.codeReport_rest]
@[simp] theorem State.codeReport_syn (s : State) (addr unit syn : Nat) : (s.codeReport addr unit syn).syn = s.syn := by
  rw [s.codeReport_rest]

@[simp] theorem State.checkWords_mem (s : State) (addr len unit : Nat) : (s.checkWords addr len unit).mem = s.mem := by
  unfold State.checkWords
  generalize wordsOf addr len = l
  induction l generalizing s with
  | nil => rfl
  | cons w t ih => rw [List.foldl_cons, ih]; simp

@[simp] theorem State.checkView_mem (s : State) (addr len unit : Nat) : (s.checkView addr len unit).mem = s.mem := by
  unfold State.checkView
  generalize wordsOf addr len = l
  induction l generalizing s with
  | nil => rfl
  | cons w t ih => rw [List.foldl_cons, ih]; simp

@[simp] theorem State.fabError_mem (s : State) (a : Agent) (addr cause tport : Nat) : (s.fabError a addr cause tport).mem = s.mem := by
  unfold State.fabError
  simp only [State.raise_mem]
  split <;> simp

@[simp] theorem State.worldRefusal_mem (s : State) (a : Agent) (addr cause : Nat) (w : Bool) :
    (s.worldRefusal a addr cause w).mem = s.mem := by
  unfold State.worldRefusal
  simp only [State.raise_mem, State.count_mem]
  split <;> simp

@[simp] theorem State.fifoError_mem (s : State) (n cause : Nat) : (s.fifoError n cause).mem = s.mem := by
  unfold State.fifoError
  simp only [State.raise_mem, State.count_mem]
  split <;> simp

/-! ### The canonical form -/

theorem memWf_nil : Memory.wf [] = true := rfl

theorem memWf_iff (m : List Host.Cell) : Memory.wf m = true ↔ rising m = true ∧ ∀ c ∈ m, c.2 ≠ 0 := by
  unfold Memory.wf
  simp [List.all_eq_true]

theorem memWf_filter (p : Host.Cell → Bool) {m : List Host.Cell} (h : Memory.wf m = true) : Memory.wf (m.filter p) = true := by
  rw [memWf_iff] at *
  exact ⟨rising_filter p h.1, fun c hc => h.2 c (List.mem_filter.1 hc).1⟩

theorem memWf_del {m : List Host.Cell} (h : Memory.wf m = true) (a : Nat) : Memory.wf (del m a) = true := memWf_filter _ h

theorem memWf_delRange {m : List Host.Cell} (h : Memory.wf m = true) (lo hi : Nat) : Memory.wf (delRange m lo hi) = true := memWf_filter _ h

theorem memWf_ins {m : List Host.Cell} (h : Memory.wf m = true) (a : Nat) {b : Byte} (hb : b ≠ 0) : Memory.wf (ins m a b) = true := by
  rw [memWf_iff] at *
  refine ⟨rising_ins h.1 a b, fun c hc => ?_⟩
  rcases mem_ins hc with rfl | hc
  · exact hb
  · exact h.2 c hc

theorem State.memOk_reset : State.reset.memOk = true := rfl

theorem State.memOk_writeByte {s : State} (h : s.memOk = true) (a : Nat) (b : Byte) : (s.writeByte a b).memOk = true := by
  unfold State.memOk State.writeByte at *
  simp only
  split
  · exact memWf_del h a
  · exact memWf_ins h a ‹_›

theorem State.memOk_writeBytes {s : State} (h : s.memOk = true) (l : List Byte) (a : Nat) : (s.writeBytes a l).memOk = true := by
  induction l generalizing s a with
  | nil => exact h
  | cons b t ih => exact ih (State.memOk_writeByte h a b) (a + 1)

theorem State.memOk_zeroFill {s : State} (h : s.memOk = true) (lo hi : Nat) : (s.zeroFill lo hi).memOk = true :=
  memWf_delRange h lo hi

theorem State.memOk_setSyn {s : State} (h : s.memOk = true) (w v : Nat) : (s.setSyn w v).memOk = true := h

theorem State.memOk_flipStored {s : State} (h : s.memOk = true) (w b : Nat) : (s.flipStored w b).memOk = true := by
  unfold State.flipStored
  simp only
  split
  · exact State.memOk_writeByte h _ _
  · exact h

theorem State.memOk_correctStored {s : State} (h : s.memOk = true) (w : Nat) : (s.correctStored w).memOk = true := by
  unfold State.correctStored
  split
  · exact State.memOk_flipStored h _ _
  · exact h

theorem State.memOk_codeReport {s : State} (h : s.memOk = true) (addr unit syn : Nat) : (s.codeReport addr unit syn).memOk = true := by
  unfold State.memOk at *; rw [State.codeReport_mem]; exact h

theorem State.memOk_settle {s : State} (h : s.memOk = true) : s.settle.memOk = true := by
  unfold State.memOk at *; rw [State.settle_mem]; exact h

theorem State.memOk_writeWord {s : State} (h : s.memOk = true) (addr len unit w : Nat) (data : List Byte) :
    (s.writeWord addr len unit w data).2.memOk = true := by
  unfold State.writeWord
  simp only
  split
  · exact State.memOk_writeBytes h _ _
  · split
    · exact State.memOk_codeReport h _ _ _
    · exact State.memOk_writeBytes (State.memOk_correctStored (State.memOk_codeReport h _ _ _) _) _ _

theorem State.memOk_writeMem {s : State} (h : s.memOk = true) (addr unit : Nat) (data : List Byte) :
    (s.writeMem addr unit data).2.memOk = true := by
  unfold State.writeMem
  generalize wordsOf addr data.length = l
  suffices hs : ∀ r : Bool × State, r.2.memOk = true → ((l.foldl (fun (r : Bool × State) w =>
      let q := r.2.writeWord addr data.length unit w data
      (r.1 && q.1, q.2)) r).2).memOk = true from hs _ h
  induction l with
  | nil => exact fun r hr => hr
  | cons w t ih => exact fun r hr => ih _ (State.memOk_writeWord hr _ _ _ _ _)

theorem State.fifoRefuses_mem {s t : State} {a : Agent} {w : Bool} {addr len : Nat} (hg : s.fifoRefuses a w addr len = some t) :
    t.mem = s.mem := by
  unfold State.fifoRefuses at hg
  split at hg
  · cases hg
  · split at hg
    · split at hg
      · cases hg
      · rw [← Option.some.inj hg]; simp
    · split at hg
      · rw [← Option.some.inj hg]
      · cases hg

/-- A refused access changes no byte. -/
theorem State.memGate_mem {s t : State} {a : Agent} {w : Bool} {addr len : Nat} (hg : s.memGate a w addr len = some t) :
    t.mem = s.mem := by
  unfold State.memGate at hg
  split at hg
  · rw [← Option.some.inj hg]; simp
  · split at hg
    · rw [← Option.some.inj hg]
    · split at hg
      · rw [← Option.some.inj hg]; simp
      · split at hg
        · rw [← Option.some.inj hg]
        · exact State.fifoRefuses_mem hg

theorem State.memOk_writeArrays {s : State} (h : s.memOk = true) (l : List Nat) (addr unit : Nat) (data : List Byte) (b : Bool) :
    (l.foldl (fun (r : Bool × State) k =>
      (r.1 && (r.2.writeMem (arrayAddr k addr) unit data).1, (r.2.writeMem (arrayAddr k addr) unit data).2)) (b, s)).2.memOk
      = true := by
  induction l generalizing s b with
  | nil => exact h
  | cons k t ih => exact ih (State.memOk_writeMem h _ _ _) _

/-- Grants change no byte. -/
theorem State.grants_mem (s : State) (a : Agent) (t n : Nat) : (s.grants a t n).mem = s.mem := by
  unfold State.grants
  generalize List.range ((n + 3) / 4) = l
  induction l generalizing s with
  | nil => rfl
  | cons k t ih => rw [List.foldl_cons, ih]; rfl

theorem State.grantsAt_mem (s : State) (a : Agent) (addr len : Nat) : (s.grantsAt a addr len).mem = s.mem := by
  unfold State.grantsAt
  split
  · exact State.grants_mem ..
  · rfl

/-- An engine's write keeps memory canonical. -/
theorem State.memOk_memWrite {s : State} (h : s.memOk = true) (a : Agent) (addr : Nat) (data : List Byte) :
    (s.memWrite a addr data).2.memOk = true := by
  unfold State.memWrite
  split
  · exact h
  · split
    · rename_i t ht
      unfold State.memOk at *
      rw [State.memGate_mem ht]
      exact h
    · exact State.memOk_writeArrays h _ _ _ _ _

theorem State.memOk_busWrite {s : State} (h : s.memOk = true) (a : Agent) (addr : Nat) (data : List Byte) :
    (s.busWrite a addr data).2.memOk = true := by
  refine State.memOk_memWrite ?_ a addr data
  unfold State.memOk at *; rw [State.grantsAt_mem]; exact h

/-- An engine's read changes no byte. -/
theorem State.memRead_mem (s : State) (a : Agent) (addr len : Nat) : (s.memRead a addr len).2.mem = s.mem := by
  unfold State.memRead
  split
  · rfl
  · split
    · rename_i t ht
      exact State.memGate_mem ht
    · simp only
      split <;> simp

theorem State.busRead_mem (s : State) (a : Agent) (addr len : Nat) : (s.busRead a addr len).2.mem = s.mem :=
  (State.memRead_mem _ a addr len).trans (State.grantsAt_mem s a addr len)

theorem State.memOk_passWord {s : State} (h : s.memOk = true) (a : Agent) (src dst : Nat) : (s.passWord a src dst).memOk = true := by
  unfold State.passWord
  refine State.memOk_setSyn (State.memOk_writeBytes (State.memOk_codeReport ?_ _ _ _) _ _) _ _
  unfold State.memOk at *
  rw [State.grantAt_mem, State.grantAt_mem]
  exact h

end Sys2Proof.Machine
end

