-- ==== Sys2Proof/Laws/Gates.lean ====
section
/-! SUPPORT. What the shared forms of a command's meaning answer. -/

namespace Sys2Proof.Machine

theorem State.refuse_pass {s : State} {a : Agent} {addr : Nat} {w : Bool} (h : s.gate a addr w = .pass) :
    s.refuse a addr w = none := by
  unfold State.refuse; rw [h]

/-- A register write that reaches its register acts, and is answered. -/
theorem regCommand_pass {a : Agent} {addr : Nat} {s : State} (h : s.gate a addr true = .pass) (act : State → State) :
    regCommand a addr s act = .next ((act (s.grantAt a addr)).answer 0).settle := by
  unfold regCommand; rw [State.refuse_pass h]; rfl

/-- What `regCommand` answers at all: the refusal's captures or the action, settled. -/
theorem regCommand_next (a : Agent) (addr : Nat) (s : State) (act : State → State) :
    ∃ u : State, regCommand a addr s act = .next u.settle := by
  unfold regCommand
  split
  · exact ⟨_, rfl⟩
  · exact ⟨_, rfl⟩

/-- A write that meets no block or no open gate changes memory in nothing. -/
theorem State.refuse_mem {s t : State} {a : Agent} {addr : Nat} {w : Bool} (h : s.refuse a addr w = some t) : t.mem = s.mem := by
  unfold State.refuse at h
  split at h
  · cases h
  · rw [← Option.some.inj h]
  · rw [← Option.some.inj h]
  · rw [← Option.some.inj h]; simp
  · rw [← Option.some.inj h]; simp
  · rw [← Option.some.inj h]; simp
  · rw [← Option.some.inj h]
    split <;> simp

theorem whenAwake_awake {s : State} (h : s.awake = true) (act : State → State) : whenAwake s act = .next (act s).settle := by
  unfold whenAwake; rw [if_pos h]; rfl

theorem whenAwake_asleep {s : State} (h : s.awake = false) (act : State → State) : whenAwake s act = .next s := by
  unfold whenAwake; rw [h]; rfl

theorem whenLive_live {b : Block} {s : State} (h : b.live s = true) (act : State → State) :
    whenLive b s act = .next (act s).settle := by
  unfold whenLive; rw [if_pos h]; rfl

theorem whenLive_idle {b : Block} {s : State} (h : b.live s = false) (act : State → State) : whenLive b s act = .next s := by
  unfold whenLive; rw [h]; rfl

/-- A register write that reaches its register and changes only fields, pending words and the arbiters' turns, settled and answered. -/
theorem Moves.writes {fs : List Fld} {evs : List Nat} {s u : State} (h : Moves fs evs s u) (hr : u = { s with regs := u.regs, arb := u.arb }) :
    Writes fs evs s (u.answer 0).settle := by
  refine ⟨(h.trans (Moves.answer u 0)).settle, ?_⟩
  have h1 := (u.answer 0).settle_rest
  unfold Answered
  rw [h1, State.answer, hr]

/-- An event that changes only fields and pending words, settled. -/
theorem Moves.changes {fs : List Fld} {evs : List Nat} {s u : State} (h : Moves fs evs s u) (hr : u = { s with regs := u.regs }) :
    Changes fs evs s u.settle := by
  refine ⟨h.settle, ?_⟩
  have h1 := u.settle_rest
  unfold RegsOnly
  rw [h1, hr]

theorem Does.reg {i : Instr} {s : State} {P : State → Prop} {a : Agent} {addr : Nat} {act : State → State}
    (he : exec i s = regCommand a addr s act) (h : s.gate a addr true = .pass) (hp : P ((act (s.grantAt a addr)).answer 0).settle) : Does i s P :=
  ⟨_, he.trans (regCommand_pass h act), hp⟩

theorem Does.done {i : Instr} {s u : State} {P : State → Prop} (he : exec i s = Sys2Proof.Machine.done u) (hp : P u.settle) : Does i s P :=
  ⟨_, he, hp⟩

theorem Does.awake {i : Instr} {s : State} {P : State → Prop} {act : State → State} (he : exec i s = whenAwake s act)
    (h : s.awake = true) (hp : P (act s).settle) : Does i s P :=
  ⟨_, he.trans (whenAwake_awake h act), hp⟩

theorem Does.live {i : Instr} {s : State} {P : State → Prop} {b : Block} {act : State → State} (he : exec i s = whenLive b s act)
    (h : b.live s = true) (hp : P (act s).settle) : Does i s P :=
  ⟨_, he.trans (whenLive_live h act), hp⟩

theorem State.draw_fst (s : State) (w : Nat) : (s.draw w).1 = Config.free s.fresh % 2 ^ w := rfl
theorem State.draw_snd (s : State) (w : Nat) : (s.draw w).2 = { s with fresh := s.fresh + 1 } := rfl
theorem State.draw_lt (s : State) (w : Nat) : (s.draw w).1 < 2 ^ w := Nat.mod_lt _ (Nat.two_pow_pos w)

/-- Drawing free bytes gives as many as asked, and moves only the model's own counter. -/
theorem State.drawBytes_length (s : State) (n : Nat) : (s.drawBytes n).1.length = n := by
  induction n generalizing s with
  | zero => rfl
  | succ n ih => simp [State.drawBytes, ih]

theorem State.drawBytes_rest (s : State) (n : Nat) : (s.drawBytes n).2 = { s with fresh := (s.drawBytes n).2.fresh } := by
  induction n generalizing s with
  | zero => rfl
  | succ n ih => simp only [State.drawBytes]; rw [ih]; rfl

end Sys2Proof.Machine
end

