-- ==== Sys2Proof/Laws/Lanes.lean ====
section
/-! SUPPORT. What the two lane groups do between the outputs of their lanes: nothing, while nothing is asked of them; and the start of
a group, which happens once. -/

namespace Sys2Proof.Machine

/-- Groups of which nothing is asked and which are in no idle window take up nothing. -/
theorem State.laneWork_quiet {s : State} (h : s.lanesQuiet = true) : s.laneWork = s := by
  unfold State.lanesQuiet at h
  simp only [Bool.and_eq_true, beq_iff_eq, Bool.not_eq_true'] at h
  obtain ⟨⟨ha, h0⟩, h1⟩ := h
  have hg : ∀ g : Fin 2, s.groupWork g = s := by
    intro g
    have hw : (s.grp g).window = false := by
      match g with
      | 0 => exact h0
      | 1 => exact h1
    unfold State.groupWork State.windowRejoin State.testStarts
    rw [ha, hw]
    simp [bit]
  unfold State.laneWork
  rw [hg, hg, hg, hg, ite_self]

/-- A group that has started does not start again (R131). -/
theorem State.groupStart_started {s : State} {g : Nat} (h : (s.grp g).started = true) : s.groupStart g = s := by
  unfold State.groupStart
  rw [h]
  simp

/-- A group in SPLIT commits no checkpoint (R131). -/
theorem State.groupStart_split {s : State} {g : Nat} (h : s.on (VOTE_STAT_MODE g) = true) : s.groupStart g = s := by
  unfold State.groupStart
  rw [h]
  simp

/-- A command of a group that runs, has started and has nothing to take up acts, and the groups take up what follows from it. -/
theorem laneCmd_quiet {s : State} {g : Fin 2} {act : State → State} (hr : s.groupRuns g = true) (hs : (s.grp g).started = true)
    (hq : s.lanesQuiet = true) : laneCmd g s act = done (act s).laneWork := by
  unfold laneCmd
  rw [hr, State.groupStart_started hs, State.laneWork_quiet hq]
  simp

/-- A command of a group that does not run changes nothing. -/
theorem laneCmd_stopped {s : State} {g : Fin 2} {act : State → State} (hr : s.groupRuns g = false) : laneCmd g s act = .next s := by
  unfold laneCmd
  rw [hr]
  simp

end Sys2Proof.Machine
end

