-- ==== Sys2Proof/WellFormed.lean ====
section
/-! DEFINITION. Which commands are well-formed: operands that a type of their own does not bound lie within what the spec gives them
(40-bit addresses, codewords of 144 bits, transfers of one to four beats, frame and message lengths, sets of samples). No meaning
relies on it. -/

namespace Sys2Proof

/-- A physical address (R35). -/
def okAddr (a : Nat) : Bool := decide (a < 2 ^ 40)

/-- A bit of a codeword (R20). -/
def okFlip (f : Flip) : Bool := decide (f.2 < 144)

/-- A transfer of one to four codeword beats (R32) whose flips lie in them, and ports of Table 1.5. -/
def okTransfer (t : Transfer) : Bool :=
  okAddr t.addr && decide (1 ≤ t.len) && decide (t.addr % 16 + t.len ≤ 64) && (!t.write || t.data.length == t.len)
    && t.flips.all (fun f => okFlip f && decide (f.1 < 4)) && t.waiting.all (fun p => decide (p < 9))

/-- A temperature that PWR_TEMP can hold (16 bits, two's complement). -/
def okTemp (t : Int) : Bool := decide (-32768 ≤ t) && decide (t < 32768)

/-- What a lane can put out (R84, R92): a 32-bit address, codewords of 16 data bytes and 16 check bits, 16 strobes, one to four
beats; an offset in its TCM array. -/
def okOut (o : LaneOut) : Bool :=
  decide (o.addr < 2 ^ 32) && decide (o.data < 2 ^ 128) && decide (o.check < 2 ^ 16) && decide (o.strobes < 2 ^ 16)
    && decide (o.tcmAddr < 0x80000) && decide (o.tcmData < 2 ^ 128) && decide (o.tcmCheck < 2 ^ 16) && decide (o.tcmStrobes < 2 ^ 16)
    && decide (o.beats ≤ 4) && decide (o.own.getD 0 < 0x80000)

/-- The registers that an instruction writes (R84, R497): of the numbers of the Debug Module, with values of at most 64 bits. -/
def okWrites (l : List (Nat × Nat)) : Bool := l.all (fun p => decide (p.1 < 0x1040) && decide (p.2 < 2 ^ 64))

/-- An Ethernet frame without its FCS (R316). -/
def okFrame (d : List Byte) : Bool := decide (14 ≤ d.length) && decide (d.length ≤ 1600)

/-- A CAN frame of one of the formats of R356. -/
def okCan (f : CanFrame) : Bool :=
  decide (f.id < if f.ide then 2 ^ 29 else 2 ^ 11) && (f.fdf || (!f.brs && !f.esi)) && (!f.fdf || !f.rtr)
    && (decide (f.data.length ≤ 8) || (f.fdf && [12, 16, 20, 24, 32, 48, 64].contains f.data.length))

/-- A cohort frame: no longer than an Ethernet frame can be (R510). -/
def okMsg (m : List Byte) : Bool := decide (m.length ≤ 1600)

/-- The command is well-formed. -/
def wellFormed (i : Instr) : Bool :=
  match i with
  | .regWrite _ addr _ => okAddr addr
  | .counterLoRead _ addr _ => okAddr addr
  | .fabricTransfer t => okTransfer t
  | .targetTimeout _ addr _ => okAddr addr
  | .scrubPass _ flips => flips.all okFlip
  | .evcSetWrite _ _ _ => true
  | .evcAck _ _ _ => true
  | .wceRearm _ => true
  | .wceClrCnt _ => true
  | .fabRearm _ => true
  | .mirrorWriteLand => true
  | .vbatSample v => decide (v < 2 ^ 16)
  | .powerOnRelease => true
  | .powerOnReset => true
  | .ethPhyHold => true
  | .ethPhyRelease => true
  | .pwrReqOpen _ => true
  | .shadeExitComplete => true
  | .pwrReqShade _ => true
  | .pwrReqDusk _ => true
  | .pwrReqClosed _ => true
  | .pwrReqInvalid _ _ => true
  | .appPark _ _ => true
  | .parkTimeout => true
  | .powerdownContinue _ => true
  | .aonWakeSource _ _ => true
  | .dwellExpiry _ => true
  | .convertersInRegulation => true
  | .otpLoad _ => true
  | .zeroFillComplete => true
  | .bootRomStart _ _ => true
  | .dramReady => true
  | .pllUnlock _ => true
  | .pllRelock _ => true
  | .controlDieTempChange t => okTemp t
  | .wdtKick _ _ => true
  | .wdtWarn => true
  | .watchdogReset => true
  | .systemSwReset _ _ => true
  | .blockReset _ _ => true
  | .appCoreReset _ _ => true
  | .stageDieReset _ _ => true
  | .clockGate _ _ _ => true
  | .laneGroupStep _ a b c retired _ => okOut a && okOut b && okOut c && okWrites (retired.getD [])
  | .agreementArrival _ _ => true
  | .laneTimeRead _ _ _ => true
  | .voteFail _ _ _ => true
  | .voteRelease _ _ _ => true
  | .voteRejoinNow _ _ => true
  | .voteRearm _ _ => true
  | .voteAgreeRearm _ _ => true
  | .voteClrCnt _ _ => true
  | .rejoinMaxwaitExpiry _ _ => true
  | .rejoinComplete _ _ flips => flips.all okFlip
  | .splitRun _ _ _ => true
  | .splitIpiSet _ _ _ => true
  | .checkpointCommit _ => true
  | .qckptReq _ => true
  | .releasedWriteError _ addr => okAddr addr
  | .restartResetDone _ => true
  | .restartRestoreComplete _ flips => flips.all okFlip
  | .replayComplete _ _ => true
  | .idleWindowBegin _ => true
  | .laneTestDue _ => true
  | .logicBistComplete => true
  | .laneTestComplete _ _ => true
  | .idleResourceTestStart => true
  | .idleResourceTestComplete _ _ => true
  | .istOverdue _ => true
  | .istTestNow _ => true
  | .istRelqRearm _ _ => true
  | .istClrCnt _ => true
  | .appTimeRead _ => true
  | .stimecmpFire _ _ => true
  | .sqDoorbell _ _ _ => true
  | .cqDoorbell _ _ _ => true
  | .ringEnable _ _ _ => true
  | .ringDisable _ _ _ => true
  | .descriptorFetched _ => true
  | .descriptorComplete _ => true
  | .dmaNop _ _ => true
  | .dmaCopy _ _ => true
  | .dmaReadback _ _ => true
  | .dmaAccessTimeout _ _ addr _ _ => okAddr addr
  | .dmaAbortComplete _ _ => true
  | .dmaRearm _ _ => true
  | .dmaClrCnt _ _ => true
  | .fifoEnable _ _ _ => true
  | .fifoDisable _ _ _ => true
  | .fifoPush _ _ _ => true
  | .fifoPushComplete _ => true
  | .fifoPop _ _ _ => true
  | .fifoRearm _ => true
  | .fifoClrCnt _ => true
  | .brgLinkEnWrite _ _ => true
  | .brgHbEnWrite _ _ => true
  | .brgRetrainWrite _ _ => true
  | .linkTrainingComplete _ => true
  | .stageFrameReceive _ _ flips _ => flips.all (fun f => decide (f < 144))
  | .stageRetransmitTimeout _ _ => true
  | .windowRead _ addr _ => okAddr addr
  | .windowNonpostedWrite _ addr len data => okAddr addr && decide (len ≤ 4 * data.length)
  | .windowPostedWrite _ addr len data => okAddr addr && decide (len ≤ 4 * data.length)
  | .windowAccessComplete _ => true
  | .pollSend => true
  | .heartbeatSend => true
  | .brgPerrPop _ => true
  | .brgClrCnt _ => true
  | .shadowWordWrite _ off _ => decide (off < 2 ^ 16 ∧ off % 4 = 0)
  | .shadowCommit _ off _ => decide (off < 2 ^ 16 ∧ off % 4 = 0)
  | .heartbeatReceive _ _ => true
  | .supervisionHoldEnter _ => true
  | .fallbackApply _ => true
  | .holdMsWrite _ _ => true
  | .chCmdWrite _ _ => true
  | .chClearWrite _ _ => true
  | .brCmdWrite _ _ => true
  | .chLimWrite _ _ => true
  | .infoClrCh _ _ => true
  | .infoClrDie _ _ => true
  | .diagLatchWrite _ _ => true
  | .channelDiagSample _ l _ _ => decide (l.length = 12)
  | .controlLineChange _ _ => true
  | .currentLimitEngage _ _ => true
  | .limitTimeTrip _ _ => true
  | .junctionTrip _ _ => true
  | .channelRetry _ _ => true
  | .retryCountClear _ _ => true
  | .inrushWindowEnd _ _ => true
  | .wireModelUpdate _ => true
  | .undervoltageTurnOff _ => true
  | .uvRestartBegin _ => true
  | .uvRestartSlot _ => true
  | .dieDeratingEnter _ => true
  | .dieDeratingExit _ => true
  | .deferredTurnOnSlot _ => true
  | .dieOvertempShutdown _ => true
  | .dieSensorFail _ => true
  | .currentSumUpdate _ => true
  | .stageShed _ => true
  | .offStatePhaseEnd _ _ _ => true
  | .bridgeBrakeEnd _ _ => true
  | .ltEnable _ _ _ => true
  | .ltDisable _ _ _ => true
  | .loadTimerWrap _ => true
  | .ltRunWrite _ _ => true
  | .lccNop => true
  | .lccReq => true
  | .lccBridge => true
  | .lccClear => true
  | .lccLimit => true
  | .lccDiag => true
  | .lccClrinfo => true
  | .lccDescriptorComplete => true
  | .lccSnapshotTrigger => true
  | .lccSnapshotComplete => true
  | .lccLoadSum => true
  | .lccRearm _ _ => true
  | .ethFrameReceive _ data _ _ => okFrame data
  | .ethFrameTransmit _ => true
  | .ethFrameSent _ => true
  | .ethSend _ => true
  | .ethRecv _ => true
  | .fdbAgeOut _ => true
  | .portLinkChange _ _ _ _ => true
  | .qbvApply _ _ _ => true
  | .qbvScheduleChange _ => true
  | .qbvGateChange _ => true
  | .ethTblRead _ _ _ => true
  | .ethTblWrite _ _ _ => true
  | .ethFdbSearch _ => true
  | .frerRecoveryReset _ => true
  | .ethRearm _ => true
  | .ethPortClrCnt _ _ => true
  | .followUpTimeout => true
  | .syncTimeout => true
  | .timeSet _ => true
  | .timeAdj _ => true
  | .timeClrInt _ => true
  | .timeClrCnt _ => true
  | .timeCtlWrite _ _ => true
  | .timeFreqWrite _ _ => true
  | .epochInitWrite _ _ => true
  | .tcuEnable _ _ _ => true
  | .tcuCmpHiWrite _ _ _ => true
  | .tcuPerWrite _ _ _ => true
  | .tcuFire _ => true
  | .canTimeStrobe counts => decide (counts.length = 12)
  | .canEnable _ _ _ => true
  | .canDisable _ _ _ => true
  | .canRecover _ _ => true
  | .canRecoveryComplete _ => true
  | .canRearm _ _ => true
  | .canClrCnt _ _ => true
  | .canFrameReceive _ f _ => okCan f
  | .canArbitrationStart _ _ => true
  | .canArbitrationLost _ => true
  | .canTxError _ _ _ _ _ => true
  | .canTxComplete _ _ => true
  | .canDominantTimeout _ => true
  | .gwSlotLoad _ => true
  | .cgwSend _ => true
  | .cgwCancel _ => true
  | .cgwRecv _ => true
  | .cgwFifoRecord _ => true
  | .cgwFifosrcEnable _ _ _ => true
  | .cgwEthFrameReceive => true
  | .cgwTblRead _ _ _ => true
  | .cgwTblWrite _ _ _ => true
  | .cgwRearm _ => true
  | .cgwClrCnt _ => true
  | .nmwEnWrite _ _ => true
  | .segManagedWrite _ _ _ => true
  | .segHoldWrite _ _ _ => true
  | .nmwWakeReq _ _ => true
  | .segCurfewSet _ _ _ => true
  | .lanternReceive => true
  | .ownLanternSend _ => true
  | .ownLanternLate _ => true
  | .sourceNeedExpiry _ _ => true
  | .segmentClose _ => true
  | .segmentCommit _ => true
  | .segmentWakeDetect _ _ => true
  | .segmentAwake _ => true
  | .wakingTimeout _ => true
  | .curfewExpiry _ _ _ => true
  | .nmwRearm _ => true
  | .nmwClrCnt _ => true
  | .mdStrobe _ => true
  | .mdIntervalTimeout _ => true
  | .mdLatchWrite _ => true
  | .mdIsoFault => true
  | .mbufRead => true
  | .senseSample mv => decide (mv.length = 33)
  | .directControlChange _ _ => true
  | .snsGo _ _ => true
  | .snsScanComplete codes => decide (codes.length = 32)
  | .snsRearm _ => true
  | .snsClrCnt _ => true
  | .snsBufEnable _ _ _ => true
  | .recLbPut _ _ => true
  | .recRecordRequest => true
  | .recRecordWrite _ _ => true
  | .energyStatementDue => true
  | .recStmt _ => true
  | .energyStatementSigned _ _ => true
  | .recClear _ => true
  | .recClearVerified _ _ => true
  | .recSnap _ => true
  | .recRearm _ => true
  | .recClrCnt _ => true
  | .recStartupRecovery => true
  | .keyDeliver _ _ _ => true
  | .keyUpdate _ _ _ => true
  | .keyAttest _ _ _ => true
  | .keyExtend _ _ _ => true
  | .keyVerifyImage _ _ _ => true
  | .keyExportPub _ _ _ => true
  | .keyRevoke _ _ _ => true
  | .keyPersonalise _ _ _ => true
  | .keyInvalidOp _ _ _ => true
  | .keyOperationStart => true
  | .keyOperationComplete _ _ _ => true
  | .keySeal => true
  | .keyUnseal => true
  | .keyStartupRecovery => true
  | .keyClrCnt _ => true
  | .tamperMonitorFire _ _ => true
  | .cryNop _ => true
  | .cryGcmEnc _ => true
  | .cryGcmDec _ => true
  | .cryCmac _ => true
  | .crySha384 _ => true
  | .cryRearm _ => true
  | .cryClrCnt _ => true
  | .vfCtlReset _ _ => true
  | .vfFwdAck _ _ _ => true
  | .vfmEnable _ _ => true
  | .vfmDisable _ _ => true
  | .vfmReset _ _ => true
  | .vfmFreeze _ _ => true
  | .vfmResume _ _ => true
  | .vfmSave _ _ => true
  | .vfmRestore _ _ => true
  | .vfmInvalidOp _ _ => true
  | .vfmCommandComplete => true
  | .vfFreezeDrained _ => true
  | .vfDrainBoundExpiry _ => true
  | .staleItemEnd _ => true
  | .vfmWindowEnable _ _ _ _ => true
  | .vfmRearm _ => true
  | .vfmClrCnt _ => true
  | .wldHandover _ _ => true
  | .handoverDrainEnd _ => true
  | .handoverComplete => true
  | .wldAppwWrite _ _ => true
  | .wldRearm _ => true
  | .wldClrCnt _ => true
  | .dbgGrantWrite _ _ => true
  | .dbgChallenge _ => true
  | .dbgSubmit _ => true
  | .dbgTokenResult _ => true
  | .dbgLock _ => true
  | .debugReset _ => true
  | .dbgTbufWrite _ _ => true
  | .dbgAccRead _ => true
  | .dbgAccWrite _ => true
  | .dbgAccComplete => true
  | .dbgTokenMinute => true
  | .dbgChallengeExpiry => true
  | .dmHaltRequest _ => true
  | .dmResume _ => true
  | .dmStep x => okWrites x.wr
  | .dmAccessRegister _ _ _ v => decide (v < 2 ^ 64)
  | .tapInstruction _ dr => decide (dr < 2 ^ 78)
  | .uartRequest req => decide (req.length = 9)
  | .cohortBeaconSend => true
  | .cohortBeaconReceive m _ => okMsg m
  | .peerAbsentTimeout _ => true
  | .attestReq m _ => okMsg m
  | .attestRsp m _ _ => okMsg m
  | .peerReverifyExpiry _ => true
  | .transferReassemblyTimeout _ _ => true
  | .transferRetryTimeout _ _ => true
  | .offer m _ => okMsg m
  | .ack m _ => okMsg m
  | .commit m _ => okMsg m
  | .abort m _ => okMsg m
  | .done m _ => okMsg m
  | .query m _ => okMsg m
  | .status m _ => okMsg m
  | .migrationCommitWaitExpiry _ _ => true
  | .migrationDoneWaitExpiry _ => true
  | .timeTrustChange _ => true
  | .canRxError _ _ _ _ => true
  | .canBusIntegration _ => true
  | .mdIsoRestore => true

end Sys2Proof
end

