-- ==== Sys2Proof/Tests/Slice0.lean ====
section
/-! SUPPORT. The model's own tests: an ill-formed command for each check of WellFormed; worked examples of the spec; and for each
statement of Obligations.lean with hypotheses, states and operands that meet the hypotheses of its clauses, with the main effect
there. Numbers are those of the spec's tables and rules, or follow from them by hand. -/

namespace Sys2Proof.Tests

set_option Elab.async false

open Sys2Proof.Machine

/-- The module in operation, every register at its reset value. -/
def up : State := { State.reset with pwr := { State.reset.pwr with phase := .run, appOff := false } }

/-- The module in operation with some fields set. -/
def st (l : List (Fld × Nat)) : State := up.setAll l

/-- The command answers a next state, and the two states satisfy `p`. -/
def Runs (s : State) (i : Instr) (p : State → State → Bool) : Bool :=
  match exec i s with
  | .next t => p s t
  | _ => false

/-- SG0 in its Secure world. -/
abbrev sec : Agent := .lane 0 0

/-- An application core in the Normal world. -/
abbrev nrm : Agent := .core 0

/-! ### The front of the queue, and ill-formed commands -/

/-- A program of one command runs: the step takes the front command and leaves the rest of the queue. -/
theorem test_step_front :
    (match step { up with pending := [.evcSetWrite sec 0 0x1000, .lccNop] } with
     | .next t => t.isPending 12 && t.pending == [.lccNop]
     | _ => false) = true := by decide +kernel

/-- On an empty queue the module in operation counts 250/80 ns; in power-on reset nothing moves. -/
theorem test_step_empty :
    (match step up, step State.reset with
     | .next t, .next r => (t.zone == 3 || t.zone == 4) && decide (r = State.reset) && up.timeLive && !State.reset.timeLive
         && decide (up.get TIME_FREQ < 2 ^ 30)
     | _, _ => false) = true := by decide +kernel

/-- A settled state (the premise of LevelSourcesStayPendingAfterEveryStep) other than the reset state. -/
theorem test_levels_settled : (st [(PWR_STAT_VLOW, 1), (EVC_PEND 0, 1)]).levelsPending = true := by decide +kernel

/-- A read of one line of SRAM, as the fabric carries it. -/
def lineRead : Transfer := ⟨sec, false, 0x21000010, 16, [], false, true, [], []⟩

theorem test_wf_accepts : wellFormed (.fabricTransfer lineRead) = true ∧ wellFormed (.regWrite sec 0x40000000 0) = true
    ∧ wellFormed (.canFrameReceive 0 ⟨0x7FF, false, true, true, false, false, List.replicate 12 0⟩ 0) = true := by decide +kernel

/-- Addresses have 40 bits (R35). -/
theorem test_wf_address : wellFormed (.regWrite sec (2 ^ 40) 0) = false ∧ wellFormed (.targetTimeout sec (2 ^ 40) true) = false
    ∧ wellFormed (.counterLoRead sec (2 ^ 40) true) = false ∧ wellFormed (.releasedWriteError 0 (2 ^ 40)) = false
    ∧ wellFormed (.dmaAccessTimeout 0 0 (2 ^ 40) false false) = false ∧ wellFormed (.windowRead sec (2 ^ 40) 4) = false := by
  decide +kernel

/-- A transfer has one to four beats, the data it writes, bits of its codewords, and ports of Table 1.5 (R32). -/
theorem test_wf_transfer : wellFormed (.fabricTransfer { lineRead with len := 0 }) = false
    ∧ wellFormed (.fabricTransfer { lineRead with len := 65 }) = false
    ∧ wellFormed (.fabricTransfer { lineRead with addr := 0x21000011, len := 64 }) = false
    ∧ wellFormed (.fabricTransfer { lineRead with write := true }) = false
    ∧ wellFormed (.fabricTransfer { lineRead with flips := [(0, 144)] }) = false
    ∧ wellFormed (.fabricTransfer { lineRead with flips := [(4, 0)] }) = false
    ∧ wellFormed (.fabricTransfer { lineRead with waiting := [9] }) = false := by decide +kernel

theorem test_wf_flip : wellFormed (.scrubPass .mram [(5, 144)]) = false ∧ wellFormed (.stageFrameReceive 0 true [144] ⟨0, false⟩) = false := by
  decide +kernel

theorem test_wf_ranges : wellFormed (.controlDieTempChange 32768) = false ∧ wellFormed (.controlDieTempChange (-32769)) = false
    ∧ wellFormed (.vbatSample 65536) = false ∧ wellFormed (.shadowWordWrite 0 0x402 0) = false
    ∧ wellFormed (.shadowCommit 0 0x10000 0) = false ∧ wellFormed (.dmAccessRegister 0 false 0x1001 (2 ^ 64)) = false
    ∧ wellFormed (.tapInstruction 1 (2 ^ 78)) = false ∧ wellFormed (.uartRequest [0xA5]) = false := by decide +kernel

theorem test_wf_lane_output : wellFormed (.laneGroupStep 0 idleOut idleOut idleOut (some [(0x1001, 7)]) 1) = true
    ∧ wellFormed (.laneGroupStep 0 { idleOut with data := 2 ^ 128 } idleOut idleOut none 0) = false
    ∧ wellFormed (.laneGroupStep 0 idleOut { idleOut with strobes := 2 ^ 16 } idleOut none 0) = false
    ∧ wellFormed (.laneGroupStep 0 idleOut idleOut { idleOut with tcmAddr := 0x80000 } none 0) = false
    ∧ wellFormed (.laneGroupStep 0 idleOut idleOut { idleOut with beats := 5 } none 0) = false
    ∧ wellFormed (.laneGroupStep 0 idleOut idleOut { idleOut with check := 2 ^ 16 } none 0) = false
    ∧ wellFormed (.laneGroupStep 0 idleOut idleOut { idleOut with own := some 0x80000 } none 0) = false
    ∧ wellFormed (.laneGroupStep 0 idleOut idleOut idleOut (some [(0x1040, 0)]) 1) = false := by decide +kernel

theorem test_wf_window : wellFormed (.windowNonpostedWrite sec 0x50000400 8 [1]) = false
    ∧ wellFormed (.windowPostedWrite sec 0x50000400 8 [1]) = false := by decide +kernel

theorem test_wf_samples : wellFormed (.channelDiagSample 0 [] 70 52) = false ∧ wellFormed (.canTimeStrobe []) = false
    ∧ wellFormed (.senseSample []) = false ∧ wellFormed (.snsScanComplete [0]) = false := by decide +kernel

/-- Frames: an Ethernet frame has a header; classic CAN frames have at most 8 bytes and no BRS; FD frames have no remote request. -/
theorem test_wf_frames : wellFormed (.ethFrameReceive 0 [] true none) = false
    ∧ wellFormed (.canFrameReceive 0 ⟨0x800, false, false, false, false, false, []⟩ 0) = false
    ∧ wellFormed (.canFrameReceive 0 ⟨0x7FF, false, false, true, false, false, []⟩ 0) = false
    ∧ wellFormed (.canFrameReceive 0 ⟨0x7FF, false, true, false, false, true, []⟩ 0) = false
    ∧ wellFormed (.canFrameReceive 0 ⟨0x7FF, false, true, false, false, false, List.replicate 9 0⟩ 0) = false
    ∧ wellFormed (.offer (List.replicate 1601 0) true) = false := by decide +kernel

/-! ### Events and the word code -/

/-- Event 0 is acknowledged; event 5 (a level source that holds above 115 °C) is not. -/
theorem test_evc_ack : Runs (st [(EVC_PEND 0, 0x21), (PWR_TEMP, 461)]) (.evcAck sec 0 0x1021) (fun s t =>
      s.gate sec (EVC_PEND 0).addr true = .pass ∧ s.levelHolds 0 = false ∧ s.levelHolds 5 = true ∧ eventLive s 5 = true
      ∧ t.isPending 0 = false ∧ t.isPending 5 = true ∧ t.isPending 12 = false) = true := by decide +kernel

theorem test_evc_ack_stays : Runs (st [(EVC_PEND 7, 0x80000002)]) (.evcAck sec 7 0x80000000) (fun s t =>
      s.isPending 225 = true ∧ t.isPending 225 = true ∧ t.isPending 255 = false) = true := by decide +kernel

/-- The highest event. -/
theorem test_evc_set : Runs (up) (.evcSetWrite sec 7 0x80000000) (fun s t =>
      s.gate sec (EVC_SET 7).addr true = .pass ∧ t.isPending 255 = true) = true := by decide +kernel

/-- The Normal world does not acknowledge a Secure event. -/
theorem test_evc_normal :
    Runs (st [(EVC_PEND 0, 8), (EVC_CFG_WORLD 3, 1), (EVC_CFG_WORLD 4, 0)])
      (.evcAck nrm 0 0xFFFFFFFF) (fun s t =>
      isNormal nrm s = true ∧ s.gate nrm (EVC_PEND 0).addr true = .pass ∧ s.eventSecure 3 = true ∧ s.levelHolds 3 = false
      ∧ t.isPending 3 = true ∧ evcMask sec 0 s = 0xFFFFFFFF) = true := by decide +kernel

theorem test_evc_normal_set : Runs (st [(EVC_CFG_WORLD 4, 0), (EVC_CFG_WORLD 3, 1)]) (.evcSetWrite nrm 0 0x18) (fun s t =>
      s.gate nrm (EVC_SET 0).addr true = .pass ∧ s.eventSecure 3 = true ∧ t.isPending 3 = false ∧ t.isPending 4 = true) = true := by decide +kernel

/-- Two deliverable events of equal priority for target 2: the lower number is the top one; the line is asserted. -/
theorem test_top_event :
    (let s := st [(EVC_PEND 0, 0x1008), (EVC_EN 0, 0x1008), (EVC_CFG_TGT 3, 2), (EVC_CFG_TGT 12, 2), (EVC_CFG_PRIO 3, 5),
        (EVC_CFG_PRIO 12, 5), (EVC_THR 2, 4)]
     s.topEvent 2 false = some 3 ∧ s.irqLine 2 = true ∧ s.deliverable 2 12 = true ∧ s.topEvent 1 false = none
       ∧ s.deliverable 0 0 = false ∧ s.get (EVC_CFG_PRIO 0) = 0) := by decide +kernel

/-- The worked example of the word code (R21, R22): bytes 01 80 and zeros have Q = 38 and P = B9; bit 9 gives S_P = 02, S_Q = 08. -/
theorem test_word_code :
    (let d : List Byte := [1, 0x80] ++ List.replicate 14 0
     d.length = 16 ∧ checkQ d = 0x38 ∧ checkP d = 0xB9 ∧ classify (encodeWord d).syndrome = .clean
       ∧ ((encodeWord d).flip 9).syndrome = 0x0802 ∧ classify ((encodeWord d).flip 9).syndrome = .corrected 9
       ∧ classify ((encodeWord d).flip 143).syndrome = .corrected 143
       ∧ classify (((encodeWord d).flip 0).flip 143).syndrome = .uncorrectable
       ∧ classify ((encodeWord d).disturb 17 3).syndrome = .uncorrectable) := by decide +kernel

theorem test_plain_evc_cfg : Runs (up) (.regWrite (.dbg .secure) 0x400113FC 0x000F1F0F) (fun s t =>
      s.awake = true ∧ s.lanesQuiet = true ∧ isNormal (.dbg .secure) s = false ∧ s.fabStalls = false
      ∧ s.islandStalls (islandOf (.dbg .secure)) = false ∧ s.queueOf (.dbg .secure) 0x400113FC = none
      ∧ t.get (EVC_CFG_TGT 255) = 15 ∧ t.get (EVC_CFG_VF 255) = 31 ∧ t.get (EVC_CFG_PRIO 255) = 15) = true := by decide +kernel

theorem test_plain_evc_en : Runs (up) (.regWrite (.dbg .secure) (EVC_EN 7).addr 0xFFFFFFFF) (fun s t =>
      s.lanesQuiet = true ∧ t.get (EVC_EN 7) = 0xFFFFFFFF) = true := by decide +kernel

/-- A write of SG0, which is VOTED, waits for its commit (R124, R140). -/
theorem test_plain_evc_queued : Runs (up) (.regWrite sec (EVC_EN 7).addr 0xFFFFFFFF) (fun s t =>
      s.lanesQuiet = true ∧ s.queueOf sec (EVC_EN 7).addr = some 0 ∧ (s.grp 0).relq = [] ∧ t.get (EVC_EN 7) = 0
      ∧ (t.grp 0).relq.map (fun e => (e.addr, e.strobes, e.data / 2 ^ 96)) = [(0x40010110, 0xF000, 0xFFFFFFFF)]) = true := by decide +kernel

theorem test_plain_evc_thr : Runs (up) (.regWrite (.dbg .secure) (EVC_THR 5).addr 0xFF) (fun s t =>
      s.lanesQuiet = true ∧ t.get (EVC_THR 5) = 15) = true := by decide +kernel

/-! ### REARM and CLR_CNT -/

/-- Each REARM command passes its gate from SG0 and clears its capture. -/
theorem test_rearm :
    ([(.wceRearm sec, EVC_WCE_CTL_REARM.addr, EVC_WCE_INFO_VALID), (.fabRearm sec, EVC_FAB_CTL.addr, EVC_FAB_INFO_VALID),
      (.dmaRearm sec 1, (DMA_ERR_CTL_REARM 1).addr, DMA_ERR_INFO_VALID 1), (.fifoRearm sec, FIFO_ERR_CTL_REARM.addr, FIFO_ERR_INFO_VALID),
      (.ethRearm sec, ETH_ERR_CTL.addr, ETH_ERR_INFO_VALID), (.canRearm sec 11, (CAN_CMD_REARM 11).addr, CAN_ERR_CAP_VALID 11),
      (.cgwRearm sec, CGW_ERR_CTL_REARM.addr, CGW_ERR_INFO_VALID)] : List (Instr × Nat × Fld)).all (fun p =>
      let s := st [(p.2.2, 1)]
      decide (s.gate sec p.2.1 true = .pass) && Runs s p.1 (fun _ t => t.get p.2.2 == 0 && t.resp == ⟨false, 0, false⟩)) = true := by
  decide +kernel

theorem test_rearm_more :
    ([(.nmwRearm sec, NMW_ERR_CTL_REARM.addr, NMW_ERR_INFO_VALID), (.snsRearm sec, SNS_CMD_REARM.addr, SNS_ERR_INFO_VALID),
      (.recRearm sec, REC_CMD_REARM.addr, REC_ERR_INFO_VALID), (.cryRearm sec, CRY_ERR_CTL_REARM.addr, CRY_ERR_INFO_VALID),
      (.vfmRearm sec, VFM_ERR_CTL_REARM.addr, VFM_ERR_INFO_VALID), (.wldRearm sec, WLD_CTL_REARM.addr, WLD_VIOL_INFO_VALID)]
      : List (Instr × Nat × Fld)).all (fun p =>
      let s := st [(p.2.2, 1)]
      decide (s.gate sec p.2.1 true = .pass) && Runs s p.1 (fun _ t => t.get p.2.2 == 0 && t.resp == ⟨false, 0, false⟩)) = true := by
  decide +kernel

theorem test_vote_rearm : Runs (st [(VOTE_MM_INFO_VALID 1, 1), (VOTE_AGREE_INFO_VALID 1, 1)]) (.voteRearm sec 1) (fun s t =>
      s.gate sec (VOTE_CTL_REARM 1).addr true = .pass ∧ s.isSplit 1 = false ∧ t.get (VOTE_MM_INFO_VALID 1) = 0
      ∧ t.get (VOTE_AGREE_INFO_VALID 1) = 1) = true := by decide +kernel

theorem test_vote_agree_rearm : Runs (st [(VOTE_AGREE_INFO_VALID 0, 1)]) (.voteAgreeRearm sec 0) (fun _ t =>
      t.get (VOTE_AGREE_INFO_VALID 0) = 0) = true := by decide +kernel

/-- A SPLIT group takes no command of VOTE_CTL. -/
theorem test_vote_rearm_split : Runs (st [(VOTE_STAT_MODE 1, 1)]) (.voteRearm sec 1) (fun s t =>
      s.isSplit 1 = true ∧ t.resp = ⟨false, 0, false⟩) = true := by decide +kernel

theorem test_ist_relq_rearm :
    Runs (st [(IST_RELQ_ERR_INFO_VALID 0, 1), (IST_RELQ_ERR_INFO_VALID 1, 1)])
      (.istRelqRearm sec 2) (fun s t =>
      s.gate sec IST_CMD_REARM.addr true = .pass ∧ t.get (IST_RELQ_ERR_INFO_VALID 0) = 1
      ∧ t.get (IST_RELQ_ERR_INFO_VALID 1) = 0) = true := by decide +kernel

theorem test_lcc_rearm : Runs (st [(LCC_ERR_INFO_VALID, 1), (LCC_ERR_INFO_NUM, 7)]) (.lccRearm sec 0x107) (fun s t =>
      s.gate sec LCC_ERR_CTL_REARM.addr true = .pass ∧ idOf sec ≤ 2 ∧ t.get LCC_ERR_INFO_VALID = 0) = true := by decide +kernel

/-- REARM with another capture number clears nothing. -/
theorem test_lcc_rearm_other : Runs (st [(LCC_ERR_INFO_VALID, 1), (LCC_ERR_INFO_NUM, 7)]) (.lccRearm sec 0x106) (fun _ t =>
      t.get LCC_ERR_INFO_VALID = 1) = true := by decide +kernel

/-- Each CLR_CNT command passes its gate from SG0 and zeroes its counters. -/
theorem test_clr_cnt :
    ([(.wceClrCnt sec, EVC_WCE_CTL_CLR_CNT.addr, [EVC_WCE_CE_CNT, EVC_WCE_UE_CNT]),
      (.dmaClrCnt sec 1, (DMA_ERR_CTL_CLR_CNT 1).addr, [DMA_DB_IGN 1, DMA_BYTES_LO 1, DMA_BYTES_HI 1]),
      (.fifoClrCnt sec, FIFO_ERR_CTL_CLR_CNT.addr, [FIFO_ERR_CNT]),
      (.brgClrCnt sec, BRG_PERR_CTL_CLR_CNT.addr, [BRG_PERR_STAT_LOST, BRG_NP_ERR, BRG_LINK_CNT_BURSTS 4, BRG_LINK_WCE_CE 0]),
      (.ethPortClrCnt sec 9, (PORT_CNT_CTL 9).addr, [PORT_RX_FRAMES_HI 9, PORT_QBV_WAIT 9]),
      (.timeClrCnt sec, TIME_CMD_CLR_CNT.addr, [TIME_SYNC_CNT_USED, TIME_TCU_MISS 15]),
      (.canClrCnt sec 11, (CAN_CMD_CLR_CNT 11).addr, [CAN_TX_CNT 11, CAN_LOST_CNT 11])] : List (Instr × Nat × List Fld)).all (fun p =>
      let s := st (p.2.2.map (·, 1))
      decide (s.gate sec p.2.1 true = .pass) && Runs s p.1 (fun _ t => p.2.2.all (fun f => t.get f == 0))) = true := by
  decide +kernel

theorem test_clr_cnt_more :
    ([(.nmwClrCnt sec, NMW_ERR_CTL_CLR_CNT.addr, [NMW_LATE_CNT, SEG_STAT_LATE 19]), (.snsClrCnt sec, SNS_CMD_CLR_CNT.addr, [SNS_SKIP]),
      (.recClrCnt sec, REC_CMD_CLR_CNT.addr, [REC_TORN_LB, REC_TORN_LG, REC_LOST]), (.keyClrCnt sec, KEY_CTL.addr, [KEY_TAMPER_CNT]),
      (.cryClrCnt sec, CRY_ERR_CTL_CLR_CNT.addr, [CRY_AUTHFAIL]),
      (.vfmClrCnt sec, VFM_ERR_CTL_CLR_CNT.addr, [VFM_STALE_DROP_HI, VFM_VF_QDROP 31]), (.wldClrCnt sec, WLD_CTL_CLR_CNT.addr, [WLD_VIOL_CNT])]
      : List (Instr × Nat × List Fld)).all (fun p =>
      let s := st (p.2.2.map (·, 1))
      decide (s.gate sec p.2.1 true = .pass) && Runs s p.1 (fun _ t => p.2.2.all (fun f => t.get f == 0))) = true := by
  decide +kernel

theorem test_ist_clr_cnt : Runs (st [(IST_COUNT_PASS, 9), (IST_RESTART_MAX 1, 3)]) (.istClrCnt sec) (fun s t =>
      s.gate sec IST_CMD_CLR_CNT.addr true = .pass ∧ t.get IST_COUNT_PASS = 0 ∧ t.get (IST_RESTART_MAX 1) = 0) = true := by decide +kernel

theorem test_vote_clr_cnt : Runs (st [(VOTE_MASK_CNT_LANE2 0, 9), (VOTE_AGREE_SKEW 0, 3)]) (.voteClrCnt sec 0) (fun s t =>
      s.isSplit 0 = false ∧ t.get (VOTE_MASK_CNT_LANE2 0) = 0 ∧ t.get (VOTE_AGREE_SKEW 0) = 0) = true := by decide +kernel

/-- The failure count of each authentication entry (its word 5) is zeroed too. -/
theorem test_cgw_clr_cnt :
    Runs ({ st [(CGW_RX_LOST, 4)] with can := { State.reset.can with auth := [(3, [1, 2, 3, 4, 5, 6])] } })
      (.cgwClrCnt sec) (fun s t =>
      s.gate sec CGW_ERR_CTL_CLR_CNT.addr true = .pass ∧ t.get CGW_RX_LOST = 0 ∧ t.can.auth = [(3, [1, 2, 3, 4, 5, 0])]) = true := by decide +kernel

theorem test_time_clr_int : Runs ({ up with time := { State.reset.time with integral := -7 } }) (.timeClrInt sec) (fun s t =>
      s.gate sec TIME_CMD_CLR_INT.addr true = .pass ∧ t.time.integral = 0) = true := by decide +kernel

/-! ### Refused accesses -/

/-- In sleep a register write meets nobody. -/
theorem test_gate_asleep :
    (let s := { up with pwr := { up.pwr with phase := .dusk } }
     s.gate sec (EVC_PEND 0).addr true = .asleep ∧ s.refuse sec (EVC_PEND 0).addr true = some s) := by decide +kernel

/-- An unassigned address and a gated block: an error response, cause 1 and 3, event 14. -/
theorem test_gate_unassigned :
    (let s := st [(CLK_BLK_GATE, 0x1000)]
     s.gate sec 0x40008000 true = .unassigned ∧ s.gate sec CGW_ERR_CTL_REARM.addr true = .gated ∧ s.on EVC_FAB_INFO_VALID = false
       ∧ eventLive s 14 = true
       ∧ (s.refuse sec 0x40008000 true).any (fun t => t.get EVC_FAB_INFO_CAUSE == 1 && t.isPending 14 && t.resp.err
           && t.get EVC_FAB_ADDR_LO == 0x40008000 && t.get EVC_FAB_INFO_IPORT == 0) = true
       ∧ (s.refuse (.core 3) CGW_ERR_CTL_REARM.addr true).any (fun t => t.get EVC_FAB_INFO_CAUSE == 3 && t.get EVC_FAB_INFO_IPORT == 2)
           = true) := by decide +kernel

/-- A block fenced by a hand-over, and a Secure register written from the Normal world: causes 5 and 1, event 249. -/
theorem test_gate_fenced :
    (let s := { st [(WLD_VIOL_CNT, 0xFFFFFFFF)] with dbg := { State.reset.dbg with handOver := some ⟨12, .normal, none⟩ } }
     s.gate sec CGW_ERR_CTL_REARM.addr true = .fenced ∧ s.gate nrm KEY_CTL.addr true = .world ∧ s.on WLD_VIOL_INFO_VALID = false
       ∧ (s.refuse sec CGW_ERR_CTL_REARM.addr true).any (fun t => t.get WLD_VIOL_INFO_CAUSE == 5 && t.resp.err && t.isPending 249) = true
       ∧ (s.refuse nrm KEY_CTL.addr true).any (fun t => t.get WLD_VIOL_INFO_CAUSE == 1 && !t.resp.err
           && t.get WLD_VIOL_CNT == 0xFFFFFFFF && t.get WLD_VIOL_ADDR_LO == 0x400D0114) = true) := by decide +kernel

/-- A command that the world check refuses does not act. -/
theorem test_key_refused : Runs (up) (.keyClrCnt nrm) (fun s t =>
      (s.refuse nrm KEY_CTL.addr true).isSome = true ∧ t.get WLD_VIOL_CNT = 1 ∧ t.isPending 249 = true) = true := by decide +kernel

theorem test_evc_refused : Runs ({ up with pwr := { up.pwr with phase := .dusk } }) (.evcSetWrite sec 0 1) (fun s t =>
      s.refuse sec (EVC_SET 0).addr true = some s ∧ t.isPending 0 = false) = true := by decide +kernel

/-! ### The fabric and memory -/

/-- A transfer of SG0 to the last SRAM codeword of a line. -/
def xfer (w : Bool) (addr len : Nat) (data : List Byte) : Transfer := ⟨sec, w, addr, len, data, false, true, [], []⟩

theorem test_prefetch : Runs (up) (.fabricTransfer { xfer false 0x40FFFFFC 4 [] with prefetch := true }) (fun _ t =>
      transferOk { xfer false 0x40FFFFFC 4 [] with prefetch := true } = true ∧ t.resp = ⟨true, 0, false⟩) = true := by decide +kernel

theorem test_fab_parity : Runs (up) (.fabricTransfer { xfer true 0x21000000 4 [1, 2, 3, 4] with parityOk := false }) (fun s t =>
      transferOk (xfer true 0x21000000 4 [1, 2, 3, 4]) = true ∧ s.on EVC_FAB_INFO_VALID = false ∧ t.resp = ⟨true, 0, false⟩
      ∧ t.get EVC_FAB_INFO_CAUSE = 2 ∧ t.get EVC_FAB_INFO_TPORT = 4 ∧ t.isPending 14 = true ∧ t.mem = []) = true := by decide +kernel

theorem test_fab_unassigned : Runs (st [(EVC_FAB_INFO_VALID, 1)]) (.fabricTransfer (xfer false 0x210000 64 [])) (fun _ t =>
      targetOfRange 0x210000 64 = none ∧ t.resp = ⟨true, 0, false⟩ ∧ t.isPending 14 = true) = true := by decide +kernel

/-- After 16 class-0 grants in a row a waiting class-1 port is granted first, and the transfer waits. -/
theorem test_fab_waits :
    Runs ({ up with arb := [(4, ⟨16, 0, 2⟩)] })
      (.fabricTransfer { xfer false 0x21000000 16 [] with waiting := [2] }) (fun s t =>
      (s.arbOf 4).grant [0, 2] ≠ some 0 ∧ t = s) = true := by decide +kernel

/-- A VOTED group's write to the stage window also counts as a released-write error. -/
theorem test_fab_timeout : Runs (up) (.targetTimeout sec 0x50000400 true) (fun s t =>
      targetOf 0x50000400 = some 9 ∧ s.isSplit 0 = false ∧ s.isOnce 0x50000400 = true ∧ t.get EVC_FAB_INFO_CAUSE = 3
      ∧ t.get EVC_FAB_INFO_TPORT = 9 ∧ t.get (IST_RELQ_ERR_INFO_COUNT 0) = 1) = true := by decide +kernel

theorem test_fab_timeout_read : Runs (up) (.targetTimeout (.dma 1) 0x10000000 false) (fun _ t =>
      targetOf 0x10000000 = some 1 ∧ t.get EVC_FAB_INFO_IPORT = 4 ∧ t.isPending 14 = true) = true := by decide +kernel

/-- The last codeword of a line; its old syndrome goes. -/
theorem test_mem_write :
    Runs ({ up with syn := [(0x2100003, 5)] })
      (.fabricTransfer (xfer true 0x21000030 16 ((List.range 16).map (BitVec.ofNat 8)))) (fun s t =>
      s.awake = true ∧ s.lanesQuiet = true ∧ targetOfRange 0x21000030 16 = some 4 ∧ (s.arbOf 4).grant [0] = some 0
      ∧ s.memGate sec true 0x21000030 16 = none
      ∧ transferOk (xfer true 0x21000030 16 ((List.range 16).map (BitVec.ofNat 8))) = true ∧ t.resp = ⟨false, 0, false⟩
      ∧ t.readByte 0x2100003F = 15 ∧ t.readByte 0x21000040 = 0 ∧ t.syn = []) = true := by decide +kernel

theorem test_mem_read :
    Runs ({ up with mem := [(0x21000000, 0xAA), (0x2100000F, 0x55)] })
      (.fabricTransfer (xfer false 0x21000000 16 [])) (fun s t =>
      s.memGate sec false 0x21000000 16 = none ∧ s.synOf 0x2100000 = 0 ∧ t.resp = ⟨false, 0xAA + 0x55 * 2 ^ 120, false⟩) = true := by decide +kernel

/-- A bit of check byte Q flips on the way: corrected by the consumer, counted, event 12. -/
theorem test_mem_read_flip :
    Runs ({ up with mem := [(0x21000000, 0xAA)] })
      (.fabricTransfer { xfer false 0x21000000 16 [] with flips := [(0, 143)] }) (fun s t =>
      s.memGate sec false 0x21000000 16 = none ∧ t.resp = ⟨false, 0xAA, false⟩ ∧ t.get EVC_WCE_CE_CNT = 1
      ∧ t.isPending 12 = true) = true := by decide +kernel

theorem test_scrub_clean : Runs (up) (.scrubPass .sram []) (fun s t =>
      s.scrubs .sram = true ∧ s.syn = [] ∧ t.syn = []) = true := by decide +kernel

/-- A data bit of the first SRAM codeword flips and is put right. -/
theorem test_scrub_flip : Runs ({ up with mem := [(0x21000000, 0xAA)] }) (.scrubPass .sram [(0x2100000, 1)]) (fun s t =>
      s.scrubs .sram = true ∧ (storeWords .sram).any (fun r => decide (r.1 ≤ 0x2100000) && decide (0x2100000 < r.2.1)) = true
      ∧ t.mem = [(0x21000000, 0xAA)] ∧ t.syn = [] ∧ t.get EVC_WCE_CE_CNT = 1 ∧ t.get EVC_WCE_INFO_UE = 0
      ∧ t.isPending 12 = true) = true := by decide +kernel

/-- TIME_ZONE_LO: the read loads the latch of the upper half. -/
theorem test_counter_read :
    Runs ({ st [(SYS_ZONE, 0)] with zone := 0x500000007 })
      (.counterLoRead sec 0x40070000 false) (fun s t =>
      isCounterLo 0x40070000 = true ∧ s.gate sec 0x40070000 false = .pass ∧ s.gate sec 0x40070004 false = .pass
      ∧ t.resp = ⟨false, 7, false⟩ ∧ (t.regRead32 sec 0x40070004).resp = ⟨false, 5, false⟩
      ∧ look t.latches (latchKey sec 0x40070008) 0 = s.epoch) = true := by decide +kernel

theorem test_counter_read_wide : Runs ({ up with zone := 0x500000007 }) (.counterLoRead sec 0x40070000 true) (fun _ t =>
      t.resp = ⟨false, 0x500000007, false⟩) = true := by decide +kernel

theorem test_mirror_empty : Runs (up) (.mirrorWriteLand) (fun s t =>
      s.mirrorQ = [] ∧ t = s) = true := by decide +kernel

/-- A write to the wake-cause register clears the bits written with 1; the next write waits. -/
theorem test_mirror_land :
    Runs ({ up with mirrorQ := [⟨0x40001014, 3⟩, ⟨0x40001010, 9⟩], aon := [(PWR_WAKE_CAUSE_SRC.key, 7)], pwr := { up.pwr with phase := .dusk } })
      (.mirrorWriteLand) (fun s t =>
      s.psPowered = false ∧ s.mirrorQ = [⟨0x40001014, 3⟩, ⟨0x40001010, 9⟩] ∧ PWR_WAKE_CAUSE_SRC.addr = 0x40001014
      ∧ t.aonGet PWR_WAKE_CAUSE_SRC = 4 ∧ t.mirrorQ = [⟨0x40001010, 9⟩]) = true := by decide +kernel

/-! ### Supplies, power states, start-up, resets -/

/-- The module in operation with a power controller of its own. -/
def pw (f : PowerSt → PowerSt) (l : List (Fld × Nat)) : State := { st l with pwr := f up.pwr }

theorem test_vbat_low : Runs (up) (.vbatSample 899) (fun _ t =>
      t.get PWR_VBAT = 899 ∧ t.get PWR_STAT_VLOW = 1 ∧ t.isPending 0 = true) = true := by decide +kernel

/-- 32.00 V is not above 32 V. -/
theorem test_vbat_limits : Runs (st [(PWR_STAT_VLOW, 1)]) (.vbatSample 3200) (fun _ t =>
      t.get PWR_STAT_VLOW = 0 ∧ t.get PWR_STAT_VHIGH = 0 ∧ t.isPending 1 = false) = true := by decide +kernel

theorem test_temp_throttle : Runs (up) (.controlDieTempChange 541) (fun _ t =>
      signed (t.get PWR_TEMP) 16 = 541 ∧ t.get CLK_APP_DIV_THROTTLE = 1 ∧ t.isPending 5 = true ∧ t.isPending 6 = true) = true := by decide +kernel

/-- At 125 °C the throttle stays. -/
theorem test_temp_keeps : Runs (st [(CLK_APP_DIV_THROTTLE, 1)]) (.controlDieTempChange 500) (fun _ t =>
      t.get CLK_APP_DIV_THROTTLE = 1) = true := by decide +kernel

theorem test_temp_negative : Runs (st [(CLK_APP_DIV_THROTTLE, 1)]) (.controlDieTempChange (-160)) (fun _ t =>
      t.get PWR_TEMP = 65376 ∧ t.get CLK_APP_DIV_THROTTLE = 0) = true := by decide +kernel

theorem test_pll_unlock : Runs (st [(CLK_STAT_LOCK, 0x7F)]) (.pllUnlock 6) (fun s t =>
      s.awake = true ∧ t.get CLK_STAT_LOCK = 0x3F ∧ t.isPending 4 = true ∧ bit t.pwr.unlocked 6 = true) = true := by decide +kernel

theorem test_pll_relock : Runs (pw (fun p => { p with unlocked := 0x41 }) [(CLK_STAT_LOCK, 0x3E)]) (.pllRelock 6) (fun s t =>
      bit s.pwr.unlocked 6 = true ∧ t.get CLK_STAT_LOCK = 0x7E ∧ t.pwr.unlocked = 1) = true := by decide +kernel

theorem test_phy_hold : Runs (st [(PORT_STAT_LINK 7, 1)]) (.ethPhyHold) (fun s t =>
      s.on (PORT_STAT_LINK 7) = true ∧ eventLive s 120 = true ∧ t.on (PORT_STAT_LINK 7) = false ∧ t.isPending 127 = true
      ∧ t.isPending 120 = false ∧ t.pwr.phyHold = true) = true := by decide +kernel

theorem test_phy_release : Runs (pw (fun p => { p with phyHold := true }) []) (.ethPhyRelease) (fun s t =>
      s.pwr.phyHold = true ∧ t.pwr.phyHold = false) = true := by decide +kernel

theorem test_pwr_invalid : Runs (up) (.pwrReqInvalid sec 5) (fun s t =>
      s.gate sec PWR_REQ.addr true = .pass ∧ t.get PWR_RESULT_TARGET = 5 ∧ t.get PWR_RESULT_CODE = 5 ∧ t.isPending 2 = true) = true := by decide +kernel

theorem test_pwr_busy : Runs (st [(PWR_STAT_BUSY, 1)]) (.pwrReqInvalid sec 0) (fun _ t =>
      t.get PWR_RESULT_CODE = 6) = true := by decide +kernel

theorem test_pwr_busy_open : Runs (st [(PWR_STAT_BUSY, 1), (PWR_STATE_CUR, 2)]) (.pwrReqOpen sec) (fun _ t =>
      t.get PWR_RESULT_CODE = 6 ∧ t.get PWR_RESULT_TARGET = 1) = true := by decide +kernel

/-- The module is in OPEN already. -/
theorem test_pwr_same : Runs (up) (.pwrReqOpen sec) (fun s t =>
      s.get PWR_STATE_CUR = 1 ∧ t.get PWR_RESULT_CODE = 1 ∧ t.get PWR_STAT_BUSY = 0) = true := by decide +kernel

theorem test_pwr_open : Runs (st [(PWR_STATE_CUR, 2)]) (.pwrReqOpen sec) (fun _ t =>
      t.get PWR_STAT_BUSY = 1 ∧ t.pwr.target = 1) = true := by decide +kernel

theorem test_pwr_shade : Runs (up) (.pwrReqShade sec) (fun s t =>
      s.get PWR_APP_PARK ≠ 15 ∧ t.get PWR_STAT_BUSY = 1 ∧ t.isPending 3 = true ∧ t.pwr.target = 2) = true := by decide +kernel

/-- A channel's request is on: refused with 2, before anything else. -/
theorem test_pwr_dusk_channel :
    Runs ({ pw (fun p => { p with stageOn := true, ign := true }) [(PS_CH_REQ 3, 0x800)] with lines := 0 })
      (.pwrReqDusk sec) (fun s t =>
      s.channelOn = true ∧ t.get PWR_RESULT_CODE = 2 ∧ t.get PWR_RESULT_TARGET = 3) = true := by decide +kernel

theorem test_pwr_closed_segment : Runs (st [(NMW_CTL_EN, 1), (SEG_CTL_MANAGED 19, 1)]) (.pwrReqClosed sec) (fun s t =>
      s.channelOn = false ∧ s.segmentOpen = true ∧ t.get PWR_RESULT_CODE = 3 ∧ t.get PWR_RESULT_TARGET = 4) = true := by decide +kernel

theorem test_pwr_dusk_ign :
    Runs ({ pw (fun p => { p with ign := true }) [] with aon := [(PWR_CFG_IGN_HOLD.key, 1)] })
      (.pwrReqDusk sec) (fun s t =>
      s.segmentOpen = false ∧ s.aonGet PWR_CFG_IGN_HOLD = 1 ∧ t.get PWR_RESULT_CODE = 4) = true := by decide +kernel

theorem test_pwr_dusk : Runs (up) (.pwrReqDusk sec) (fun s t =>
      s.channelOn = false ∧ s.segmentOpen = false ∧ s.pwr.ign = false ∧ s.on REC_STAT_STMT_BUSY = false
      ∧ t.pwr.phase = .down1 ∧ t.pwr.target = 3 ∧ t.get REC_STAT_CLOSED = 1) = true := by decide +kernel

theorem test_app_park : Runs (st [(PWR_APP_PARK, 7)]) (.appPark (.core 3) 8) (fun s t =>
      s.gate (.core 3) PWR_APP_PARK.addr true = .pass ∧ s.parking = false ∧ t.get PWR_APP_PARK = 15) = true := by decide +kernel

/-- The last of the four cores parks: SHADE. -/
theorem test_app_park_last :
    Runs ({ pw (fun p => { p with target := 2 }) [(PWR_APP_PARK, 7), (PWR_STAT_BUSY, 1)] with harts := [(8, ⟨[], true, false, false⟩)], haltedHarts := 0x100 })
      (.appPark (.core 3) 8) (fun s t =>
      s.parking = true ∧ t.get PWR_STATE_CUR = 2 ∧ t.get PWR_RESULT_CODE = 1 ∧ t.pwr.appOff = true ∧ t.harts = []
      ∧ t.haltedHarts = 0) = true := by decide +kernel

theorem test_app_park_other : Runs (st [(PWR_APP_PARK, 7)]) (.appPark sec 8) (fun _ t =>
      t.get PWR_APP_PARK = 7) = true := by decide +kernel

theorem test_park_timeout : Runs (pw (fun p => { p with target := 2 }) [(PWR_STAT_BUSY, 1)]) (.parkTimeout) (fun s t =>
      s.parking = true ∧ t.get PWR_STAT_PARK_FORCED = 1 ∧ t.get PWR_STATE_CUR = 2 ∧ t.isPending 2 = true) = true := by decide +kernel

theorem test_shade_exit :
    Runs (pw (fun p => { p with target := 1, appOff := true }) [(PWR_STAT_BUSY, 1), (PWR_STATE_CUR, 2), (PWR_APP_PARK, 15)])
      (.shadeExitComplete) (fun s t =>
      s.on PWR_STAT_BUSY = true ∧ s.pwr.target = 1 ∧ t.get PWR_STATE_CUR = 1 ∧ t.get RST_APP = 15 ∧ t.get PWR_APP_PARK = 0
      ∧ t.pwr.appOff = false) = true := by decide +kernel

theorem test_down_step2 :
    Runs (pw (fun p => { p with phase := .down1, target := 3, stageOn := true, mdOn := true }) [(BRG_CTL_LINK_EN, 31), (BRG_STAT_LINK, 0x2492)])
      (.powerdownContinue 32768) (fun s t =>
      s.on WLD_HO_STAT_BUSY = false ∧ t.pwr.phase = .down2 ∧ t.pwr.stageOn = false ∧ t.get PWR_STAT_MD_PWR = 0
      ∧ t.get BRG_CTL_LINK_EN = 0 ∧ (List.range 5).all (fun d => t.link d == 0) = true) = true := by decide +kernel

theorem test_down_sleep :
    Runs ({ pw (fun p => { p with phase := .down2, target := 4 }) [] with mem := [(0x10000000, 1), (0x21000000, 2), (0x30000000, 3)] })
      (.powerdownContinue 32769) (fun _ t =>
      t.pwr.phase = .closed ∧ t.awake = false ∧ t.get CLK_AON_CAL = 32769 ∧ t.mem = [(0x10000000, 1), (0x30000000, 3)]) = true := by decide +kernel

/-- Local wake input 7 cancels the power-down to CLOSED. -/
theorem test_wake_cancel1 :
    Runs ({ pw (fun p => { p with phase := .down1, target := 4, back := .run }) [(PWR_STAT_BUSY, 1), (REC_STAT_CLOSED, 1)] with aon := [(PWR_WAKE_ARM.key, 0x80)] })
      (.aonWakeSource 7 0) (fun s t =>
      s.wakes 7 true = true ∧ t.pwr.phase = .run ∧ t.get PWR_RESULT_CODE = 7 ∧ t.get PWR_RESULT_TARGET = 4
      ∧ t.get REC_STAT_CLOSED = 0 ∧ t.aonGet PWR_WAKE_CAUSE_SRC = 0x80 ∧ t.isPending 2 = true) = true := by decide +kernel

theorem test_wake_cancel2 :
    Runs ({ pw (fun p => { p with phase := .down2, target := 3, back := .run }) [(PWR_STAT_BUSY, 1)] with aon := [(PWR_WAKE_ARM.key, 0x400000)] })
      (.aonWakeSource 22 0) (fun s t =>
      s.wakes 22 false = true ∧ t.pwr.stageOn = true ∧ t.get PWR_RESULT_STAGE_LOST = 1 ∧ t.pwr.ign = true) = true := by decide +kernel

theorem test_wake_closed :
    Runs ({ pw (fun p => { p with phase := .closed }) [(PWR_SLEEP_LO, 0xFFFFFFFF)] with aon := [(PWR_WAKE_ARM.key, 1)] })
      (.aonWakeSource 0 2) (fun s t =>
      s.mirrorQ = [] ∧ s.wakes 0 true = true ∧ t.pwr.phase = .converters ∧ t.get RST_CAUSE_WAKE = 1
      ∧ t.get PWR_STATE_PREV = 4 ∧ t.aonGet PWR_SLEEP_LO = 1 ∧ t.aonGet PWR_SLEEP_HI = 1) = true := by decide +kernel

theorem test_wake_unarmed :
    Runs ({ pw (fun p => { p with phase := .dusk }) [] with aon := [(PWR_WAKE_ARM.key, 0)] })
      (.aonWakeSource 8 5) (fun s t =>
      s.wakes 8 true = false ∧ s.wakes 8 false = false ∧ t.pwr.phase = .dusk) = true := by decide +kernel

theorem test_dwell :
    Runs ({ pw (fun p => { p with phase := .dusk }) [(PWR_SLEEP_LO, 3)] with aon := [(PWR_CFG_DWELL.key, 1)] })
      (.dwellExpiry 4) (fun s t =>
      s.aonGet PWR_CFG_DWELL ≠ 0 ∧ t.pwr.phase = .closed ∧ t.get PWR_SLEEP_LO = 7) = true := by decide +kernel

theorem test_por_release : Runs (State.reset) (.powerOnRelease) (fun s t =>
      s.pwr.phase = .off ∧ t.pwr.phase = .converters ∧ t.get RST_CAUSE_POR = 1) = true := by decide +kernel

theorem test_converters : Runs (pw (fun p => { p with phase := .converters }) []) (.convertersInRegulation) (fun _ t =>
      t.pwr.phase = .clocking ∧ t.pwr.stageOn = true ∧ t.get PWR_STAT_STAGE_PWR = 1) = true := by decide +kernel

/-- FIELD; both groups ask for SPLIT, which SG0 is refused; bank A first; MD_EN 1. -/
theorem test_otp_load :
    Runs ({ pw (fun p => { p with phase := .clocking }) [] with otp := ⟨0x5A, 0, true, false, 1, 0, none, none, none⟩ })
      (.otpLoad 5) (fun s t =>
      s.otp.strapSyn = 0 ∧ 2 ≤ s.lifecycle ∧ bits s.otp.strap 0 2 = 2 ∧ bits s.otp.strap 2 2 = 2 ∧ t.get SYS_ZONE = 5
      ∧ t.get (VOTE_STAT_MODE 1) = 1 ∧ t.get (VOTE_STAT_MODE 0) = 0 ∧ t.get SYS_STRAP_STAT_SG0_FORCED = 1
      ∧ t.get SYS_STRAP_BOOT_BANK = 1 ∧ t.pwr.phase = .zeroFill ∧ t.pwr.mdOn = true) = true := by decide +kernel

/-- An uncorrectable strap row: the safe defaults. -/
theorem test_otp_defaults :
    Runs ({ pw (fun p => { p with phase := .clocking }) [] with otp := ⟨0x5A, 3, true, false, 1, 0, none, none, none⟩ })
      (.otpLoad 0) (fun s t =>
      classify s.otp.strapSyn = .uncorrectable ∧ t.get SYS_STRAP_STAT_DEFAULTS = 1 ∧ t.get SYS_STRAP_BOOT_BANK = 3
      ∧ t.get SYS_STRAP_SG1_MODE = 0 ∧ t.get SYS_STRAP_MD_EN = 1) = true := by decide +kernel

theorem test_zero_fill :
    Runs ({ pw (fun p => { p with phase := .zeroFill }) [] with mem := [(0x10000000, 1), (0x21000000, 2), (0x213FFFFF, 3)], syn := [(0x2100000, 1)] })
      (.zeroFillComplete) (fun s t =>
      s.get KEY_TAMPER_BOOT = 0 ∧ t.pwr.phase = .bootRom ∧ t.mem = [(0x10000000, 1)] ∧ t.syn = []) = true := by decide +kernel

theorem test_zero_fill_alarm :
    Runs (pw (fun p => { p with phase := .zeroFill }) [(KEY_TAMPER_BOOT, 1)])
      (.zeroFillComplete) (fun _ t =>
      t.pwr.phase = .hold) = true := by decide +kernel

theorem test_boot_alarm :
    Runs (pw (fun p => { p with phase := .bootRom }) [(KEY_TAMPER_BOOT, 1)])
      (.bootRomStart true true) (fun s t =>
      s.get KEY_TAMPER_BOOT ≠ 0 ∧ t.pwr.phase = .hold) = true := by decide +kernel

theorem test_boot_fails :
    Runs ({ pw (fun p => { p with phase := .bootRom }) [] with otp := ⟨0, 0, true, false, 1, 0, none, none, none⟩ })
      (.bootRomStart false false) (fun s t =>
      s.lifecycle ≠ 0 ∧ t.pwr.phase = .hold) = true := by decide +kernel

theorem test_dram_ready :
    Runs ({ up with mem := [(0x100000000, 1), (0x1DFFFFFFF, 2), (0x1E0000000, 3)] })
      (.dramReady) (fun s t =>
      s.on PWR_STAT_DRAM_RDY = false ∧ t.mem = [(0x1E0000000, 3)] ∧ t.get PWR_STAT_DRAM_RDY = 1) = true := by decide +kernel

theorem test_power_on_reset :
    Runs ({ st [(EVC_EN 0, 7)] with mem := [(0x0, 1), (0x21000000, 2), (0x37FFFFFF, 3)], zone := 9 })
      (.powerOnReset) (fun _ t =>
      t.pwr.phase = .off ∧ t.mem = [(0x0, 1), (0x37FFFFFF, 3)] ∧ t.get (EVC_EN 0) = 0 ∧ t.zone = 0) = true := by decide +kernel

theorem test_watchdog_reset :
    Runs ({ st [(RST_WDT_CFG_EN, 1), (RST_CAUSE_POR, 1), (EVC_EN 0, 7)] with mem := [(0x21000000, 2)] })
      (.watchdogReset) (fun s t =>
      s.on RST_WDT_CFG_EN = true ∧ t.pwr.phase = .clocking ∧ t.get RST_CAUSE_WDT = 1 ∧ t.get RST_CAUSE_POR = 1
      ∧ t.get (EVC_EN 0) = 0 ∧ t.mem = [(0x21000000, 2)]) = true := by decide +kernel

theorem test_watchdog_warn : Runs (st [(RST_WDT_CFG_EN, 1)]) (.wdtWarn) (fun s t =>
      s.pwr.wdtWarned = false ∧ t.isPending 7 = true ∧ t.pwr.wdtWarned = true) = true := by decide +kernel

theorem test_sw_reset : Runs (up) (.systemSwReset sec 0xC0DE) (fun s t =>
      s.gate sec RST_SYS.addr true = .pass ∧ t.pwr.phase = .clocking ∧ t.get RST_CAUSE_SYS_SW = 1) = true := by decide +kernel

theorem test_sw_reset_not : Runs (up) (.systemSwReset sec 0xC0DF) (fun _ t =>
      t.get RST_CAUSE_SYS_SW = 0) = true := by decide +kernel

theorem test_wdt_kick : Runs (pw (fun p => { p with wdtWarned := true }) [(RST_WDT_CFG_EN, 1)]) (.wdtKick sec 0xA5) (fun s t =>
      s.gate sec RST_WDT_KICK.addr true = .pass ∧ t.pwr.wdtWarned = false ∧ t.pwr.phase = .run) = true := by decide +kernel

theorem test_wdt_kick_wrong : Runs (st [(RST_WDT_CFG_EN, 1)]) (.wdtKick sec 0xA4) (fun _ t =>
      t.pwr.phase = .clocking ∧ t.get RST_CAUSE_WDT = 1) = true := by decide +kernel

theorem test_wdt_kick_off : Runs (up) (.wdtKick sec 0) (fun s t =>
      s.on RST_WDT_CFG_EN = false ∧ t.pwr.phase = .run) = true := by decide +kernel

theorem test_block_reset :
    Runs (st [(CGW_CTL_EN, 1), (CGW_RX_LOST, 3), (CLK_BLK_GATE, 0x400000)])
      (.blockReset sec 0x1000) (fun s t =>
      s.gate sec RST_BLK0_NMW.addr true = .pass ∧ (s.ownedBits sec).contains 12 = true ∧ blockOfBit 12 = some .cgw
      ∧ t.get CGW_CTL_EN = 0 ∧ t.get CGW_RX_LOST = 0 ∧ t.get CLK_BLK_GATE = 0x400000) = true := by decide +kernel

theorem test_app_reset :
    Runs ({ st [] with harts := [(8, ⟨[], true, false, false⟩), (11, ⟨[], true, false, false⟩)], haltedHarts := 0x901 })
      (.appCoreReset sec 8) (fun s t =>
      s.gate sec RST_APP.addr true = .pass ∧ t.get RST_APP = 8 ∧ t.haltedHarts = 0x101
      ∧ t.harts = [(8, ⟨[], true, false, false⟩)]) = true := by decide +kernel

theorem test_gate_islands : Runs (up) (.clockGate sec true 3) (fun s t =>
      isNormal sec s = false ∧ s.gate sec CLK_ISL_GATE_APP.addr true = .pass ∧ t.get CLK_ISL_GATE_APP = 1
      ∧ t.get CLK_ISL_GATE_SG1 = 1 ∧ t.pwr.sg1GateDue = true) = true := by decide +kernel

/-- CGW belongs to the Normal world here: its bit does not move. -/
theorem test_gate_blocks : Runs (st [(WLD_OWN, 0xFFEFFF)]) (.clockGate sec false 0x401001) (fun s t =>
      s.gate sec CLK_BLK_GATE.addr true = .pass ∧ s.psPowered = false ∧ t.get CLK_BLK_GATE = 0x400001) = true := by decide +kernel

/-! ### The voted lane groups and the in-service test -/

/-- The module in operation with both groups started, group `g` as `f` makes it, and some fields set. -/
def gr (g : Nat) (f : LaneGrp → LaneGrp) (l : List (Fld × Nat)) : State :=
  let x := { grpInit with started := true }
  { st l with groups := [(g, f x), (1 - g, x)] }

/-- A lane writes the word `v` to SRAM. -/
def wr (v : Nat) : LaneOut := { idleOut with valid := true, write := true, addr := 0x21000010, data := v, strobes := 0xF }

theorem test_vote_idle : Runs (gr 1 id []) (.laneGroupStep 1 idleOut idleOut idleOut none 7) (fun s t =>
      s.groupRuns 1 = true ∧ s.lanesQuiet = true ∧ (s.grp 1).started = true ∧ s.groupLive 1 = true ∧ s.debugHalted 1 = false
      ∧ (s.grp 1).step = .live ∧ (s.grp 1).undo.length < 1791 ∧ (s.grp 1).relq.length < 56 ∧ s.active 1 = [0, 1, 2]
      ∧ idleOut.tcmValid = false ∧ idleOut.own = none ∧ (t.grp 1).cycle = 7 ∧ t.hartReg 4 0xB00 = 7) = true := by decide +kernel

/-- A voted write to SRAM: the old word is logged. -/
theorem test_vote_write :
    Runs ({ gr 0 id [] with mem := [(0x21000010, 7)] })
      (.laneGroupStep 0 (wr 0x04030201) (wr 0x04030201) (wr 0x04030201) none 0) (fun s t =>
      s.memGate (.lane 0 0) true 0x21000010 4 = none ∧ s.debugHalted 0 = false ∧ (s.grp 0).step = .live
      ∧ s.synOf 0x2100001 = 0 ∧ s.fabStalls = false ∧ (s.grp 0).undo.length < 1791 ∧ (s.grp 0).relq.length < 56
      ∧ t.resp = ⟨false, 0, false⟩ ∧ t.readBytes 0x21000010 4 = [1, 2, 3, 4]
      ∧ (t.grp 0).undo = [⟨2, 0, 0x21000010, 7, false⟩] ∧ (t.grp 0).writes = 1) = true := by decide +kernel

/-- Lane 2 is outvoted for the third time: FAILED; DUPLEX; event 16. -/
theorem test_vote_masks :
    Runs (gr 0 (fun x => { x with masks := [0, 0, 2] }) [(VOTE_CFG_FAIL_LIMIT 0, 3), (VOTE_MASK_CNT_LANE2 0, 0xFFFF)])
      (.laneGroupStep 0 idleOut idleOut { idleOut with tcmAddr := 4 } none 5) (fun s t =>
      s.active 0 = [0, 1, 2] ∧ outDiff (s.laneOut 0 2 idleOut) (s.laneOut 0 2 { idleOut with tcmAddr := 4 }) = 32
      ∧ s.on (VOTE_MM_INFO_VALID 0) = false ∧ t.lane 0 2 = 4 ∧ t.group 0 = 1 ∧ t.get (VOTE_MM_INFO_LANES 0) = 4
      ∧ t.get (VOTE_MM_INFO_FIELDS 0) = 32 ∧ t.isPending 16 = true) = true := by decide +kernel

theorem test_vote_masks_limit0 :
    Runs (gr 1 id [(VOTE_CFG_FAIL_LIMIT 1, 0)])
      (.laneGroupStep 1 { idleOut with strobes := 1 } idleOut idleOut none 5) (fun _ t =>
      t.lane 1 0 = 1 ∧ t.isPending 20 = true) = true := by decide +kernel

/-- Two ACTIVE lanes differ: a duplex restart, the release queue is dropped. -/
theorem test_vote_duplex :
    Runs (gr 1 (fun x => { x with relq := [⟨0x40060000, 1, 0, 1, 1, true⟩] }) [(VOTE_STAT_LANE0 1, 4), (VOTE_STAT_GROUP 1, 1)])
      (.laneGroupStep 1 idleOut idleOut { idleOut with data := 1 } (some []) 9) (fun s t =>
      s.groupLive 1 = true ∧ s.get IST_STAT_ITEM ≠ 2
      ∧ s.get (VOTE_RESTART_CNT_CONSEC 1) < max 1 (s.get (VOTE_CFG_RESTART_LIMIT 1)) ∧ t.group 1 = 3 ∧ (t.grp 1).relq = []
      ∧ t.get (VOTE_RESTART_CNT_CONSEC 1) = 1 ∧ t.get (VOTE_MM_INFO_KIND 1) = 2 ∧ t.isPending 25 = true) = true := by decide +kernel

/-- All three differ, and CONSEC is at the limit: HALTED. -/
theorem test_vote_halts :
    Runs (gr 0 id [(VOTE_RESTART_CNT_CONSEC 0, 3), (VOTE_CFG_RESTART_LIMIT 0, 3)])
      (.laneGroupStep 0 idleOut { idleOut with data := 2 } { idleOut with data := 1 } none 9) (fun s t =>
      max 1 (s.get (VOTE_CFG_RESTART_LIMIT 0)) ≤ s.get (VOTE_RESTART_CNT_CONSEC 0) ∧ t.group 0 = 4 ∧ t.isPending 19 = true
      ∧ t.get (VOTE_MM_INFO_KIND 0) = 3) = true := by decide +kernel

/-- Two of three captures see the line high: delivered, skew counted. -/
theorem test_agree_line :
    Runs (gr 0 id [(EVC_PEND 0, 0x1000), (EVC_EN 0, 0x1000), (EVC_CFG_PRIO 12, 5)])
      (.agreementArrival 0 (.line 4)) (fun s t =>
      s.groupLive 0 = true ∧ s.lanesQuiet = true ∧ s.irqLine 0 = true ∧ (t.grp 0).line = true ∧ t.get (VOTE_AGREE_SKEW 0) = 1
      ∧ bit (t.mip 0) 11 = true ∧ (t.grp 0).undo = [⟨5, 1, 0, 0, false⟩]) = true := by decide +kernel

theorem test_agree_halt : Runs ({ gr 1 id [] with dbg := { up.dbg with asks := 2 } }) (.agreementArrival 1 (.halt 1)) (fun s t =>
      s.groupRuns 1 = true ∧ s.active 1 = [0, 1, 2] ∧ (s.grp 0).window = false ∧ (s.grp 1).halt = false
      ∧ s.get IST_STAT_ITEM ≠ 5 ∧ t.debugHalted 1 = true ∧ t.dbg.asks = 0 ∧ t.get (IST_CKPT_STAT_HALF 1) = 1
      ∧ t.get (VOTE_AGREE_SKEW 1) = 1) = true := by decide +kernel

theorem test_agree_read :
    Runs (gr 0 (fun x => { x with port := some ⟨0x40060000, 0x40060000, 0xFFFFFFFF, false, false, false⟩ }) [])
      (.agreementArrival 0 (.read 0)) (fun s t =>
      isRom 0x40060000 = false ∧ s.lanesQuiet = true ∧ t.resp = ⟨false, 0xFFFFFFFF, false⟩ ∧ (t.grp 0).port = none
      ∧ (t.grp 0).undo = [⟨3, 0, 0x40060000, 0xFFFFFFFF, false⟩]) = true := by decide +kernel

/-- One lane's capture fails: the other two deliver the error response, and the lane is counted. -/
theorem test_agree_read_bad :
    Runs (gr 0 (fun x => { x with port := some ⟨0x40060000, 0x40060000, 5, true, false, true⟩ }) [])
      (.agreementArrival 0 (.read 4)) (fun _ t =>
      t.resp = ⟨true, 0, false⟩ ∧ t.get (VOTE_AGREE_HELD_LANE2 0) = 1 ∧ t.isPending 17 = true
      ∧ (t.grp 0).undo = [⟨3, 3, 0x40060000, 0, false⟩] ∧ t.hartReg 0 0x342 = 1 ∧ t.hartReg 0 0x343 = 0x40060000) = true := by decide +kernel

theorem test_time_read : Runs ({ gr 0 id [] with zone := 0x500000007 }) (.laneTimeRead 0 2 0) (fun _ t =>
      t.hartReg 0 0xC01 = 7 ∧ t.hartReg 0 0xC81 = 5 ∧ (t.grp 0).undo = [⟨4, 0, 0, 0x500000007, false⟩]) = true := by decide +kernel

theorem test_time_read_split :
    Runs ({ gr 1 id [(VOTE_STAT_MODE 1, 1), (VOTE_STAT_GROUP 1, 5), (VOTE_SPLIT_RUN 1, 2)] with zone := 0x500000007 })
      (.laneTimeRead 1 2 7) (fun s t =>
      s.isSplit 1 = true ∧ s.hartRuns 6 = true ∧ t.hartReg 6 0xC01 = 7) = true := by decide +kernel

theorem test_app_time : Runs ({ st [(RST_APP, 7)] with zone := 0x500000007 }) (.appTimeRead 3) (fun s t =>
      s.coreRuns 3 = true ∧ t.hartReg 11 0xC01 = 0x500000007) = true := by decide +kernel

/-- Zone time reaches vstimecmp of core 3. -/
theorem test_stimecmp :
    Runs ({ st [(RST_APP, 7)] with zone := 5, harts := [(11, ⟨[(0x24D, 9)], true, false, false⟩)] })
      (.stimecmpFire 3 true) (fun s t =>
      s.coreRuns 3 = true ∧ s.hartReg 11 0x24D = 9 ∧ s.timeLive = true ∧ (t.hart 11).vfired = true ∧ bit (t.mip 11) 6 = true
      ∧ t.zone = 9) = true := by decide +kernel

/-- FAIL may not leave fewer than two ACTIVE lanes. -/
theorem test_vote_fail_refused : Runs (gr 0 id [(VOTE_STAT_LANE0 0, 4), (VOTE_STAT_GROUP 0, 1)]) (.voteFail sec 0 2) (fun s t =>
      s.isSplit 0 = false ∧ t.get (VOTE_STAT_CTL_REFUSED 0) = 1 ∧ t.lane 0 1 = 0) = true := by decide +kernel

theorem test_vote_fail : Runs (gr 0 id []) (.voteFail sec 0 4) (fun _ t =>
      t.lane 0 2 = 4 ∧ t.group 0 = 1) = true := by decide +kernel

theorem test_vote_release :
    Runs (gr 0 id [(VOTE_STAT_LANE1 0, 4), (VOTE_STAT_LANE2 0, 4), (VOTE_STAT_GROUP 0, 1)])
      (.voteRelease sec 0 4) (fun _ t =>
      t.lane 0 2 = 1 ∧ t.lane 0 1 = 4) = true := by decide +kernel

theorem test_vote_rejoin_now : Runs (gr 0 id []) (.voteRejoinNow sec 0) (fun s t =>
      s.gate sec (VOTE_CTL_REARM 0).addr true = .pass ∧ (t.grp 0).rejoinNow = true) = true := by decide +kernel

theorem test_vote_split_fail : Runs (gr 1 id [(VOTE_STAT_MODE 1, 1)]) (.voteFail sec 1 7) (fun s _ =>
      s.isSplit 1 = true) = true := by decide +kernel

theorem test_rejoin_maxwait :
    Runs (gr 1 id [(VOTE_STAT_LANE2 1, 1), (VOTE_STAT_GROUP 1, 1), (VOTE_CFG_REJOIN_POL 1, 1), (VOTE_CFG_REJOIN_MAXWAIT 1, 1)])
      (.rejoinMaxwaitExpiry 1 2) (fun s t =>
      s.groupClocked 1 = true ∧ s.rejoinDue 1 2 = false ∧ t.rejoinDue 1 2 = true) = true := by decide +kernel

theorem test_rejoin_complete :
    Runs (gr 1 id [(VOTE_STAT_LANE2 1, 2), (VOTE_STAT_GROUP 1, 2)])
      (.rejoinComplete 1 0x10000 []) (fun s t =>
      s.group 1 = 2 ∧ (s.grp 1).codes = [] ∧ t.lane 1 2 = 0 ∧ t.group 1 = 0 ∧ t.get (VOTE_REJOIN_LAST 1) = 0xFFFF
      ∧ t.isPending 22 = true) = true := by decide +kernel

/-- The checkpoint buffer fails: the lane is MASKED again and the group restarts. -/
theorem test_rejoin_bad :
    Runs (gr 1 id [(VOTE_STAT_LANE2 1, 2), (VOTE_STAT_GROUP 1, 2)])
      (.rejoinComplete 1 5 [(2048, 3), (2048, 12)]) (fun s t =>
      ((s.codeFlips 1 [(2048, 3), (2048, 12)]).checkCodes 1 (s.halfWords 1)).1 = true ∧ t.lane 1 2 = 1 ∧ t.group 1 = 3
      ∧ t.isPending 25 = true) = true := by decide +kernel

theorem test_split_run : Runs (gr 1 id [(VOTE_STAT_MODE 1, 1), (VOTE_SPLIT_ENTRY2 1, 0x400)]) (.splitRun sec 1 4) (fun s t =>
      s.gate sec (VOTE_SPLIT_RUN 1).addr true = .pass ∧ t.get (VOTE_SPLIT_RUN 1) = 2 ∧ t.hartReg 6 0x7B1 = 0x1000
      ∧ bits (t.hartReg 6 0x7B0) 0 2 = 3) = true := by decide +kernel

theorem test_split_ipi : Runs (gr 1 id [(VOTE_STAT_MODE 1, 1), (VOTE_SPLIT_IPI 1, 1)]) (.splitIpiSet sec 1 0xC) (fun s t =>
      s.gate sec (VOTE_SPLIT_IPI_SET 1).addr true = .pass ∧ t.get (VOTE_SPLIT_IPI 1) = 5) = true := by decide +kernel

theorem test_split_run_voted : Runs (gr 0 id []) (.splitRun sec 0 6) (fun s _ =>
      s.isSplit 0 = false) = true := by decide +kernel

/-- The second half takes the registers; the count carries into its upper half. -/
theorem test_commit :
    Runs ({ gr 0 (fun x => { x with undo := [⟨2, 0, 0x21000000, 1, false⟩], insns := 5, writes := 1 }) [(VOTE_RESTART_CNT_CONSEC 0, 1), (IST_CKPT_CNT_LO 0, 0xFFFFFFFF)] with harts := [(0, ⟨[(1, 9)], false, false, false⟩)] })
      (.checkpointCommit 0) (fun s t =>
      s.canCommit 0 = true ∧ s.dueLanes 0 = [] ∧ s.pwr.sg1GateDue = false ∧ s.get IST_STAT_ITEM ≠ 5
      ∧ t.get (IST_CKPT_STAT_HALF 0) = 1 ∧ (t.grp 0).half1 = [(1, 9)] ∧ (t.grp 0).undo = [] ∧ t.get (IST_CKPT_CNT_HI 0) = 1
      ∧ t.get (VOTE_RESTART_CNT_CONSEC 0) = 0) = true := by decide +kernel

theorem test_qckpt : Runs (gr 1 id [(IST_CKPT_STAT_HALF 1, 1)]) (.qckptReq 1) (fun _ t =>
      t.get (IST_CKPT_STAT_HALF 1) = 0 ∧ t.get (IST_CKPT_EARLY_REQ 1) = 1) = true := by decide +kernel

theorem test_idle_window : Runs (gr 1 id []) (.idleWindowBegin 1) (fun s t =>
      s.irqLine 1 = false ∧ s.group 1 = 0 ∧ bit s.ist.due 1 = false ∧ (t.grp 1).window = true) = true := by decide +kernel

theorem test_relq_error : Runs (gr 1 id []) (.releasedWriteError 1 0x150000400) (fun s t =>
      s.isSplit 1 = false ∧ s.on (IST_RELQ_ERR_INFO_VALID 1) = false ∧ t.get (IST_RELQ_ERR_ADDR_LO 1) = 0x50000400
      ∧ t.get (IST_RELQ_ERR_ADDR_HI 1) = 1 ∧ t.isPending 27 = true ∧ t.recorder.due.map (·.code) = [0x421]) = true := by decide +kernel

/-- The old word goes back to SRAM, the committed half to the lanes. -/
theorem test_restart_restore :
    Runs ({ gr 0 (fun x => { x with step := .resetting, half1 := [(1, 9)], undo := [⟨2, 0, 0x21000010, 0x04030201, false⟩] }) [(VOTE_STAT_GROUP 0, 3), (IST_CKPT_STAT_HALF 0, 1)] with mem := [(0x21000010, 7), (0x21000014, 8)] })
      (.restartResetDone 0) (fun s t =>
      s.groupClocked 0 = true ∧ s.memGate (.lane 0 0) true 0x21000010 4 = none ∧ s.synOf 0x2100001 = 0
      ∧ t.readBytes 0x21000010 4 = [1, 2, 3, 4] ∧ t.readByte 0x21000014 = 8 ∧ t.voteRegs 0 = [(1, 9)]
      ∧ (t.grp 0).step = .restoring) = true := by decide +kernel

theorem test_restart_replay :
    Runs (gr 0 (fun x => { x with step := .restoring }) [(VOTE_STAT_GROUP 0, 3)])
      (.restartRestoreComplete 0 []) (fun s t =>
      (s.grp 0).codes = [] ∧ (t.grp 0).step = .replay) = true := by decide +kernel

theorem test_restart_halts :
    Runs (gr 1 (fun x => { x with step := .restoring }) [(VOTE_STAT_GROUP 1, 3)])
      (.restartRestoreComplete 1 [(2048, 3), (2048, 12)]) (fun s t =>
      ((s.codeFlips 1 [(2048, 3), (2048, 12)]).checkCodes 1 (List.range (s.grp 1).undo.length ++ s.halfWords 1)).1 = true
      ∧ t.group 1 = 4 ∧ t.isPending 23 = true) = true := by decide +kernel

theorem test_replay_done :
    Runs (gr 1 (fun x => { x with step := .replay, undo := [⟨3, 0, 0, 0, true⟩, ⟨2, 0, 0, 0, false⟩] }) [(VOTE_STAT_GROUP 1, 3), (VOTE_STAT_LANE1 1, 1)])
      (.replayComplete 1 0x10000) (fun s t =>
      (s.grp 1).undo.all (fun e => !isInput e || e.used) = true ∧ (t.grp 1).commitDue = true ∧ (t.grp 1).step = .live
      ∧ t.group 1 = 1 ∧ t.get (IST_RESTART_LAST_TIME 1) = 0xFFFF ∧ t.get (IST_RESTART_LAST_ENTRIES 1) = 1) = true := by decide +kernel

theorem test_ist_due : Runs (gr 1 id []) (.laneTestDue 1) (fun s t =>
      s.istGroup 1 = true ∧ bit t.ist.due 1 = true) = true := by decide +kernel

theorem test_ist_overdue : Runs (gr 1 id []) (.istOverdue 1) (fun _ t =>
      t.get IST_STAT_SG1_OVERDUE = 1 ∧ t.isPending 30 = true) = true := by decide +kernel

theorem test_ist_now : Runs (gr 1 id [(IST_CTL_SG0, 0), (IST_CTL_SG1, 1)]) (.istTestNow sec) (fun s t =>
      s.gate sec IST_CTL_TEST_NOW.addr true = .pass ∧ t.ist.due = 2) = true := by decide +kernel

theorem test_logic_bist :
    Runs (gr 1 id [(IST_STAT_ITEM, 2), (IST_STAT_UNIT, 2), (VOTE_STAT_LANE2 1, 3), (VOTE_STAT_GROUP 1, 1)])
      (.logicBistComplete) (fun s t =>
      s.get IST_STAT_ITEM = 2 ∧ s.ist.memBist = false ∧ s.lanesQuiet = true ∧ t.ist.memBist = true
      ∧ t.readByte 0x20020100005 = 0) = true := by decide +kernel

/-- Lane 2 of SG1 fails; the rotation goes on with lane 0. -/
theorem test_lane_test :
    Runs ({ gr 1 id [(IST_STAT_ITEM, 2), (IST_STAT_UNIT, 2), (VOTE_STAT_LANE2 1, 3), (VOTE_STAT_GROUP 1, 1)] with ist := ⟨0, 0, true⟩ })
      (.laneTestComplete false 0xABCD) (fun s t =>
      s.lanesQuiet = true ∧ t.lane 1 2 = 4 ∧ t.get IST_STAT_SG1_NEXT = 0 ∧ t.get IST_RESULT_OUTCOME = 2
      ∧ t.get IST_RESULT_DETAIL = 0xABCD ∧ t.isPending 29 = true ∧ t.recorder.due.map (·.code) = [0x411]) = true := by decide +kernel

/-- DMA channel 7 of DMA1 is the next item of the rotation and can be tested; a FIFO is under test. (The runs, which draw the 4096
free bytes of the test area, are not evaluated here.) -/
theorem test_idle_test_states :
    (let s : State := { gr 0 id [(IST_CTL_DMA, 1), (IST_AREA_VALID, 1)] with ist := ⟨0, 15, false⟩ }
     let u : State := gr 0 id [(IST_STAT_ITEM, 4), (IST_STAT_UNIT, 15)]
     s.awake = true ∧ s.lanesQuiet = true ∧ s.get IST_STAT_ITEM = 0 ∧ s.auxEligible 15 = true ∧ u.lanesQuiet = true
       ∧ u.get IST_STAT_ITEM = 4 ∧ u.get IST_STAT_UNIT = 15) := by decide +kernel

/-- The uncommitted half of SG1 in an idle window; the rotation wraps. -/
theorem test_idle_test_half :
    Runs ({ gr 1 id [(IST_CTL_CKB, 1)] with groups := [(1, { grpInit with started := true, window := true })], ist := ⟨0, 35, false⟩ })
      (.idleResourceTestStart) (fun s t =>
      s.auxEligible 35 = true ∧ t.get IST_STAT_ITEM = 5 ∧ t.get IST_STAT_UNIT = 3 ∧ t.ist.auxNext = 0) = true := by decide +kernel

theorem test_idle_test_pass :
    Runs (gr 0 id [(IST_STAT_ITEM, 5), (IST_STAT_UNIT, 3)])
      (.idleResourceTestComplete true 0) (fun _ t =>
      t.get IST_STAT_ITEM = 0 ∧ t.get IST_RESULT_OUTCOME = 1 ∧ t.get IST_RESULT_UNIT = 3 ∧ t.isPending 28 = true) = true := by decide +kernel

theorem test_idle_test_fails :
    Runs (gr 0 id [(IST_STAT_ITEM, 5), (IST_STAT_UNIT, 3)])
      (.idleResourceTestComplete false 7) (fun _ t =>
      bit (t.get IST_FAIL_CKB) 3 = true ∧ t.isPending 29 = true) = true := by decide +kernel

/-! ### Ring pairs, DMA, FIFOs -/

/-- The module in operation with ring pair `r` enabled and as given, rings of 16 places, and some fields set. -/
def rg (r : Ring) (x : RingSt) (l : List (Fld × Nat)) : State :=
  { st ([(RING_CFG_EN r.base, 1), (RING_CFG_SQ_LOG2 r.base, 4), (RING_CFG_CQ_LOG2 r.base, 4)] ++ l) with rings := [(r.base, x)] }

/-- A descriptor from its 256 bits. -/
def descOf (n : Nat) : List Byte := leBytes 32 n

/-- The index wraps, and the ring is full at 16 descriptors. -/
theorem test_sq_bell :
    Runs (rg (.dma 1 7) ⟨0xFFFE, 0, 0, [], []⟩ [(RING_STAT_SQ_CI 0x400312C0, 0xFFF0), (RING_CFG_GEN 0x400312C0, 0xAB)])
      (.sqDoorbell sec (.dma 1 7) 0xAB0000) (fun s t =>
      s.gate sec (Ring.dma 1 7).doorbell true = .pass ∧ (Ring.dma 1 7).base = 0x400312C0 ∧ s.get IST_STAT_ITEM ≠ 3
      ∧ (t.ring (.dma 1 7)).tail = 0) = true := by decide +kernel

/-- Backwards: no effect. -/
theorem test_sq_bell_back : Runs (rg (.eth 3) ⟨5, 0, 0, [], []⟩ []) (.sqDoorbell sec (.eth 3) 4) (fun _ t =>
      (t.ring (.eth 3)).tail = 5) = true := by decide +kernel

theorem test_sq_bell_over : Runs (rg (.eth 3) ⟨0, 0, 0, [], []⟩ []) (.sqDoorbell sec (.eth 3) 17) (fun _ t =>
      t.get (RING_STAT_STOPPED (Ring.eth 3).base) = 1 ∧ t.get (RING_STAT_CAUSE (Ring.eth 3).base) = 4
      ∧ (t.ring (.eth 3)).tail = 0) = true := by decide +kernel

theorem test_sq_bell_off : Runs (up) (.sqDoorbell sec (.cry 5) 3) (fun _ _ =>
      (Ring.cry 5).fn = none) = true := by decide +kernel

theorem test_sq_bell_stale :
    Runs (rg (.dma 0 0) ⟨0, 0, 0, [], []⟩ [(RING_CFG_GEN 0x40030100, 1)])
      (.sqDoorbell sec (.dma 0 0) 3) (fun _ t =>
      t.get (DMA_DB_IGN 0) = 1 ∧ (t.ring (.dma 0 0)).tail = 0) = true := by decide +kernel

theorem test_sq_bell_vf :
    Runs (rg (.cryVf 7) ⟨0, 0, 0, [], []⟩ [(VFM_VF_STATE_STATE 31, 1), (VFM_VF_STATE_GEN 31, 2)])
      (.sqDoorbell nrm (.cryVf 7) 0x20001) (fun s t =>
      s.gate nrm (Ring.cryVf 7).doorbell true = .pass ∧ s.vfState 31 ≠ 0 ∧ (t.ring (.cryVf 7)).tail = 1) = true := by decide +kernel

theorem test_cq_bell : Runs (rg (.lcc) ⟨3, 3, 1, [], []⟩ []) (.cqDoorbell sec .lcc 3) (fun s t =>
      idOf sec ≤ 2 ∧ s.gate sec (Ring.lcc.doorbell + 4) true = .pass ∧ (t.ring .lcc).head = 3) = true := by decide +kernel

/-- The head may not pass the entries written. -/
theorem test_cq_bell_over : Runs (rg (.cgw 7) ⟨3, 3, 1, [], []⟩ []) (.cqDoorbell sec (.cgw 7) 4) (fun _ t =>
      t.get (RING_STAT_CAUSE (Ring.cgw 7).base) = 4 ∧ (t.ring (.cgw 7)).head = 1) = true := by decide +kernel

theorem test_ring_enable :
    Runs ({ up with rings := [(0x400312C0, ⟨7, 7, 7, [], [3]⟩)] })
      (.ringEnable sec (.dma 1 7) 0x80AB0C04) (fun s t =>
      s.gate sec ((Ring.dma 1 7).base + 0x18) true = .pass ∧ t.get (RING_CFG_EN 0x400312C0) = 1
      ∧ t.get (RING_CFG_SQ_LOG2 0x400312C0) = 4 ∧ t.get (RING_CFG_CQ_LOG2 0x400312C0) = 12
      ∧ t.get (RING_CFG_GEN 0x400312C0) = 0xAB ∧ t.ring (.dma 1 7) = ringInit) = true := by decide +kernel

/-- A ring of 8 descriptors is too small: configuration error. -/
theorem test_ring_enable_bad : Runs (up) (.ringEnable sec (.eth 0) 0x80000403) (fun _ t =>
      t.get (RING_STAT_STOPPED (Ring.eth 0).base) = 1 ∧ t.get (RING_STAT_CAUSE (Ring.eth 0).base) = 3) = true := by decide +kernel

theorem test_ring_enable_again : Runs (rg (.eth 0) ⟨3, 1, 1, [], []⟩ []) (.ringEnable sec (.eth 0) 0x80010505) (fun _ t =>
      bit 0x80010505 31 = true ∧ t.get (RING_CFG_SQ_LOG2 (Ring.eth 0).base) = 4) = true := by decide +kernel

theorem test_ring_disable :
    Runs (rg (.cry 2) ⟨3, 1, 1, [⟨1, [], 0, false, none⟩], []⟩ [(RING_STAT_STOPPED (Ring.cry 2).base, 1), (RING_STAT_CAUSE (Ring.cry 2).base, 6)])
      (.ringDisable sec (.cry 2) 0x00010404) (fun _ t =>
      t.get (RING_CFG_EN (Ring.cry 2).base) = 0 ∧ t.get (RING_STAT_STOPPED (Ring.cry 2).base) = 0
      ∧ (t.ring (.cry 2)).items = [] ∧ (t.ring (.cry 2)).tail = 3) = true := by decide +kernel

/-- A NOP is fetched; the write-back shows SQ_CI 1. -/
theorem test_desc_fetched :
    Runs (rg (.cry 0) ⟨1, 0, 0, [], []⟩ [(CRY_CTL, 1), (RING_SQ_BASE_LO 0x400D1100, 0x21000000 / 64), (RING_CIWB_LO 0x400D1100, 0x21001000 / 16)])
      (.descriptorFetched (.cry 0)) (fun s t =>
      s.mayFetch (.cry 0) = true ∧ s.slotAddr (.cry 0) 0 = 0x21000000 ∧ s.ciwbAddr (.cry 0) = 0x21001000
      ∧ s.memGate (Ring.cry 0).agent false 0x21000000 32 = none ∧ s.memGate (Ring.cry 0).agent true 0x21001000 16 = none
      ∧ dGen (List.replicate 32 0) = s.ringGen (.cry 0) ∧ formatOk (.cry 0) (List.replicate 32 0) = true
      ∧ t.sqCi (.cry 0) = 1 ∧ t.readBytes 0x21001000 2 = [1, 0]
      ∧ (t.ring (.cry 0)).items = [⟨0, List.replicate 32 0, 0, false, none⟩]) = true := by decide +kernel

theorem test_desc_fetched_dma :
    Runs (rg (.dma 0 0) ⟨1, 0, 0, [], []⟩ [(RING_SQ_BASE_LO 0x40030100, 0x21000000 / 64), (RING_CIWB_LO 0x40030100, 0x21001000 / 16)])
      (.descriptorFetched (.dma 0 0)) (fun s t =>
      s.mayFetch (.dma 0 0) = true ∧ formatOk (.dma 0 0) (List.replicate 32 0) = true ∧ t.get (DMA_CH_STAT_BUSY 0 0) = 1
      ∧ (t.dmaRun 0 0).map (fun x => (x.addr, x.descs, x.begun)) = some (0x21000000, 0, false)) = true := by decide +kernel

/-- The last entry of the completion ring: TAG, phase, RESULT; then the write-back and event 245. -/
theorem test_desc_complete :
    Runs (rg (.cry 0) ⟨1, 15, 0, [⟨0, descOf 0x12340000, 0, true, some (0, 7, 0)⟩], []⟩ [(RING_CQ_BASE_LO 0x400D1100, 0x21000000 / 64), (RING_CIWB_LO 0x400D1100, 0x21001000 / 16)])
      (.descriptorComplete (.cry 0)) (fun s t =>
      (ringBlock (.cry 0)).live s = true ∧ s.nextDone (.cry 0) = some ⟨0, descOf 0x12340000, 0, true, some (0, 7, 0)⟩
      ∧ dNocpl (descOf 0x12340000) = false ∧ s.cqRoom (.cry 0) = true ∧ s.entryAddr (.cry 0) = 0x210000F0
      ∧ s.entryAddr (.cry 0) ≠ s.ciwbAddr (.cry 0)
      ∧ t.readBytes 0x210000F0 16 = [0, 0, 0, 0, 0x34, 0x12, 0, 0x80, 7, 0, 0, 0, 0, 0, 0, 0] ∧ (t.ring (.cry 0)).cqPi = 16
      ∧ (t.ring (.cry 0)).items = [] ∧ t.isPending 245 = true) = true := by decide +kernel

theorem test_desc_nocpl :
    Runs (rg (.cry 0) ⟨1, 0, 0, [⟨0, descOf 0x100000000, 0, true, some (0, 0, 0)⟩], []⟩ [])
      (.descriptorComplete (.cry 0)) (fun _ t =>
      dNocpl (descOf 0x100000000) = true ∧ (t.ring (.cry 0)).items = [] ∧ (t.ring (.cry 0)).cqPi = 0) = true := by decide +kernel

/-- A start of DMA channel 0 of engine 0 with a descriptor. -/
def dr (d : Nat) (f : DmaRun → DmaRun) (l : List (Fld × Nat)) : State :=
  { rg (.dma 0 0) ⟨1, 0, 0, [⟨0, descOf d, 0, true, none⟩], []⟩ ([(DMA_CH_STAT_BUSY 0 0, 1), (DMA_STAT_BUSY 0, 1),
      (RING_CQ_BASE_LO 0x40030100, 0x21002000 / 64), (RING_CIWB_LO 0x40030100, 0x21001000 / 16)] ++ l) with
    dma := [(0, f ⟨descOf d, 0x21003000, 0, 0, false, 0, [], none, none, false, []⟩)] }

theorem test_dma_abort : Runs (dr 0 (fun x => { x with aborting := true }) []) (.dmaAbortComplete 0 0) (fun s t =>
      (s.dmaRun 0 0).map (·.aborting) = some true ∧ t.get (DMA_CH_STAT_BUSY 0 0) = 0 ∧ t.get (DMA_STAT_BUSY 0) = 0
      ∧ t.dma = []) = true := by decide +kernel

/-- The chain limit is reached: status 0x10, capture cause 8. -/
theorem test_dma_chain_limit : Runs (dr 0 (fun x => { x with descs := 1 }) [(DMA_CH_CFG 0 0, 1)]) (.dmaNop 0 0) (fun s t =>
      max 1 (s.get (DMA_CH_CFG 0 0)) ≤ 1 ∧ s.on (DMA_ERR_INFO_VALID 0) = false ∧ (s.nextItem (.dma 0 0)).isSome = true
      ∧ t.dma = [] ∧ t.get (DMA_ERR_INFO_CAUSE 0) = 8
      ∧ (t.ring (.dma 0 0)).items.map (fun x => x.fin.map Prod.fst) = [some 0x10]) = true := by decide +kernel

theorem test_dma_nop : Runs (dr 0 id []) (.dmaNop 0 0) (fun _ t =>
      dOp (descOf 0) = 0 ∧ dbits (descOf 0) 34 1 = 0 ∧ t.dma = [] ∧ t.get (DMA_CH_STAT_DESCS 0 0) = 1
      ∧ t.get (DMA_CH_STAT_BUSY 0 0) = 0) = true := by decide +kernel

/-- One codeword is copied; the read-back is due. -/
theorem test_dma_copy :
    Runs ({ dr (1 + 0x21000010 * 2 ^ 64 + 0x21000040 * 2 ^ 128 + 16 * 2 ^ 208) id [] with mem := [(0x21000010, 1), (0x2100001F, 2), (0x21000020, 3)] })
      (.dmaCopy 0 0) (fun s t =>
      (dmaSrc (descOf (1 + 0x21000010 * 2 ^ 64 + 0x21000040 * 2 ^ 128 + 16 * 2 ^ 208))).addr = 0x21000010
      ∧ (dmaDst (descOf (1 + 0x21000010 * 2 ^ 64 + 0x21000040 * 2 ^ 128 + 16 * 2 ^ 208))).addr = 0x21000040
      ∧ dmaLen (descOf (1 + 0x21000010 * 2 ^ 64 + 0x21000040 * 2 ^ 128 + 16 * 2 ^ 208)) = 16
      ∧ s.memGate (.dma 0) false 0x21000010 16 = none ∧ s.memGate (.dma 0) true 0x21000040 16 = none
      ∧ t.readBytes 0x21000040 16 = s.readBytes 0x21000010 16 ∧ t.readByte 0x21000050 = 0
      ∧ (t.dmaRun 0 0).map (fun y => (y.bytes, y.check.isSome)) = some (16, true) ∧ t.get (DMA_BYTES_LO 0) = 16) = true := by decide +kernel

theorem test_dma_readback :
    Runs ({ dr 1 (fun x => { x with begun := true, descs := 1, check := some (0x21000040, [some 5, none], true) }) [] with mem := [(0x21000040, 5), (0x21000041, 9)] })
      (.dmaReadback 0 0) (fun s t =>
      (s.busRead (.dma 0) 0x21000040 2).1 = .ok [5, 9] ∧ readsBack [some 5, none] [5, 9] = true
      ∧ (s.dmaRun 0 0).map (fun x => (x.wait, dbits x.desc 34 1)) = some (none, 0) ∧ t.dma = []
      ∧ t.get (DMA_ERR_INFO_VALID 0) = 0) = true := by decide +kernel

theorem test_dma_readback_differs :
    Runs ({ dr 1 (fun x => { x with begun := true, descs := 1, check := some (0x21000040, [some 5, none], true) }) [] with mem := [(0x21000040, 4)] })
      (.dmaReadback 0 0) (fun s t =>
      (s.busRead (.dma 0) 0x21000040 2).1 = .ok [4, 0] ∧ readsBack [some 5, none] [4, 0] = false
      ∧ t.get (DMA_ERR_INFO_CAUSE 0) = 0xA ∧ t.get (DMA_ERR_TGT_LO 0) = 0x21000040 ∧ t.dma = []) = true := by decide +kernel

theorem test_dma_timeout :
    Runs (dr 0 (fun x => { x with begun := true, descs := 1 }) [])
      (.dmaAccessTimeout 0 0 0x150000400 false false) (fun s t =>
      s.on (RING_STAT_STOPPED (Ring.dma 0 0).base) = false ∧ s.on (RING_CFG_EN (Ring.dma 0 0).base) = true
      ∧ t.get (DMA_ERR_INFO_CAUSE 0) = 9 ∧ t.get (DMA_ERR_TGT_LO 0) = 0x50000400 ∧ t.dma = []) = true := by decide +kernel

/-- A region of 2^10 codewords at the end of the pool, both worlds Normal. -/
theorem test_fifo_enable : Runs (up) (.fifoEnable sec 15 0x800A3C00) (fun s t =>
      s.gate sec (FIFO_CFG_EN 15).addr true = .pass ∧ (s.fifoCfg 15 0x800A3C00).fifoRegionOk 15 = true
      ∧ t.get (FIFO_CFG_EN 15) = 1 ∧ t.get (FIFO_COUNT_CREDIT 15) = 1024 ∧ t.get (FIFO_CFG_OFFSET 15) = 0x3C00) = true := by decide +kernel

theorem test_fifo_enable_bad : Runs (up) (.fifoEnable sec 15 0x800A3E00) (fun s t =>
      (s.fifoCfg 15 0x800A3E00).fifoRegionOk 15 = false ∧ t.get (FIFO_CFG_EN 15) = 0 ∧ t.get FIFO_ERR_INFO_CAUSE = 6
      ∧ t.get FIFO_ERR_INFO_FIFO = 15 ∧ t.isPending 55 = true) = true := by decide +kernel

theorem test_fifo_disable :
    Runs ({ st [(FIFO_CFG_EN 2, 1), (FIFO_COUNT_CREDIT 2, 9), (FIFO_COUNT_USED 2, 7)] with fifos := [(2, ⟨1, 1, [], []⟩)] })
      (.fifoDisable sec 2 0) (fun _ t =>
      t.get (FIFO_COUNT_CREDIT 2) = 0 ∧ t.get (FIFO_COUNT_USED 2) = 0 ∧ t.fifo 2 = fifoInit) = true := by decide +kernel

/-- All the credit goes. -/
theorem test_fifo_push :
    Runs (st [(FIFO_CFG_EN 2, 1), (FIFO_CFG_PWORLD 2, 1), (FIFO_COUNT_CREDIT 2, 9), (FIFO_PUSH_LO 2, 0x2100000)])
      (.fifoPush sec 2 0x80000900) (fun s t =>
      s.gate sec (FIFO_PUSH_HI_WORDS 2).addr true = .pass ∧ (isNormal sec s == s.on (FIFO_CFG_PWORLD 2)) = false
      ∧ t.get (FIFO_COUNT_CREDIT 2) = 0 ∧ (t.fifo 2).pushes = [⟨0x21000000, 9, true, false⟩]) = true := by decide +kernel

theorem test_fifo_push_dropped :
    Runs (st [(FIFO_CFG_EN 2, 1), (FIFO_CFG_PWORLD 2, 1), (FIFO_COUNT_CREDIT 2, 8)])
      (.fifoPush sec 2 0x80000900) (fun _ t =>
      t.get (FIFO_COUNT_CREDIT 2) = 8 ∧ t.get FIFO_ERR_INFO_CAUSE = 1 ∧ t.isPending 49 = true) = true := by decide +kernel

theorem test_fifo_push_world :
    Runs (st [(FIFO_CFG_EN 2, 1), (FIFO_CFG_PWORLD 2, 0), (FIFO_COUNT_CREDIT 2, 9)])
      (.fifoPush sec 2 0x100) (fun s t =>
      (isNormal sec s == s.on (FIFO_CFG_PWORLD 2)) = true ∧ t.get FIFO_ERR_INFO_CAUSE = 5) = true := by decide +kernel

theorem test_fifo_pop :
    Runs (st [(FIFO_CFG_EN 2, 1), (FIFO_CFG_CWORLD 2, 1), (FIFO_COUNT_CREDIT 2, 8), (FIFO_COUNT_USED 2, 3)])
      (.fifoPop sec 2 3) (fun s t =>
      s.gate sec (FIFO_POP 2).addr true = .pass ∧ t.get (FIFO_COUNT_CREDIT 2) = 11 ∧ t.get (FIFO_COUNT_USED 2) = 0) = true := by decide +kernel

theorem test_fifo_pop_more :
    Runs (st [(FIFO_CFG_EN 2, 1), (FIFO_CFG_CWORLD 2, 1), (FIFO_COUNT_USED 2, 3)])
      (.fifoPop sec 2 4) (fun _ t =>
      t.get FIFO_ERR_INFO_CAUSE = 4 ∧ t.get (FIFO_COUNT_USED 2) = 3) = true := by decide +kernel

theorem test_fifo_pop_world :
    Runs (st [(FIFO_CFG_EN 2, 1), (FIFO_CFG_CWORLD 2, 1), (FIFO_COUNT_USED 2, 3)])
      (.fifoPop nrm 2 1) (fun s t =>
      s.gate nrm (FIFO_POP 2).addr true = .pass ∧ (isNormal nrm s == s.on (FIFO_CFG_CWORLD 2)) = true
      ∧ t.get FIFO_ERR_INFO_CAUSE = 5 ∧ t.get (FIFO_COUNT_USED 2) = 3) = true := by decide +kernel

/-- The word goes to the last place of the region and is committed. -/
theorem test_fifo_copied :
    Runs ({ st [(FIFO_CFG_EN 2, 1), (FIFO_CFG_SIZE_LOG2 2, 4), (FIFO_COUNT_USED 2, 1)] with fifos := [(2, ⟨15, 0, [⟨0x21000000, 1, true, false⟩], []⟩)], mem := [(0x21000000, 0xAA)] })
      (.fifoPushComplete 2) (fun s t =>
      Block.fifo.live s = true ∧ inT1to6 0x21000000 16 = true ∧ s.memGate (.fifo 2) false 0x21000000 16 = none
      ∧ t.readByte (s.fifoBase 2 + 240) = 0xAA ∧ t.get (FIFO_COUNT_USED 2) = 2 ∧ (t.fifo 2).pushes = []) = true := by decide +kernel

/-! ### The stage bridge -/

/-- The module in operation with the far dies powered, their links in the states that BRG_STAT.LINK gives, and link `d` as given. -/
def lkd (stat : Nat) (d : Nat) (x : LinkSt) (l : List (Fld × Nat)) : State :=
  { st ([(BRG_STAT_LINK, stat), (BRG_CTL_LINK_EN, 31)] ++ l) with
    links := [(d, x)]
    pwr := { up.pwr with stageOn := true, mdOn := true } }

/-- Links 0, 1, 4 are UP and 3 DOWN; bit 2 is cleared (its link is DOWN already), link 3 begins to train. -/
theorem test_link_en : Runs (lkd 0x2012 4 linkInit []) (.brgLinkEnWrite sec 0x1B) (fun s t =>
      s.gate sec BRG_CTL_LINK_EN.addr true = .pass ∧ s.link 3 = 0 ∧ s.link 4 = 2 ∧ t.link 3 = 1 ∧ t.link 4 = 2 ∧ t.link 2 = 0
      ∧ t.get BRG_CTL_LINK_EN = 0x1B) = true := by decide +kernel

theorem test_link_dis : Runs (lkd 0x2492 0 linkInit []) (.brgLinkEnWrite sec 0) (fun _ t =>
      [0, 1, 2, 3, 4].all (fun d => t.link d == 0) = true ∧ t.isPending 56 = true) = true := by decide +kernel

theorem test_hb_en : Runs (up) (.brgHbEnWrite sec 0x1F00) (fun _ t =>
      t.get BRG_CTL_HB_EN = 0x1F) = true := by decide +kernel

theorem test_retrain : Runs (lkd 0x3000 0 linkInit []) (.brgRetrainWrite sec 8) (fun s t =>
      s.gate sec BRG_CFG_RETRAIN.addr true = .pass ∧ s.link 4 = 3 ∧ t.link 4 = 1 ∧ t.get BRG_CFG_RETRAIN = 1) = true := by decide +kernel

theorem test_perr_pop :
    Runs ({ up with perr := [⟨1, 0, 0, 1, 2, 3⟩, ⟨0x50000404, 1, 0x42, 7, 0xE, 9⟩] })
      (.brgPerrPop sec) (fun s t =>
      s.gate sec BRG_PERR_CTL_POP.addr true = .pass ∧ t.perr = [⟨0x50000404, 1, 0x42, 7, 0xE, 9⟩]
      ∧ t.get BRG_PERR_ADDR_LO = 0x50000404 ∧ t.get BRG_PERR_INFO_STATUS = 0xE ∧ t.get BRG_PERR_DATA = 9
      ∧ t.get BRG_PERR_STAT_VALID = 1) = true := by decide +kernel

theorem test_stage_reset :
    Runs (lkd 0x2492 0 linkInit [(PS_CH_REQ 3, 1), (PS_CH_STAT_STATE 3 11, 2)])
      (.stageDieReset sec 8) (fun s t =>
      s.gate sec RST_STAGE_MD.addr true = .pass ∧ s.psPowered = true ∧ t.get (PS_CFG 3) = 0x14 ∧ t.get (PS_CH_REQ 3) = 0
      ∧ t.chState 3 11 = 0 ∧ t.get (PS_CH_STAT_CAUSE 3 11) = 9 ∧ t.dieSt 3 = dieInit ∧ t.ch 3 11 = chanInit 11) = true := by decide +kernel

theorem test_training : Runs (lkd 0x1000 4 { linkInit with nextTag := 3 } []) (.linkTrainingComplete 4) (fun s t =>
      s.link 4 = 1 ∧ Block.live .brg s = true ∧ t.link 4 = 2 ∧ t.lk 4 = { linkInit with nextTag := 3 }) = true := by decide +kernel

/-- Three polls in a row without an answer: event 60. -/
theorem test_poll : Runs (lkd 0x2000 4 { linkInit with pollMiss := 3 } []) (.pollSend) (fun s t =>
      s.linkUp 4 = true ∧ (t.lk 4).pollMiss = 4 ∧ (t.lk 4).down.frames = [⟨⟨7, 0, 0, 0, 0, 0, 0⟩, 0⟩] ∧ t.isPending 60 = true
      ∧ t.lk 0 = linkInit) = true := by decide +kernel

theorem test_heartbeat : Runs (lkd 0x2002 4 linkInit [(BRG_CTL_HB_EN, 16), (BRG_HB_CNT, 0xFFFF)]) (.heartbeatSend) (fun s t =>
      s.hbRuns 4 = true ∧ s.hbRuns 0 = false ∧ t.get BRG_HB_CNT = 0 ∧ (t.lk 4).down.frames = [⟨⟨6, 0, 0, 0, 0, 0, 0⟩, 0⟩]
      ∧ (t.lk 0).down.frames = []) = true := by decide +kernel

theorem test_retransmit :
    Runs (lkd 0x2000 4 { linkInit with up := ⟨[⟨⟨5, 3, 0, 0, 0, 0, 0⟩, 2⟩, ⟨⟨4, 4, 0, 0, 0, 0, 0⟩, 0⟩], 2, 5, 3⟩ } [])
      (.stageRetransmitTimeout 4 true) (fun s t =>
      s.linkUp 4 = true ∧ (t.lk 4).up = ⟨[⟨⟨5, 3, 0, 0, 0, 0, 0⟩, 3⟩, ⟨⟨4, 4, 0, 0, 0, 0, 0⟩, 0⟩], 0, 5, 3⟩
      ∧ t.get (BRG_LINK_CNT_RETRY 4) = 1) = true := by decide +kernel

/-- The fourth failure takes the link to FAULT. -/
theorem test_retransmit_fault :
    Runs (lkd 0x2 0 { linkInit with down := ⟨[⟨⟨7, 0, 0, 0, 0, 0, 0⟩, 3⟩], 0, 1, 0⟩ } [(BRG_CFG_RETRAIN, 0)])
      (.stageRetransmitTimeout 0 false) (fun _ t =>
      t.link 0 = 3 ∧ t.isPending 56 = true ∧ t.lk 0 = linkInit ∧ t.get (BRG_LINK_CNT_FAULTS 0) = 1) = true := by decide +kernel

/-- The last two words of the metering window. -/
theorem test_win_read : Runs (lkd 0x2000 4 { linkInit with nextTag := 255 } []) (.windowRead sec 0x5008FFF8 8) (fun s t =>
      dieOf 0x5008FFF8 = some 4 ∧ s.windowRefused sec 4 0x5008FFF8 8 = none ∧ s.linkUp 4 = true ∧ s.fabStalls = false
      ∧ s.islandStalls (islandOf sec) = false
      ∧ (t.lk 4).accs = [⟨255, sec, 0x5008FFF8, false, false, 0, [0, 0], [], [], [], .plain⟩] ∧ (t.lk 4).nextTag = 0
      ∧ (t.lk 4).down.frames = [⟨⟨3, 0, 0, 0, 255, 0xFFF8, 0⟩, 0⟩, ⟨⟨3, 1, 0, 0, 255, 0xFFFC, 0⟩, 0⟩]) = true := by decide +kernel

theorem test_win_np : Runs (lkd 0x2 0 linkInit []) (.windowNonpostedWrite .lcc 0x50000020 4 [0x00010001]) (fun s t =>
      s.nonPosted .lcc = true ∧ s.windowRefused .lcc 0 0x50000020 4 = none ∧ s.islandStalls (islandOf .lcc) = false
      ∧ (t.lk 0).accs = [⟨0, .lcc, 0x50000020, true, false, 0, [0x10001], [], [], [], .plain⟩]
      ∧ (t.lk 0).down.frames = [⟨⟨2, 0, 0, 0, 0, 0x20, 0x10001⟩, 0⟩]) = true := by decide +kernel

theorem test_win_posted :
    Runs (lkd 0x2 0 linkInit [(BRG_POST_SEQ 0, 0xFFFF)])
      (.windowPostedWrite (.dma 0) 0x50000020 4 [7]) (fun s t =>
      s.nonPosted (.dma 0) = false ∧ s.windowRefused (.dma 0) 0 0x50000020 4 = none ∧ s.postedRoom 0 1 = true
      ∧ (s.lk 0).waits = [] ∧ s.islandStalls (islandOf (.dma 0)) = false ∧ t.get (BRG_POST_SEQ 0) = 0
      ∧ t.resp = ⟨false, 0, false⟩ ∧ (t.lk 0).accs = [⟨0, .dma 0, 0x50000020, true, true, 0, [7], [], [], [], .plain⟩]) = true := by decide +kernel

/-- A write behind one that waits for a place waits too, without a SEQ. -/
theorem test_win_posted_waits :
    Runs (lkd 0x2 0 { linkInit with waits := [⟨0, .lcc, 0x50000010, true, true, 0, [1], [], [], [], .plain⟩] } [])
      (.windowPostedWrite (.dma 0) 0x50000020 4 [7]) (fun s t =>
      (s.lk 0).waits ≠ [] ∧ s.windowRefused (.dma 0) 0 0x50000020 4 = none ∧ s.linkUp 0 = true
      ∧ (t.lk 0).waits.map (·.addr) = [0x50000010, 0x50000020] ∧ t.get (BRG_POST_SEQ 0) = 0) = true := by decide +kernel

theorem test_win_refused : Runs (lkd 0x2 0 linkInit []) (.windowRead sec 0x50000022 4) (fun s t =>
      s.windowRefused sec 0 0x50000022 4 = some false ∧ t.resp = ⟨true, 0, false⟩ ∧ t.get BRG_NP_ERR = 1) = true := by decide +kernel

theorem test_win_down : Runs (lkd 0 0 linkInit []) (.windowNonpostedWrite .lcc 0x50000020 4 [7]) (fun s t =>
      s.windowRefused .lcc 0 0x50000020 4 = none ∧ s.linkUp 0 = false ∧ t.resp = ⟨true, 0, false⟩ ∧ t.get BRG_NP_ERR = 1) = true := by decide +kernel

theorem test_win_normal : Runs (lkd 0x2 0 linkInit []) (.windowRead nrm 0x50000020 4) (fun s t =>
      isNormal nrm s = true ∧ t.isPending 249 = true ∧ t.get WLD_VIOL_INFO_CAUSE = 2 ∧ t.resp = ⟨true, 0, false⟩) = true := by decide +kernel

/-- A clean frame arrives as it was sent, and one with a flipped bit too. -/
theorem test_frame_arrives :
    (let f : Frame := ⟨4, 5, 6, 0, 7, 0x10, 0x34⟩
     Frame.ofBits f.bits = f ∧ frameArrives f [] = some f ∧ frameArrives f [143] = some f) := by decide +kernel

/-- Die 1 answers a read of PS_CFG, a frame with one corrected bit. -/
theorem test_frame_down :
    Runs (lkd 0x10 1 { linkInit with down := ⟨[⟨⟨3, 0, 0, 0, 5, 0x10, 0⟩, 0⟩], 0, 1, 0⟩, accs := [⟨5, sec, 0x50010010, false, false, 0, [0], [], [], [], .plain⟩] } [(PS_CFG 1, 0x34)])
      (.stageFrameReceive 1 false [143] ⟨0, false⟩) (fun s t =>
      s.linkUp 1 = true ∧ s.diePowered 1 = true ∧ (frameArrives (s.nextFrame 1 false) [143]).map (·.kind) = some 3
      ∧ (s.lk 1).down.takes (s.nextFrame 1 false) = true ∧ (s.lk 1).up.covered (s.nextFrame 1 false).ack = 0
      ∧ s.farRead 1 0x10 = (0, (s.farRead 1 0x10).2) ∧ (t.lk 1).down.pos = 1 ∧ (t.lk 1).down.rxNext = 1
      ∧ (t.lk 1).up.frames = [⟨⟨4, 0, 0, 0, 5, 0x10, (s.farRead 1 0x10).2⟩, 0⟩] ∧ (t.lk 1).accs = (s.lk 1).accs) = true := by decide +kernel

/-- Die 1 finds its own codeword uncorrectable: FAR_UE. -/
theorem test_frame_far_ue :
    Runs (lkd 0x10 1 { linkInit with down := ⟨[⟨⟨3, 0, 0, 0, 5, 0x10, 0⟩, 0⟩], 0, 1, 0⟩ } [(PS_CFG 1, 0x34)])
      (.stageFrameReceive 1 false [] ⟨0, true⟩) (fun _ t =>
      (t.lk 1).up.frames = [⟨⟨4, 0, 0, 4, 5, 0x10, 0⟩, 0⟩]) = true := by decide +kernel

theorem test_frame_up :
    Runs (lkd 0x10 1 { linkInit with up := ⟨[⟨⟨4, 0, 0, 0, 5, 0x10, 0x34⟩, 0⟩], 0, 1, 0⟩, accs := [⟨5, sec, 0x50010010, false, false, 0, [0], [], [], [], .plain⟩] } [])
      (.stageFrameReceive 1 true [0] ⟨0, false⟩) (fun s t =>
      (s.lk 1).up.pos < (s.lk 1).up.frames.length ∧ (frameArrives (s.nextFrame 1 true) [0]).map (·.kind) = some 4
      ∧ (s.lk 1).up.takes (s.nextFrame 1 true) = true ∧ (s.lk 1).down.covered (s.nextFrame 1 true).ack = 0
      ∧ (s.lk 1).waits = [] ∧ (t.lk 1).accs.map (·.got) = [[(0, 0x34)]] ∧ (t.lk 1).up.pos = 1 ∧ t.get (BRG_LINK_WCE_CE 1) = 1
      ∧ t.isPending 12 = true) = true := by decide +kernel

theorem test_win_done :
    Runs (lkd 0x10 1 { linkInit with accs := [⟨5, sec, 0x50010010, false, false, 0, [0, 0], [(0, 0x34), (0, 1)], [], [], .plain⟩] } [])
      (.windowAccessComplete 1) (fun s t =>
      s.dma = [] ∧ s.dbg.acc = none ∧ t.resp = ⟨false, 0x100000034, false⟩ ∧ (t.lk 1).accs = []) = true := by decide +kernel

theorem test_win_done_error :
    Runs (lkd 0x10 1 { linkInit with accs := [⟨5, .lcc, 0x50010010, true, false, 0, [9], [(2, 0)], [], [], .plain⟩] } [])
      (.windowAccessComplete 1) (fun _ t =>
      t.resp = ⟨true, 0, false⟩ ∧ t.get BRG_NP_ERR = 1) = true := by decide +kernel

/-! ### The load channels -/

/-- The module in operation with the stage dies powered, some fields set, and one channel as given. -/
def ps (d k : Nat) (f : ChanSt → ChanSt) (l : List (Fld × Nat)) : State :=
  { st l with pwr := { up.pwr with stageOn := true }, chan := [(12 * d + k, f (chanInit k))] }

/-- Channel 11 turns on, channel 0 off. -/
theorem test_ch_cmd : Runs (ps 3 11 id [(PS_CH_REQ 3, 1), (PS_CH_STAT_STATE 3 0, 2)]) (.chCmdWrite 3 0x08010800) (fun s t =>
      s.psPowered = true ∧ (s.dieSt 3).bridgeEn = 0 ∧ s.pwr.phase ≠ .hold ∧ (s.ch 3 11).directReq = false
      ∧ t.get (PS_CH_REQ 3) = 0x800 ∧ t.chState 3 11 = 1 ∧ t.chState 3 0 = 0 ∧ t.get (PS_CH_STAT_CAUSE 3 0) = 1
      ∧ (t.dieSt 3).status = 0) = true := by decide +kernel

theorem test_ch_cmd_derate : Runs (ps 3 11 id [(PS_STAT_DERATE 3, 1)]) (.chCmdWrite 3 0x08000800) (fun s t =>
      s.dieRefuses 3 = true ∧ t.chState 3 11 = 5) = true := by decide +kernel

/-- The wire of channel 0 is still hot (105 - 65 - 10 = 30 K): refused; channel 1 is cleared. -/
theorem test_ch_clear :
    Runs (ps 0 0 (fun c => { c with dT := 31 }) [(PS_CH_STAT_STATE 0 0, 6), (PS_CH_STAT_CAUSE 0 0, 4), (PS_CH_STAT_STATE 0 1, 6), (PS_CH_STAT_CAUSE 0 1, 8), (PS_CH_STAT_RETRIES 0 1, 3)])
      (.chClearWrite 0 3) (fun s t =>
      s.clearRefused 0 0 = true ∧ s.clearRefused 0 1 = false ∧ s.request 0 1 = false ∧ t.chState 0 0 = 6 ∧ t.chState 0 1 = 0
      ∧ t.get (PS_CH_STAT_RETRIES 0 1) = 0 ∧ (t.dieSt 0).status = 2) = true := by decide +kernel

theorem test_br_cmd : Runs (ps 1 2 id []) (.brCmdWrite 1 0x309) (fun _ t =>
      t.get (PS_BR_DIR_DIR0 1) = 1 ∧ t.get (PS_BR_DIR_DIR1 1) = 2) = true := by decide +kernel

/-- 0b11 for an addressed pair refuses the whole write. -/
theorem test_br_cmd_refused : Runs (ps 1 2 id []) (.brCmdWrite 1 0x30D) (fun _ t =>
      t.get (PS_BR_DIR_DIR0 1) = 0 ∧ (t.dieSt 1).status = 2) = true := by decide +kernel

theorem test_ch_lim : Runs (ps 2 0 id []) (.chLimWrite 2 0x00000005) (fun _ t =>
      t.get (PS_CH_LIM 2) = 5 ∧ t.get (PS_CH_STAT_LIMCLS 2 1) = 1 ∧ (t.dieSt 2).status = 0) = true := by decide +kernel

/-- Channel 2 is of class M and has no class M limit below it. -/
theorem test_ch_lim_refused : Runs (ps 2 0 id []) (.chLimWrite 2 0x00000010) (fun _ t =>
      t.get (PS_CH_LIM 2) = 0 ∧ (t.dieSt 2).status = 2) = true := by decide +kernel

theorem test_info_clr_ch :
    Runs (ps 3 11 id [(PS_CH_STAT_EV_STATE 3 11, 1), (PS_CH_FCNT1_WIRE 3 11, 9), (PS_CH_STAT_EV_STATE 3 10, 1)])
      (.infoClrCh 3 0x2800) (fun _ t =>
      t.get (PS_CH_STAT_EV_STATE 3 11) = 0 ∧ t.get (PS_CH_FCNT1_WIRE 3 11) = 0 ∧ t.get (PS_CH_STAT_EV_STATE 3 10) = 1) = true := by decide +kernel

theorem test_info_clr_die :
    Runs (ps 3 11 id [(PS_DIEFLAG_SHED 3, 1), (PS_SUP_FB_APPLIED 3, 1)])
      (.infoClrDie 3 0x10000) (fun _ t =>
      t.get (PS_DIEFLAG_SHED 3) = 0 ∧ t.get (PS_SUP_FB_APPLIED 3) = 0) = true := by decide +kernel

theorem test_diag_latch : Runs (ps 0 0 id [(PS_ISUM 0, 777), (PS_CH_DIAG_I 0 5, 9)]) (.diagLatchWrite 0 1) (fun _ t =>
      t.get (PS_LATCH_DIE1_ISUM 0) = 777 ∧ t.get (PS_LATCH_DIAG 0 5) = 9 + 0x73 * 2 ^ 24) = true := by decide +kernel

/-- HOLD_MS 0 acts as 1: the hold is over. -/
theorem test_hold_ms :
    Runs ({ ps 0 0 id [(PS_SUP_STATE 0, 2)] with die := [(0, { dieInit with heldMs := 3 })] })
      (.holdMsWrite 0 0) (fun s t =>
      s.get (PS_SUP_STATE 0) = 2 ∧ t.get (PS_CFG 0) = 0 ∧ t.get (PS_SUP_HOLD_LEFT 0) = 0) = true := by decide +kernel

/-- The word DTINIT of channel 11: dirty bit 3. -/
theorem test_shadow_word : Runs (ps 3 11 id []) (.shadowWordWrite 3 0x26C 0xFF) (fun _ t =>
      psSet 0x26C = some (0x260, 5) ∧ t.get (PS_CH_DTINIT 3 11) = 0xFF ∧ t.get (PS_CH_COMMIT_DIRTY 3 11) = 8
      ∧ (t.dieSt 3).status = 0) = true := by decide +kernel

theorem test_shadow_word_refused : Runs (ps 3 11 id []) (.shadowWordWrite 3 0x26C 0x100) (fun _ t =>
      t.get (PS_CH_COMMIT_DIRTY 3 11) = 0 ∧ (t.dieSt 3).status = 2) = true := by decide +kernel

theorem test_shadow_commit :
    Runs (ps 3 11 id [(PS_CH_COMMIT_DIRTY 3 11, 0x11), (PS_CH_PROT0_RETRY_MAX 3 11, 7), (PS_CH_ROUTE_SRC 3 11, 0x17), (PS_CH_ROUTE_FALLBACK 3 11, 2)])
      (.shadowCommit 3 0x274 0x11) (fun s t =>
      s.chanShadowOk 3 11 = true ∧ (t.ch 3 11).retryMax = 7 ∧ (t.ch 3 11).src = 0x17 ∧ (t.ch 3 11).fallback = 2
      ∧ t.get (PS_CH_COMMIT_DIRTY 3 11) = 0 ∧ t.get (PS_CH_COMMIT_APPLIED 3 11) = 0x11) = true := by decide +kernel

/-- SRC 0x18 is out of range. -/
theorem test_shadow_commit_range :
    Runs (ps 0 0 id [(PS_CH_COMMIT_DIRTY 0 0, 0x10), (PS_CH_ROUTE_SRC 0 0, 0x18)])
      (.shadowCommit 0 0x114 0x10) (fun s t =>
      s.chanShadowOk 0 0 = false ∧ (t.dieSt 0).status = 2 ∧ t.get (PS_CH_COMMIT_DIRTY 0 0) = 0x10) = true := by decide +kernel

theorem test_shadow_commit_mismatch :
    Runs (ps 0 0 id [(PS_CH_COMMIT_DIRTY 0 0, 0x10), (PS_CH_ROUTE_SRC 0 0, 0)])
      (.shadowCommit 0 0x114 0x11) (fun _ t =>
      (t.dieSt 0).status = 3 ∧ t.get (PS_CH_COMMIT_DIRTY 0 0) = 0 ∧ (t.ch 0 0).src = 0x31) = true := by decide +kernel

theorem test_hb_receive :
    Runs ({ ps 3 0 id [(PS_SUP_STATE 3, 2)] with die := [(3, { dieInit with hbLast := some 0xFFFF, heldMs := 3 })] })
      (.heartbeatReceive 3 0) (fun s t =>
      (s.dieSt 3).hbLast ≠ some 0 ∧ t.get (PS_SUP_STATE 3) = 1 ∧ (t.dieSt 3).hbLast = some 0) = true := by decide +kernel

theorem test_sup_hold : Runs (ps 3 0 id [(PS_SUP_STATE 3, 1)]) (.supervisionHoldEnter 3) (fun _ t =>
      t.get (PS_SUP_STATE 3) = 2 ∧ t.get (PS_SUP_HOLD_LEFT 3) = 0x14) = true := by decide +kernel

/-- Channel 11 falls back to on, channel 0 to off, once the 20 ms of HOLD_MS are over. -/
theorem test_fallback :
    Runs ({ ps 3 11 (fun c => { c with fallback := 1 }) [(PS_SUP_STATE 3, 2), (PS_CH_REQ 3, 1)] with die := [(3, { dieInit with heldMs := 19 })] })
      (.fallbackApply 3) (fun s t =>
      s.holdMs 3 ≤ (s.dieSt 3).heldMs + 1 ∧ t.get (PS_SUP_STATE 3) = 3 ∧ t.get (PS_SUP_FB_APPLIED 3) = 1
      ∧ t.get (PS_CH_REQ 3) = 0x800) = true := by decide +kernel

/-- Channel 0 carries 3010 mA, 75 units; channel 11 is off and carries nothing of what its load would draw. -/
theorem test_diag_sample :
    Runs (ps 0 0 (fun c => { c with src := 0x30 }) [(PS_STAT_UV 0, 1), (PS_CH_REQ 0, 1), (PS_CH_STAT_STATE 0 0, 2)])
      (.channelDiagSample 0 (⟨3010, 75⟩ :: List.replicate 10 ⟨0, 75⟩ ++ [⟨9000, 300⟩]) 75 53) (fun s t =>
      s.conducts 0 0 = true ∧ t.get (PS_STAT_TDIE 0) = 75 ∧ t.get (PS_STAT_UV 0) = 0 ∧ t.get (PS_CH_DIAG_I 0 0) = 75
      ∧ t.get (PS_CH_DIAG_I 0 11) = 0 ∧ (t.ch 0 11).load = 9000 ∧ t.get (PS_CH_DIAG_TJ 0 11) = 44
      ∧ t.get (PS_CH_DIAG_TJ 0 0) = 75) = true := by decide +kernel

/-- Direct pin 7 is not configured: line 31 stays low. -/
theorem test_control_line_unused : Runs (ps 3 11 (fun c => { c with src := 0x27 }) []) (.controlLineChange 31 true) (fun s t =>
      s.lineUsable 31 = false ∧ t.lines = 0) = true := by decide +kernel

/-- Channel 11 of die 3 follows direct line 7. -/
theorem test_control_line :
    Runs ({ ps 3 11 (fun c => { c with src := 0x27 }) [] with aon := [(SNS_DC_DC_EN.key, 0x80)] })
      (.controlLineChange 31 true) (fun s t =>
      s.lineUsable 31 = true ∧ s.psPowered = true ∧ t.lines = 0x80000000 ∧ t.get (PS_CH_STAT_LINE 3 11) = 1) = true := by decide +kernel

theorem test_limit_engage :
    Runs (ps 3 11 (fun c => { c with src := 0x30 }) [(PS_CH_REQ 3, 0x800), (PS_CH_STAT_STATE 3 11, 1)])
      (.currentLimitEngage 3 ⟨11, 23001⟩) (fun s t =>
      s.highSide 3 11 = true ∧ (s.limitOf 3 11).2 < 23001 ∧ t.get (PS_CH_STAT_LIMITING 3 11) = 1 ∧ (t.ch 3 11).load = 23001) = true := by decide +kernel

theorem test_limit_trip :
    Runs (ps 3 11 (fun c => { c with limCnt := 399 }) [(PS_CH_REQ 3, 0x800), (PS_CH_STAT_STATE 3 11, 2), (PS_CH_STAT_LIMITING 3 11, 1), (PS_CH_FCNT0_LIMTIME 3 11, 255)])
      (.limitTimeTrip 3 11) (fun s t =>
      399 ≤ (s.ch 3 11).limCnt ∧ s.request 3 11 = true ∧ t.chState 3 11 = 3 ∧ t.get (PS_CH_STAT_CAUSE 3 11) = 3
      ∧ t.get (PS_CH_FCNT0_LIMTIME 3 11) = 255 ∧ (t.dieSt 3).flags = 0x800) = true := by decide +kernel

/-- The retries are used up: LATCHED. -/
theorem test_junction_latches :
    Runs (ps 3 11 (fun c => { c with limCnt := 399 }) [(PS_CH_REQ 3, 0x800), (PS_CH_STAT_STATE 3 11, 2), (PS_CH_STAT_LIMITING 3 11, 1), (PS_CH_STAT_RETRIES 3 11, 3)])
      (.junctionTrip 3 11) (fun _ t =>
      t.chState 3 11 = 6 ∧ t.get (PS_CH_STAT_CAUSE 3 11) = 2 ∧ t.get (PS_CH_FCNT0_JTRIP 3 11) = 1) = true := by decide +kernel

theorem test_retry :
    Runs (ps 0 0 (fun c => { c with coolMs := 10, stMs := 9 }) [(PS_CH_REQ 0, 1), (PS_CH_STAT_STATE 0 0, 3), (PS_CH_STAT_CAUSE 0 0, 6), (PS_CH_STAT_RETRIES 0 0, 2)])
      (.channelRetry 0 0) (fun s t =>
      s.request 0 0 = true ∧ s.on (PS_STAT_UV 0) = false ∧ (s.ch 0 0).coolMs ≤ (s.ch 0 0).stMs + 1 ∧ t.chState 0 0 = 1
      ∧ t.get (PS_CH_STAT_RETRIES 0 0) = 3) = true := by decide +kernel

theorem test_retry_clear :
    Runs (ps 0 0 (fun c => { c with stMs := 999 }) [(PS_CH_REQ 0, 1), (PS_CH_STAT_STATE 0 0, 2), (PS_CH_STAT_RETRIES 0 0, 2)])
      (.retryCountClear 0 0) (fun _ t =>
      t.get (PS_CH_STAT_RETRIES 0 0) = 0) = true := by decide +kernel

theorem test_inrush_end :
    Runs (ps 0 0 (fun c => { c with winLen := 20, stMs := 19 }) [(PS_CH_REQ 0, 1), (PS_CH_STAT_STATE 0 0, 1)])
      (.inrushWindowEnd 0 0) (fun s t =>
      s.windowRun 0 0 = true ∧ t.chState 0 0 = 2) = true := by decide +kernel

/-- Low without, high with the pull-up: an open load. -/
theorem test_off_pulled_up :
    Runs (ps 0 0 (fun c => { c with olOff := true, pullUp := true, lowBefore := true }) [])
      (.offStatePhaseEnd 0 0 true) (fun s t =>
      s.chOn 0 0 = false ∧ t.get (PS_CH_STAT_OPEN_OFF 0 0) = 1 ∧ (t.ch 0 0).pullUp = false) = true := by decide +kernel

theorem test_off_short : Runs (ps 0 0 (fun c => { c with olOff := true }) []) (.offStatePhaseEnd 0 0 true) (fun _ t =>
      t.get (PS_CH_STAT_SHORT_BAT 0 0) = 1 ∧ (t.ch 0 0).pullUp = true ∧ (t.ch 0 0).lowBefore = false) = true := by decide +kernel

/-- 65 °C and a rise just under 50 K: above 105 °C. -/
theorem test_wire_trip :
    Runs (ps 3 11 (fun c => { c with dT := 50 }) [(PS_CH_REQ 3, 0x800), (PS_CH_STAT_STATE 3 11, 2)])
      (.wireModelUpdate 3) (fun s t =>
      s.chOn 3 11 = true ∧ wireStep (s.ch 3 11) = 50 - 50 / 20000 ∧ t.chState 3 11 = 6 ∧ t.get (PS_CH_STAT_CAUSE 3 11) = 4
      ∧ t.get (PS_CH_FCNT1_WIRE 3 11) = 1) = true := by decide +kernel

theorem test_uv_off : Runs (ps 3 11 id [(PS_CH_REQ 3, 0x800), (PS_CH_STAT_STATE 3 11, 2)]) (.undervoltageTurnOff 3) (fun _ t =>
      t.chState 3 11 = 4 ∧ t.get (PS_CH_STAT_CAUSE 3 11) = 5 ∧ t.get (PS_DIEFLAG_UV_OFF 3) = 1) = true := by decide +kernel

theorem test_uv_restart :
    Runs (ps 3 11 id [(PS_CH_REQ 3, 0x800), (PS_CH_STAT_STATE 3 11, 4), (PS_STAT_UV 3, 1)])
      (.uvRestartBegin 3) (fun s t =>
      lowest (fun k => s.chState 3 k == 4) = some 11 ∧ t.get (PS_STAT_RSTSEQ 3) = 1 ∧ t.get (PS_STAT_UV 3) = 0) = true := by decide +kernel

theorem test_uv_slot :
    Runs (ps 3 11 id [(PS_CH_REQ 3, 0xC00), (PS_CH_STAT_STATE 3 11, 4), (PS_CH_STAT_STATE 3 10, 4), (PS_STAT_RSTSEQ 3, 1)])
      (.uvRestartSlot 3) (fun _ t =>
      t.chState 3 10 = 1 ∧ t.chState 3 11 = 4 ∧ t.get (PS_STAT_RSTSEQ 3) = 1) = true := by decide +kernel

theorem test_derate :
    Runs (ps 3 11 (fun c => { c with stMs := 10 }) [(PS_CH_REQ 3, 0x801), (PS_CH_STAT_STATE 3 11, 1), (PS_CH_STAT_STATE 3 0, 1)])
      (.dieDeratingEnter 3) (fun _ t =>
      t.get (PS_STAT_DERATE 3) = 1 ∧ t.chState 3 11 = 2 ∧ t.chState 3 0 = 1) = true := by decide +kernel

theorem test_derate_out : Runs (ps 3 11 id [(PS_STAT_DERATE 3, 1)]) (.dieDeratingExit 3) (fun s t =>
      s.on (PS_STAT_SENSOR_FAIL 3) = false ∧ t.get (PS_STAT_DERATE 3) = 0 ∧ t.get (PS_DIEFLAG_DERATE_OUT 3) = 1) = true := by decide +kernel

/-- At 180.0 A the lowest waiting channel turns on. -/
theorem test_deferred :
    Runs (ps 3 11 id [(PS_CH_REQ 3, 0xC00), (PS_CH_STAT_STATE 3 11, 5), (PS_CH_STAT_STATE 3 10, 3), (PS_CH_STAT_CAUSE 3 10, 7), (PS_ISUM 3, 1800)])
      (.deferredTurnOnSlot 3) (fun s t =>
      lowest (fun j => s.waitsForSlot 3 j) = some 10 ∧ s.dieRefuses 3 = false ∧ s.pwr.phase ≠ .hold ∧ t.chState 3 10 = 1
      ∧ t.chState 3 11 = 5) = true := by decide +kernel

theorem test_overtemp :
    Runs (ps 3 11 id [(PS_CH_REQ 3, 0x801), (PS_CH_STAT_STATE 3 11, 5), (PS_CH_STAT_STATE 3 0, 2)])
      (.dieOvertempShutdown 3) (fun _ t =>
      t.chState 3 11 = 3 ∧ t.get (PS_CH_STAT_CAUSE 3 0) = 7 ∧ t.get (PS_DIEFLAG_OVERTEMP 3) = 1) = true := by decide +kernel

theorem test_sensor_fail : Runs (ps 3 11 id []) (.dieSensorFail 3) (fun _ t =>
      t.get (PS_STAT_SENSOR_FAIL 3) = 1 ∧ t.on (PS_STAT_DERATE 3) = true) = true := by decide +kernel

/-- Loads of several channels of die 0, in INRUSH (`st` 1) or RUN, requested and driven. -/
def loads (st0 : Nat) (l : List (Nat × Int)) (fs : List (Fld × Nat)) : State :=
  { st (l.map (fun p => (PS_CH_STAT_STATE 0 p.1, st0)) ++ [(PS_CH_REQ 0, 0xFFF)] ++ fs) with
    pwr := { up.pwr with stageOn := true }
    chan := l.map (fun p => (p.1, { chanInit p.1 with src := 0x30, load := p.2 })) }

/-- 200.12 A: 2001 units of 100 mA are above the ceiling. -/
theorem test_isum : Runs (loads 1 [(0, 100060), (1, 100060)] []) (.currentSumUpdate 0) (fun s t =>
      s.dieSum 0 = 2001 ∧ t.get (PS_ISUM 0) = 2001 ∧ t.get (PS_STAT_CEIL 0) = 1) = true := by decide +kernel

/-- Both are above 40 A; channel 1 carries more. -/
theorem test_shed : Runs (loads 2 [(0, 40001), (1, 40002)] [(PS_STAT_CEIL 0, 1)]) (.stageShed 0) (fun s t =>
      s.chMilliamps 0 0 = 40001 ∧ t.chState 0 1 = 6 ∧ t.get (PS_CH_STAT_CAUSE 0 1) = 8 ∧ t.chState 0 0 = 2
      ∧ t.get (PS_DIEFLAG_SHED 0) = 1) = true := by decide +kernel

/-- 40 A in class H is not above its continuous current. -/
theorem test_shed_none : Runs (loads 2 [(0, 40000)] [(PS_STAT_CEIL 0, 1)]) (.stageShed 0) (fun _ t =>
      t.chState 0 0 = 2 ∧ t.get (PS_DIEFLAG_SHED_NONE 0) = 1) = true := by decide +kernel

theorem test_brake_end :
    Runs ({ ps 3 4 id [(PS_CH_REQ 3, 0x10), (PS_CH_STAT_STATE 3 4, 2), (PS_CH_STAT_STATE 3 5, 2)] with die := [(3, { dieInit with bridgeEn := 2, brake1 := 2 })] })
      (.bridgeBrakeEnd 3 1) (fun s t =>
      s.brakeOf 3 1 ≠ 0 ∧ s.chOn 3 4 = true ∧ s.dieRefuses 3 = false ∧ s.on (PS_STAT_UV 3) = false ∧ t.brakeOf 3 1 = 0
      ∧ t.chState 3 4 = 1) = true := by decide +kernel

/-! ### The load channel controller -/

/-- The stage dies powered, their links UP, and descriptor `d` at the head of the LCC's ring. -/
def lc (d : Nat) (l : List (Fld × Nat)) : State :=
  { st ([(BRG_STAT_LINK, 0x2492), (RING_CFG_EN 0x40050100, 1)] ++ l) with
    pwr := { up.pwr with stageOn := true, mdOn := true }
    rings := [(0x40050100, ⟨1, 0, 0, [⟨0, descOf d, 0, false, none⟩], []⟩)] }

/-- The counter starts at 12 mod 10, below HIGH: the line is high. -/
theorem test_lt_enable :
    Runs (st [(LCC_LT_TIME_HIGH 23, 3), (LCC_LT_TIME_PERIOD 23, 10), (LCC_LT_PHASE 23, 12)])
      (.ltEnable sec 23 0x80000215) (fun s t =>
      s.gate sec (LCC_LT_CFG_EN 23).addr true = .pass ∧ idOf sec ≤ 2 ∧ t.lt 23 = ⟨2, 3, 10, 12, 2⟩ ∧ t.lines = 2 ^ 23
      ∧ t.get (LCC_LT_CFG_RS_EN 23) = 1 ∧ t.get (LCC_LT_CFG_TCU 23) = 5) = true := by decide +kernel

/-- A further write changes the other fields only. -/
theorem test_lt_enable_again :
    Runs ({ st [(LCC_LT_CFG_EN 0, 1), (LCC_LT_TIME_HIGH 0, 9)] with lcc := { State.reset.lcc with lt := [(0, ⟨4, 5, 10, 0, 0⟩)] } })
      (.ltEnable sec 0 0x80000300) (fun _ t =>
      t.lt 0 = ⟨4, 5, 10, 0, 0⟩ ∧ t.get (LCC_LT_CFG_PRESC 0) = 3) = true := by decide +kernel

theorem test_lt_disable : Runs ({ st [(LCC_LT_CFG_EN 0, 1)] with lines := 3 }) (.ltDisable sec 0 0) (fun _ t =>
      t.lines = 2 ∧ t.get (LCC_LT_CFG_EN 0) = 0) = true := by decide +kernel

/-- The waiting values are taken at the wrap; HIGH 0 is low throughout. -/
theorem test_lt_wrap :
    Runs ({ st [(LCC_LT_CFG_EN 0, 1), (LCC_LT_TIME_HIGH 0, 0), (LCC_LT_TIME_PERIOD 0, 7)] with lcc := { State.reset.lcc with lt := [(0, ⟨9, 5, 10, 0, 0⟩)] }, lines := 1 })
      (.loadTimerWrap 0) (fun s t =>
      Block.lcc.live s = true ∧ t.lt 0 = ⟨0, 0, 7, 0, 0⟩ ∧ t.lines = 0) = true := by decide +kernel

/-- LT_RUN makes the load-timer lines valid, and channel 11 of die 3 follows line 0. -/
theorem test_lt_run : Runs ({ ps 3 11 (fun c => { c with src := 0 }) [] with lines := 1 }) (.ltRunWrite sec 0x100) (fun s t =>
      s.gate sec LCC_CTL_LT_RUN.addr true = .pass ∧ t.get LCC_CTL_LT_RUN = 1 ∧ t.get (PS_CH_STAT_LINE 3 11) = 1) = true := by decide +kernel

theorem test_lcc_sum :
    Runs ({ lc 0 [(PS_ISUM 0, 1000), (PS_ISUM 3, 500), (LCC_LOAD_MAX, 1)] with lcc := { State.reset.lcc with sums := [500, 1000] } })
      (.lccLoadSum) (fun s t =>
      Block.lcc.live s = true
      ∧ [0, 1, 2, 3].all (fun d => s.lccMiss d == 0 && (s.lk d).down.frames.isEmpty && (s.dieSt d).bridgeEn == 0) = true
      ∧ t.lcc.sums = [1500, 500, 1000] ∧ t.get LCC_LOAD_MEAN = 3 ∧ t.get LCC_LOAD_MAX = 3) = true := by decide +kernel

theorem test_lcc_nop : Runs (lc 0 []) (.lccNop) (fun s t =>
      (s.lccHead 0).map (·.desc) = some (descOf 0) ∧ lccFormatOk (descOf 0) = true
      ∧ [0, 1, 2, 3].all (fun d => s.lccMiss d == 0 && (s.lk d).down.frames.isEmpty && (s.dieSt d).bridgeEn == 0) = true
      ∧ t.get LCC_STAT_BUSY = 1 ∧ (t.ring .lcc).items.map (·.fin) = [some (0, 0, 0)]) = true := by decide +kernel

/-- The first and the last of the 48 channels: off and on. -/
theorem test_lcc_req : Runs (lc (1 + (2 ^ 47 + 1) * 2 ^ 64 + 2 ^ 47 * 2 ^ 128) [(PS_CH_REQ 0, 3)]) (.lccReq) (fun s t =>
      lccFormatOk (descOf (1 + (2 ^ 47 + 1) * 2 ^ 64 + 2 ^ 47 * 2 ^ 128)) = true ∧ (s.lccHead 1).isSome = true
      ∧ [0, 1, 2, 3].all (fun d => s.lccMiss d == 0 && (s.lk d).down.frames.isEmpty && (s.dieSt d).bridgeEn == 0) = true
      ∧ t.get (PS_CH_REQ 3) = 0x800 ∧ t.get (PS_CH_REQ 0) = 2 ∧ (t.ring .lcc).items.map (·.fin) = [some (0, 0, 0)]) = true := by decide +kernel

/-- Pair 1 of die 3 takes direction 2. -/
theorem test_lcc_bridge : Runs (lc (2 + 0x80 * 2 ^ 64 + 0x8000 * 2 ^ 72) []) (.lccBridge) (fun s t =>
      lccFormatOk (descOf (2 + 0x80 * 2 ^ 64 + 0x8000 * 2 ^ 72)) = true
      ∧ [0, 1, 2, 3].all (fun d => s.lccMiss d == 0 && (s.lk d).down.frames.isEmpty && (s.dieSt d).bridgeEn == 0) = true
      ∧ t.get (PS_BR_DIR_DIR1 3) = 2 ∧ t.get (PS_BR_DIR_DIR0 3) = 0) = true := by decide +kernel

theorem test_lcc_clear :
    Runs (lc (3 + 2 ^ 47 * 2 ^ 64) [(PS_CH_STAT_STATE 3 11, 6), (PS_CH_STAT_CAUSE 3 11, 8), (PS_CH_STAT_RETRIES 3 11, 1)])
      (.lccClear) (fun s t =>
      s.clearRefused 3 11 = false
      ∧ [0, 1, 2, 3].all (fun d => s.lccMiss d == 0 && (s.lk d).down.frames.isEmpty && (s.dieSt d).bridgeEn == 0) = true
      ∧ t.chState 3 11 = 0 ∧ t.get (PS_CH_STAT_RETRIES 3 11) = 0 ∧ (t.ring .lcc).items.map (·.fin) = [some (0, 0, 0)]) = true := by decide +kernel

/-- The wire is still hot: status 0x11, the channel among those LATCHED. -/
theorem test_lcc_clear_refused :
    Runs ({ lc (3 + 2 ^ 47 * 2 ^ 64) [(PS_CH_STAT_STATE 3 11, 6), (PS_CH_STAT_CAUSE 3 11, 4)] with chan := [(47, { chanInit 11 with dT := 31 })] })
      (.lccClear) (fun s t =>
      s.clearRefused 3 11 = true ∧ t.chState 3 11 = 6 ∧ (t.ring .lcc).items.map (·.fin) = [some (0x11, 2 ^ 47, 0)]) = true := by decide +kernel

theorem test_lcc_limit : Runs (lc (4 + 1 * 2 ^ 64 + 2 * 2 ^ 128) []) (.lccLimit) (fun s t =>
      lccFormatOk (descOf (4 + 1 * 2 ^ 64 + 2 * 2 ^ 128)) = true
      ∧ [0, 1, 2, 3].all (fun d => s.lccMiss d == 0 && (s.lk d).down.frames.isEmpty && (s.dieSt d).bridgeEn == 0) = true
      ∧ t.get (PS_CH_STAT_LIMCLS 0 0) = 2) = true := by decide +kernel

theorem test_lcc_clrinfo :
    Runs (lc (6 + 2 ^ 47 * 2 ^ 64 + 8 * 2 ^ 116) [(PS_CH_STAT_EV_STATE 3 11, 1), (PS_DIEFLAG_SHED 3, 1), (PS_DIEFLAG_SHED 2, 1)])
      (.lccClrinfo) (fun s t =>
      lccFormatOk (descOf (6 + 2 ^ 47 * 2 ^ 64 + 8 * 2 ^ 116)) = true
      ∧ [0, 1, 2, 3].all (fun d => s.lccMiss d == 0 && (s.lk d).down.frames.isEmpty && (s.dieSt d).bridgeEn == 0) = true
      ∧ t.get (PS_CH_STAT_EV_STATE 3 11) = 0 ∧ t.get (PS_DIEFLAG_SHED 3) = 0 ∧ t.get (PS_DIEFLAG_SHED 2) = 1) = true := by decide +kernel

theorem test_lcc_diag : Runs (lc (5 + 0x21000000 * 2 ^ 128) [(PS_CH_DIAG_I 0 0, 0x102)]) (.lccDiag) (fun s t =>
      (s.lccHead 5).isSome = true ∧ lccFormatOk (descOf (5 + 0x21000000 * 2 ^ 128)) = true
      ∧ s.memGate .lcc true 0x21000010 496 = none ∧ s.memGate .lcc true 0x21000000 16 = none
      ∧ [0, 1, 2, 3].all (fun d => s.lccMiss d == 0 && (s.lk d).down.frames.isEmpty && (s.dieSt d).bridgeEn == 0) = true
      ∧ t.readBytes 0x21000010 2 = [2, 1] ∧ t.get (PS_LATCH_DIAG 0 0) = 0x73000102) = true := by decide +kernel

theorem test_lcc_complete :
    Runs ({ lc 0 [] with rings := [(0x40050100, ⟨1, 0, 0, [⟨0, descOf (2 ^ 32), 0, true, some (0, 0, 0)⟩], []⟩)] })
      (.lccDescriptorComplete) (fun s t =>
      (s.nextDone .lcc).isSome = true ∧ dNocpl (descOf (2 ^ 32)) = true ∧ s.lcc.trig = false ∧ (t.ring .lcc).items = []
      ∧ t.get LCC_STAT_BUSY = 0) = true := by decide +kernel

theorem test_snap_trigger : Runs (lc 0 [(LCC_DIAG_CFG_EN, 1), (PS_CH_DIAG_I 3 11, 5)]) (.lccSnapshotTrigger) (fun s t =>
      s.on LCC_DIAG_CFG_TRIG = false ∧ s.lccBusy = false
      ∧ [0, 1, 2, 3].all (fun d => s.lccMiss d == 0 && (s.lk d).down.frames.isEmpty && (s.dieSt d).bridgeEn == 0) = true
      ∧ t.lcc.snap.isSome = true ∧ t.get (PS_LATCH_DIAG 3 11) = 0x73000005 ∧ t.get LCC_STAT_BUSY = 1) = true := by decide +kernel

theorem test_snap_waits :
    Runs ({ lc 0 [(LCC_DIAG_CFG_EN, 1)] with rings := [(0x40050100, ⟨1, 0, 0, [⟨0, descOf 0, 0, true, none⟩], []⟩)] })
      (.lccSnapshotTrigger) (fun s t =>
      s.lccBusy = true ∧ t.lcc.trig = true) = true := by decide +kernel

theorem test_snap_skipped :
    Runs ({ lc 0 [(LCC_DIAG_CFG_EN, 1), (LCC_ERR_INFO_NUM, 0xFF)] with lcc := { State.reset.lcc with trig := true } })
      (.lccSnapshotTrigger) (fun _ t =>
      t.get LCC_ERR_INFO_CAUSE = 5 ∧ t.get LCC_ERR_INFO_NUM = 0 ∧ t.get LCC_ERR_CNT = 1) = true := by decide +kernel

/-- The buffer of 16 records has wrapped: record 17 goes to place 1. -/
theorem test_snap_complete :
    Runs ({ lc 0 [(LCC_DIAG_WI, 17), (LCC_DIAG_BASE_LO, 0x21000000 / 512)] with lcc := { State.reset.lcc with snap := some (1 :: List.replicate 511 0) } })
      (.lccSnapshotComplete) (fun s t =>
      s.memGate .lcc true 0x21000210 496 = none ∧ s.memGate .lcc true 0x21000200 16 = none ∧ t.readByte 0x21000200 = 1
      ∧ t.get LCC_DIAG_WI = 18 ∧ t.lcc.snap = none) = true := by decide +kernel

/-! ### The Ethernet switch -/

/-- The module in operation with a state of the switch and some fields set. -/
def sw (e : EthSt → EthSt) (l : List (Fld × Nat)) : State := { st l with eth := e up.eth }

/-- A frame of 64 bytes without FCS: addresses, then a body that begins with `b`. -/
def frameTo (dst src : Nat) (b : List Byte) : List Byte := beBytes 6 dst ++ beBytes 6 src ++ fitBytes 52 b

/-- The counter stays at its end. -/
theorem test_rx_fcs :
    Runs (sw id [(PORT_CFG_EN 7, 1), (PORT_STAT_LINK 7, 1), (PORT_RX_DROP 7, 0xFFFFFFFF)])
      (.ethFrameReceive 7 (frameTo 2 4 []) false none) (fun _ t =>
      t.get (PORT_RX_DROP 7) = 0xFFFFFFFF) = true := by decide +kernel

theorem test_rx_plain_at_macsec :
    Runs (sw id [(PORT_CFG_EN 5, 1), (PORT_STAT_LINK 5, 1), (PORT_SEC_CFG_EN 5, 1)])
      (.ethFrameReceive 5 (frameTo 2 4 []) true none) (fun _ t =>
      t.get (PORT_SEC_BAD 5) = 1 ∧ t.get (PORT_RX_FRAMES_LO 5) = 0) = true := by decide +kernel

/-- Segment 12 is that of P6. -/
theorem test_rx_lantern :
    Runs (sw id [(PORT_CFG_EN 6, 1), (PORT_STAT_LINK 6, 1), (NMW_CTL_EN, 1), (SEG_CTL_MANAGED 12, 1), (NMW_LANT_DMAC_LO, 0x11223344), (NMW_LANT_DMAC_HI, 0x0100), (NMW_LANT_ETYPE, 0x88B5), (PORT_RX_FRAMES_LO 6, 0xFFFFFFFE)])
      (.ethFrameReceive 6 (frameTo 0x010011223344 4 [0x88, 0xB5, 1, 0x13, 5, 1]) true none) (fun s t =>
      s.managed (portSeg 6) = true ∧ s.get TIME_CTL_SLAVE_PORT ≠ 6
      ∧ s.isLantern (parseFrame (frameTo 0x010011223344 4 [0x88, 0xB5, 1, 0x13, 5, 1]) false) = true
      ∧ t.get (PORT_RX_FRAMES_LO 6) = 0xFFFFFFFF ∧ t.nmw.lanterns = [⟨12, 0x13, 5, true, true, true⟩]) = true := by decide +kernel

/-- An unknown destination floods VLAN 5, which is P0 and P7; the source moves to P0. -/
theorem test_rx_forward :
    Runs (sw (fun e => { e with vlan := [(5, ⟨0x81, 0⟩)], fdb := [(9, ⟨4, 5, false, 2⟩)] }) [(PORT_CFG_EN 0, 1), (PORT_STAT_LINK 0, 1), (PORT_CFG_EN 7, 1), (PORT_CFG_PVID 0, 5), (PORT_CFG_DEF_PCP 0, 3), (PORT_CFG_LEARN 0, 1), (ETH_CTL_SW_EN, 1), (TIME_CTL_SLAVE_PORT, 7)])
      (.ethFrameReceive 0 (frameTo 2 4 [8, 0]) true none) (fun s t =>
      s.managed (portSeg 0) = false ∧ s.portIso 7 = false ∧ s.frerOn = false ∧ s.poolRoom [] 64 = true
      ∧ (t.eQueue 7 3).map (fun f => (f.vid, f.tagged, f.port, f.len)) = [(5, false, 0, 64)]
      ∧ t.eth.fdb = [(9, ⟨4, 5, false, 1⟩)] ∧ t.get (PORT_RX_FRAMES_LO 0) = 1) = true := by decide +kernel

/-- P0 is no member of VLAN 5: the frame is counted and goes nowhere. -/
theorem test_rx_vlan :
    Runs (sw (fun e => { e with vlan := [(5, ⟨0x80, 0⟩)] }) [(PORT_CFG_EN 0, 1), (PORT_STAT_LINK 0, 1), (PORT_CFG_EN 7, 1), (PORT_CFG_PVID 0, 5), (ETH_CTL_SW_EN, 1)])
      (.ethFrameReceive 0 (frameTo 2 4 [8, 0]) true none) (fun _ t =>
      t.get (PORT_RX_DROP 0) = 1 ∧ t.eQueue 7 0 = []) = true := by decide +kernel

/-- 68 bytes with FCS exceed CBS of 64 bytes and not EBS of 128: yellow (R332). -/
theorem test_rx_yellow :
    Runs (sw (fun e => { e with vlan := [(5, ⟨0x81, 0⟩)], streams := [(3, ⟨2, 2 ^ 31 + 5 * 2 ^ 16, 1, 2 ^ 20, 2 * 2 ^ 20, 1, 0, 0, 0, none, none⟩)] }) [(PORT_CFG_EN 0, 1), (PORT_STAT_LINK 0, 1), (PORT_CFG_EN 7, 1), (PORT_CFG_PVID 0, 5), (PORT_CFG_PSFP_EN 0, 1), (ETH_CTL_SW_EN, 1), (TIME_CTL_SLAVE_PORT, 7)])
      (.ethFrameReceive 0 (frameTo 2 4 [8, 0]) true none) (fun _ t =>
      (t.eQueue 7 0).map (·.dei) = [true]
      ∧ t.eth.streams.map (fun p => (p.2.drop, p.2.meter)) = [(0, some ⟨8000000, 7500000, 0⟩)]) = true := by decide +kernel

/-- 537.6 Mbit/s fill 67.2 bytes in 1000 ns, which is less than 68: red (R332). -/
theorem test_rx_red :
    Runs ({ sw (fun e => { e with vlan := [(5, ⟨0x81, 0⟩)], streams := [(3, ⟨2, 2 ^ 31 + 5 * 2 ^ 16, 1, 8400 + 2 * 2 ^ 20, 0, 1, 0, 0, 0, none, some ⟨0, 0, 0⟩⟩)] }) [(PORT_CFG_EN 0, 1), (PORT_STAT_LINK 0, 1), (PORT_CFG_EN 7, 1), (PORT_CFG_PVID 0, 5), (PORT_CFG_PSFP_EN 0, 1), (ETH_CTL_SW_EN, 1), (TIME_CTL_SLAVE_PORT, 7)] with zone := 1000 })
      (.ethFrameReceive 0 (frameTo 2 4 [8, 0]) true none) (fun _ t =>
      t.eQueue 7 0 = [] ∧ t.eth.streams.map (fun p => (p.2.drop, p.2.meter)) = [(1, some ⟨8400000, 0, 1000⟩)]
      ∧ t.get (PORT_RX_DROP 0) = 1) = true := by decide +kernel

/-- Queue 3 goes before queue 1; VLAN 5 leaves P1 with its tag. -/
theorem test_tx :
    Runs (sw (fun e => { e with queues := [(11, [{ parseFrame (frameTo 2 4 []) false with vid := 5 }, parseFrame (frameTo 6 4 []) false]), (9, [parseFrame (frameTo 8 4 []) false])], vlan := [(5, ⟨3, 0⟩)] }) [(PORT_CFG_EN 1, 1), (PORT_STAT_LINK 1, 1), (PORT_TX_FRAMES_LO 1, 7)])
      (.ethFrameTransmit 1) (fun s t =>
      s.segDown (portSeg 1) = false ∧ bit (s.get (PORT_QBV_CTL_DEF_GATES 1)) 3 = true ∧ s.get (PORT_CFG_QBV_EN 1) = 0
      ∧ s.get (PORT_SEC_CFG_EN 1) = 0 ∧ (t.eQueue 1 3).map (·.dst) = [6] ∧ (t.eQueue 1 1).length = 1
      ∧ (t.ePort 1).out = beBytes 6 2 ++ beBytes 6 4 ++ [0x81, 0, 0, 5] ++ List.replicate 52 0 ∧ (t.ePort 1).flight = none
      ∧ t.get (PORT_TX_FRAMES_LO 1) = 8) = true := by decide +kernel

theorem test_tx_stamped :
    Runs ({ sw (fun e => { e with queues := [(56, [{ parseFrame (frameTo 2 4 []) false with direct := true, job := some ⟨.eth 2, 3, true, 0, 0⟩ }])] }) [(PORT_CFG_EN 7, 1), (PORT_STAT_LINK 7, 1)] with zone := 77 })
      (.ethFrameTransmit 7) (fun s t =>
      bit (s.get (PORT_QBV_CTL_DEF_GATES 7)) 0 = true ∧ t.eQueue 7 0 = [] ∧ ((t.ePort 7).flight.map (·.ts)) = some 77) = true := by decide +kernel

theorem test_tx_sent :
    Runs ({ sw (fun e => { e with ports := [(7, ⟨none, none, some { parseFrame (frameTo 2 4 []) false with ts := 77, epoch := 2, job := some ⟨.eth 2, 3, true, 0, 0⟩ }, []⟩)] }) [] with rings := [((Ring.eth 2).base, ⟨4, 0, 0, [⟨3, descOf 1, 0, true, none⟩], []⟩)] })
      (.ethFrameSent 7) (fun _ t =>
      (t.ePort 7).flight = none ∧ (t.ring (.eth 2)).items.map (·.fin) = [some (0, 77 + 2 * 2 ^ 48, 0)]) = true := by decide +kernel

/-- A SEND of 60 bytes at 0x21004000 to P3, at the head of ring pair 3 of the PF. -/
def sending (dport : Nat) : State :=
  { st [(ETH_CTL_SW_EN, 1), (RING_CFG_EN (Ring.eth 3).base, 1), (PORT_CFG_EN 8, 1), (PORT_CFG_PVID 8, 9), (PORT_CFG_DEF_PCP 8, 4)] with
    rings := [((Ring.eth 3).base, ⟨1, 0, 0, [⟨0, descOf (1 + 0x21004000 * 2 ^ 64 + 60 * 2 ^ 104 + dport * 2 ^ 120), 0, false, none⟩], []⟩)] }

/-- The switch takes the frame and the descriptor completes at once. -/
theorem test_eth_send : Runs (sending 3) (.ethSend (.eth 3)) (fun s t =>
      (s.ringReady (.eth 3)).isSome = true ∧ s.memGate (Ring.eth 3).agent false 0x21004000 60 = none
      ∧ targetOfRange 0x21004000 60 = some 4 ∧ s.poolRoom (s.eQueue 3 4) 60 = true
      ∧ (parseFrame (s.readBytes 0x21004000 60) false).vid = 0 ∧ servedBefore (.eth 3) = [] ∧ s.p8Turn (.eth 3) = true
      ∧ s.on (PORT_CFG_EN (ethPortOf (.eth 3))) = true
      ∧ (t.ring (.eth 3)).items.map (fun x => (x.started, x.fin)) = [(true, some (0, 0, 0))]
      ∧ (t.eQueue 3 4).map (fun f => (f.direct, f.port, f.fromRing)) = [(true, 8, true)] ∧ t.get (PORT_RX_FRAMES_LO 8) = 1) = true := by decide +kernel

/-- A RECV with a buffer at 0x21004000 and a frame that waits at ring pair 10, that of P9. -/
def receiving : State :=
  { st [(ETH_CTL_SW_EN, 1), (RING_CFG_EN (Ring.eth 10).base, 1)] with
    eth := { up.eth with host := [((Ring.eth 10).base, [{ parseFrame (frameTo 2 4 [8]) false with ts := 0x1234, port := 7, vid := 5 }])] }
    rings := [((Ring.eth 10).base, ⟨1, 0, 0, [⟨0, descOf (2 + 0x21004000 * 2 ^ 64 + 1552 * 2 ^ 104), 0, false, none⟩], []⟩)] }

theorem test_eth_recv : Runs (receiving) (.ethRecv (.eth 10)) (fun s t =>
      (s.ringReady (.eth 10)).isSome = true ∧ s.memGate (Ring.eth 10).agent true 0x21004000 84 = none
      ∧ targetOfRange 0x21004000 84 = some 4 ∧ s.p8Turn (.eth 10) = true
      ∧ t.readBytes 0x21004000 16 = [0x34, 0x12, 0, 0, 0, 0, 0, 0, 0, 0, 68, 0, 7, 0, 0, 0]
      ∧ t.readBytes 0x21004010 18 = beBytes 6 2 ++ beBytes 6 4 ++ [0x81, 0, 0, 5, 8, 0] ∧ t.get (PORT_TX_FRAMES_LO 9) = 1
      ∧ t.readByte 0x21004054 = 0 ∧ (t.ring (.eth 10)).items.map (·.fin) = [some (0, 68, 0)] ∧ t.hostQueue (.eth 10) = []) = true := by decide +kernel

theorem test_tbl_vlan :
    Runs (sw (fun e => { e with vlan := [(1, ⟨3, 1⟩)] }) [(ETH_TBL_DATA 0, 0x82010203)])
      (.ethTblWrite sec 2 4094) (fun s t =>
      s.gate sec ETH_TBL_CMD_OP.addr true = .pass ∧ t.vlanOf 4094 = ⟨0x203, 0x201⟩ ∧ t.vlanOf 1 = ⟨3, 1⟩
      ∧ t.get ETH_TBL_STAT_INDEX = 4094 ∧ t.get ETH_TBL_STAT_RESULT = 0) = true := by decide +kernel

theorem test_tbl_vlan_del :
    Runs (sw (fun e => { e with vlan := [(1, ⟨3, 1⟩)] }) [(ETH_TBL_DATA 0, 3)])
      (.ethTblWrite sec 2 1) (fun _ t =>
      t.vlanOf 1 = ⟨0, 0⟩ ∧ t.eth.vlan = []) = true := by decide +kernel

theorem test_tbl_range : Runs (up) (.ethTblWrite sec 2 4095) (fun _ t =>
      t.get ETH_TBL_STAT_RESULT = 1) = true := by decide +kernel

theorem test_tbl_read_range : Runs (up) (.ethTblRead sec 1 4096) (fun _ t =>
      t.get ETH_TBL_STAT_INDEX = 4096 ∧ t.get ETH_TBL_STAT_RESULT = 1) = true := by decide +kernel

theorem test_tbl_read_fdb :
    Runs (sw (fun e => { e with fdb := [(4095, ⟨0x0A0B0C0D0E0F, 0x123, true, 0x2000001⟩)] }) [])
      (.ethTblRead sec 1 4095) (fun _ t =>
      t.get (ETH_TBL_DATA 0) = 0x0C0D0E0F ∧ t.get (ETH_TBL_DATA 1) = 0xA1230A0B ∧ t.get (ETH_TBL_DATA 2) = 0x2000001) = true := by decide +kernel

theorem test_fdb_search :
    Runs (sw (fun e => { e with fdb := [(40, ⟨0x0A0B0C0D0E0F, 0x123, false, 4⟩)] }) [(ETH_TBL_DATA 0, 0x0C0D0E0F), (ETH_TBL_DATA 1, 0x01230A0B), (ETH_TBL_DATA 3, 1)])
      (.ethFdbSearch sec) (fun s t =>
      s.fdbFind 0x0A0B0C0D0E0F 0x123 = some (40, ⟨0x0A0B0C0D0E0F, 0x123, false, 4⟩) ∧ t.get ETH_TBL_STAT_INDEX = 40
      ∧ t.get ETH_TBL_STAT_RESULT = 0 ∧ t.get (ETH_TBL_DATA 2) = 4 ∧ t.get (ETH_TBL_DATA 1) = 0x81230A0B) = true := by decide +kernel

theorem test_fdb_search_none : Runs (up) (.ethFdbSearch sec) (fun s t =>
      s.fdbFind 0 0 = none ∧ t.get ETH_TBL_STAT_RESULT = 3) = true := by decide +kernel

theorem test_fdb_rewrite :
    Runs (sw (fun e => { e with fdb := [(40, ⟨0x0A0B0C0D0E0F, 0x123, false, 4⟩)] }) [(ETH_TBL_DATA 0, 0x0C0D0E0F), (ETH_TBL_DATA 1, 0xA1230A0B), (ETH_TBL_DATA 2, 0x401)])
      (.ethTblWrite sec 1 0) (fun _ t =>
      t.eth.fdb = [(40, ⟨0x0A0B0C0D0E0F, 0x123, true, 0x401⟩)] ∧ t.get ETH_TBL_STAT_INDEX = 40) = true := by decide +kernel

/-- At 1300 the first cycle start that lies in the future is 1600. -/
theorem test_qbv_apply :
    Runs ({ st [(PORT_QBV_BASE_LO 2, 1000), (PORT_QBV_CYCLE 2, 300), (PORT_QBV_EXT 2, 20)] with zone := 1300 })
      (.qbvApply sec 2 0xAA000501) (fun s t =>
      s.gate sec (PORT_QBV_CTL_APPLY 2).addr true = .pass ∧ (t.ePort 2).pend = some ⟨1000, 300, 5, 20, 1600⟩
      ∧ t.get (PORT_STAT_QBV_PEND 2) = 1 ∧ t.get (PORT_QBV_CTL_DEF_GATES 2) = 0xAA ∧ t.get (PORT_QBV_CTL_LEN 2) = 5) = true := by decide +kernel

theorem test_qbv_apply_ahead :
    Runs ({ st [(PORT_QBV_BASE_LO 7, 1000), (PORT_QBV_CYCLE 7, 0)] with zone := 999 })
      (.qbvApply sec 7 1) (fun _ t =>
      (t.ePort 7).pend.map (·.start) = some 1000) = true := by decide +kernel

theorem test_qbv_change :
    Runs (sw (fun e => { e with ports := [(2, ⟨none, some ⟨1000, 300, 5, 20, 1600⟩, none, []⟩)] }) [(PORT_CFG_QBV_EN 2, 1), (PORT_STAT_QBV_PEND 2, 1)])
      (.qbvScheduleChange 2) (fun _ t =>
      (t.ePort 2).oper = some ⟨1000, 300, 5, 20, 1600⟩ ∧ (t.ePort 2).pend = none ∧ t.zone = 1600
      ∧ t.get (PORT_STAT_QBV_PEND 2) = 0 ∧ t.get (PORT_STAT_QBV_BANK 2) = 1 ∧ t.isPending 133 = true) = true := by decide +kernel

/-- 50 ns into the second cycle: gate 0x0F for 50 ns more. -/
theorem test_gate_change :
    Runs ({ sw (fun e => { e with ports := [(2, ⟨some ⟨1000, 300, 1, 0, 1000⟩, none, none, []⟩)], gcl := [(1024, (0x0F, 100)), (1025, (0xF0, 200))] }) [(PORT_CFG_QBV_EN 2, 1)] with zone := 1350 })
      (.qbvGateChange 2) (fun s t =>
      (s.gatePlan 2).map (·.head?) = some (some (0x0F, 50)) ∧ t.zone = 1400 ∧ t.gates 2 = 0xF0) = true := by decide +kernel

theorem test_age_out :
    Runs (sw (fun e => { e with fdb := [(4095, ⟨4, 5, false, 2⟩)] }) [(ETH_CTL_AGE, 1)])
      (.fdbAgeOut 4095) (fun _ t =>
      t.eth.fdb = []) = true := by decide +kernel

theorem test_age_out_static :
    Runs (sw (fun e => { e with fdb := [(4095, ⟨4, 5, true, 2⟩)] }) [(ETH_CTL_AGE, 1)])
      (.fdbAgeOut 4095) (fun s t =>
      t.eth.fdb = s.eth.fdb) = true := by decide +kernel

theorem test_link_up :
    Runs ({ st [(PORT_CFG_EN 5, 1), (ETH_STAT, 1)] with pwr := { up.pwr with phyHold := false } })
      (.portLinkChange 5 true 6 true) (fun _ t =>
      t.get (PORT_STAT_LINK 5) = 1 ∧ t.get ETH_STAT = 0x21 ∧ t.get (PORT_STAT_SQI 5) = 6 ∧ t.get (PORT_STAT_PLCA_ACT 5) = 0
      ∧ t.isPending 125 = true) = true := by decide +kernel

theorem test_link_down :
    Runs (st [(PORT_STAT_LINK 7, 1), (PORT_STAT_PLCA_ACT 7, 1), (ETH_STAT, 0x81)])
      (.portLinkChange 7 false 6 true) (fun _ t =>
      t.get (PORT_STAT_LINK 7) = 0 ∧ t.get ETH_STAT = 1 ∧ t.get (PORT_STAT_PLCA_ACT 7) = 0 ∧ t.isPending 127 = true) = true := by decide +kernel

theorem test_frer_reset :
    Runs (sw (fun e => { e with streams := [(511, ⟨0, 2 ^ 31, 0, 0, 0, 0x20, 0, 0, 0, some (5, 1), none⟩)] }) [])
      (.frerRecoveryReset 511) (fun _ t =>
      t.eth.streams = [(511, ⟨0, 2 ^ 31, 0, 0, 0, 0x20, 0, 0, 0, none, none⟩)] ∧ t.isPending 131 = true) = true := by decide +kernel

/-! ### Zone time -/

/-- The module in operation at zone time `z`, with a state of the time unit and some fields set. -/
def tm (z : Nat) (f : TimeSt → TimeSt) (l : List (Fld × Nat)) : State := { st l with zone := z, zoneFrac := 3, time := f up.time }

/-- The epoch counter wraps, and LOCKED is left. -/
theorem test_time_set :
    Runs (tm 0x1FFFFFFFF id [(TIME_SET_LO, 5), (TIME_SET_HI, 7), (TIME_STAT_EPOCH, 0xFFFF), (TIME_STAT_STATE, 2)])
      (.timeSet sec) (fun s t =>
      s.gate sec TIME_CMD_SET.addr true = .pass ∧ (List.range 16).all (fun u => !(s.tcu u).armed) = true
      ∧ t.zone = 7 * 2 ^ 32 + 5 ∧ t.zoneFrac = 0 ∧ t.get TIME_STAT_EPOCH = 0 ∧ t.get TIME_STEP_OLD_HI = 1
      ∧ t.get TIME_STEP_NEW_LO = 5 ∧ t.isPending 136 = true ∧ t.get TIME_STAT_STATE = 1 ∧ t.time.epochOpen = false) = true := by decide +kernel

/-- 100 - 256 would be below zero: clamped. -/
theorem test_time_adj : Runs (tm 100 id [(TIME_ADJ, 0xFFFFFF00)]) (.timeAdj sec) (fun _ t =>
      t.zone = 0 ∧ t.zoneFrac = 3) = true := by decide +kernel

theorem test_time_ctl_gm : Runs (tm 0 id [(TIME_STAT_STATE, 3), (TIME_STAT_CLAMP, 1)]) (.timeCtlWrite sec 0x2F57) (fun s t =>
      s.gate sec TIME_CTL_GM.addr true = .pass ∧ t.get TIME_STAT_STATE = 4 ∧ t.get TIME_STAT_CLAMP = 0
      ∧ t.get TIME_CTL_SLAVE_PORT = 5 ∧ t.get TIME_CTL_SYNC_TO = 0x2F ∧ t.isPending 137 = true) = true := by decide +kernel

theorem test_time_ctl_servo : Runs (tm 0 id [(TIME_STAT_STATE, 3), (TIME_STAT_CLAMP, 1)]) (.timeCtlWrite sec 2) (fun _ t =>
      t.get TIME_STAT_STATE = 3 ∧ t.get TIME_STAT_CLAMP = 1) = true := by decide +kernel

theorem test_time_ctl_off : Runs (tm 0 id [(TIME_STAT_STATE, 1)]) (.timeCtlWrite sec 0) (fun _ t =>
      t.get TIME_STAT_STATE = 0) = true := by decide +kernel

/-- 0x1FFFFFFF ppt is beyond +500 ppm. -/
theorem test_time_freq : Runs (tm 0 id []) (.timeFreqWrite sec 0x1FFFFFFF) (fun s t =>
      s.gate sec TIME_FREQ.addr true = .pass ∧ t.get TIME_FREQ = 500000000) = true := by decide +kernel

theorem test_time_freq_low : Runs (tm 0 id []) (.timeFreqWrite sec 0x20000000) (fun _ t =>
      signed (t.get TIME_FREQ) 30 = (-500000000)) = true := by decide +kernel

theorem test_time_freq_servo : Runs (tm 0 id [(TIME_CTL_SERVO_EN, 1), (TIME_FREQ, 5)]) (.timeFreqWrite sec 9) (fun _ t =>
      t.get TIME_FREQ = 5) = true := by decide +kernel

theorem test_epoch_init : Runs (tm 0 (fun x => { x with epochOpen := true }) []) (.epochInitWrite sec 0x1FFFE) (fun s t =>
      s.locks.contains TIME_EPOCH_INIT.addr = false ∧ t.get TIME_STAT_EPOCH = 0xFFFE ∧ t.get TIME_EPOCH_INIT = 0xFFFE
      ∧ t.locks.contains TIME_EPOCH_INIT.addr = true) = true := by decide +kernel

theorem test_epoch_init_late :
    Runs (tm 0 (fun x => { x with epochOpen := false }) [(TIME_STAT_EPOCH, 4)])
      (.epochInitWrite sec 9) (fun _ t =>
      t.get TIME_STAT_EPOCH = 4 ∧ t.get TIME_EPOCH_INIT = 9) = true := by decide +kernel

theorem test_epoch_init_locked : Runs ({ tm 0 id [] with locks := [TIME_EPOCH_INIT.addr] }) (.epochInitWrite sec 9) (fun s _ =>
      s.locks.contains TIME_EPOCH_INIT.addr = true) = true := by decide +kernel

theorem test_follow_up :
    Runs (tm 0 (fun x => { x with sync := some ⟨1, 2, 3⟩ }) [(TIME_SYNC_CNT_REJECT, 0xFFFF)])
      (.followUpTimeout) (fun s t =>
      s.timeLive = true ∧ t.time.sync = none ∧ t.get TIME_SYNC_CNT_REJECT = 0xFFFF) = true := by decide +kernel

/-- FREQ is held at the mean of 3 and -10, rounded down. -/
theorem test_sync_to :
    Runs (tm 0 (fun x => { x with freqs := [(3 : Int), -10] }) [(TIME_STAT_STATE, 2), (TIME_CTL_SERVO_EN, 1)])
      (.syncTimeout) (fun _ t =>
      t.get TIME_STAT_STATE = 3 ∧ signed (t.get TIME_FREQ) 30 = (-4) ∧ t.isPending 137 = true) = true := by decide +kernel

/-- At 1001 the next CMP + k PER is 1300. -/
theorem test_tcu_en : Runs (tm 1001 id [(TIME_TCU_CMP_LO 15, 1000), (TIME_TCU_PER 15, 300)]) (.tcuEnable sec 15 1) (fun s t =>
      s.gate sec (TIME_TCU_CFG_EN 15).addr true = .pass ∧ t.tcu 15 = ⟨1000, true, 1300, none⟩) = true := by decide +kernel

theorem test_tcu_en_at : Runs (tm 1000 id [(TIME_TCU_CMP_LO 0, 1000)]) (.tcuEnable sec 0 7) (fun _ t =>
      t.tcu 0 = ⟨1000, true, 1000, none⟩ ∧ t.get (TIME_TCU_CFG_EVT_EN 0) = 1 ∧ t.get (TIME_TCU_CFG_LATE 0) = 0) = true := by decide +kernel

theorem test_tcu_en_late : Runs (tm 1001 id [(TIME_TCU_CMP_LO 3, 1000)]) (.tcuEnable sec 3 5) (fun _ t =>
      t.get (TIME_TCU_CFG_LATE 3) = 1 ∧ t.isPending 139 = true ∧ t.isPending 143 = true ∧ (t.tcu 3).armed = false) = true := by decide +kernel

theorem test_tcu_off :
    Runs (tm 5 (fun x => { x with tcu := [(2, ⟨1, true, 7, some 3⟩)] }) [(TIME_TCU_CFG_EN 2, 1)])
      (.tcuEnable sec 2 0) (fun _ t =>
      t.tcu 2 = ⟨1, false, 7, none⟩ ∧ t.get (TIME_TCU_CFG_EN 2) = 0) = true := by decide +kernel

theorem test_tcu_cmp : Runs (tm 5 id [(TIME_TCU_CFG_EN 2, 1), (TIME_TCU_CMP_LO 2, 3)]) (.tcuCmpHiWrite sec 2 1) (fun s t =>
      s.gate sec (TIME_TCU_CMP_HI 2).addr true = .pass ∧ t.tcu 2 = ⟨2 ^ 32 + 3, true, 2 ^ 32 + 3, none⟩) = true := by decide +kernel

theorem test_tcu_cmp_off : Runs (up) (.tcuCmpHiWrite sec 2 0xFFFFFFFF) (fun _ t =>
      t.get (TIME_TCU_CMP_HI 2) = 0xFFFFFFFF) = true := by decide +kernel

theorem test_tcu_per : Runs (up) (.tcuPerWrite sec 15 0xFFFFFFFF) (fun _ t =>
      t.get (TIME_TCU_PER 15) = 0x3FFFFFFF) = true := by decide +kernel

/-- 5 ns after the firing before, half of PER: not skipped. -/
theorem test_tcu_fire :
    Runs (tm 5 (fun x => { x with tcu := [(3, ⟨7, true, 7, some 2⟩)] }) [(TIME_TCU_CFG_EN 3, 1), (TIME_TCU_CFG_EVT_EN 3, 1), (TIME_TCU_PER 3, 10)])
      (.tcuFire 3) (fun s t =>
      s.timeLive = true ∧ t.tcu 3 = ⟨7, true, 17, some 7⟩ ∧ t.zone = 7 ∧ t.isPending 143 = true) = true := by decide +kernel

theorem test_tcu_fire_soon :
    Runs (tm 5 (fun x => { x with tcu := [(3, ⟨7, true, 7, some 2⟩)] }) [(TIME_TCU_CFG_EN 3, 1), (TIME_TCU_CFG_EVT_EN 3, 1), (TIME_TCU_PER 3, 11)])
      (.tcuFire 3) (fun _ t =>
      t.tcu 3 = ⟨7, true, 18, some 2⟩ ∧ t.get (TIME_TCU_MISS 3) = 1 ∧ t.isPending 139 = true ∧ t.isPending 143 = false) = true := by decide +kernel

/-- A strobe at each whole millisecond of zone time; the list ends before channel 11. -/
theorem test_can_strobe :
    Runs (tm 1999999 id [(CAN_TSY_CNT 11 0, 4), (CAN_TSY_INFO_SEQ 11 0, 255), (TIME_STAT_EPOCH, 6)])
      (.canTimeStrobe [1, 2]) (fun s t =>
      (Block.can 11).live s = true ∧ t.zone = 2000000 ∧ t.get (CAN_TSY_CNT 1 0) = 2 ∧ t.get (CAN_TSY_CNT 11 0) = 0
      ∧ t.get (CAN_TSY_CNT 11 1) = 4 ∧ t.get (CAN_TSY_INFO_SEQ 11 0) = 0 ∧ t.get (CAN_TSY_INFO_EPOCH 11 0) = 6
      ∧ t.get (CAN_TSY_TLO 0 0) = 2000000) = true := by decide +kernel

/-! ### CAN channels and the gateway -/

/-- Channel `c` error-active and as given, the gateway on, ring pair 0 of the gateway with an item, and some fields set. -/
def cn (c : Nat) (x : CanCh) (l : List (Fld × Nat)) : State :=
  { st ([(CAN_CTL_EN c, 1), (CAN_STAT_STATE c, 0), (CGW_CTL_EN, 1), (RING_CFG_EN (Ring.cgw 0).base, 1)] ++ l) with
    can := { up.can with chans := [(c, x)] }
    rings := [((Ring.cgw 0).base, ⟨1, 0, 0, [⟨0, descOf 1, 0, true, none⟩], []⟩)] }

/-- A frame of ring pair 0 of the gateway for a channel. -/
def gf (ch id : Nat) : GwFrame := ⟨⟨id, false, false, false, false, false, [1]⟩, ch, .pf, some (.cgw 0, 0), false, false, 0⟩

theorem test_can_en : Runs (st [(CAN_STAT_TEC 11, 9), (CAN_STAT_RP 11, 1)]) (.canEnable sec 11 3) (fun s t =>
      s.gate sec (CAN_CTL_EN 11).addr true = .pass ∧ (s.canCtl 11 3).timingRefused 11 = false ∧ t.get (CAN_CTL_EN 11) = 1
      ∧ t.get (CAN_CTL_FD_EN 11) = 1 ∧ t.get (CAN_STAT_TEC 11) = 0 ∧ t.canRec 11 = 0) = true := by decide +kernel

/-- 1 + 46 + 32 = 79 protocol clocks for a nominal bit. -/
theorem test_can_en_refused : Runs (st [(CAN_NBT_TSEG1 0, 45)]) (.canEnable sec 0 0x203) (fun s t =>
      (s.canCtl 0 0x203).timingRefused 0 = true ∧ t.get (CAN_CTL_EN 0) = 0 ∧ t.get (CAN_STAT_CFG_ERR 0) = 1
      ∧ t.get (CAN_CTL_TDC_EN 0) = 1) = true := by decide +kernel

theorem test_can_ctl_off : Runs (up) (.canDisable sec 5 0x120) (fun _ t =>
      t.get (CAN_CTL_MODE 5) = 2 ∧ t.get (CAN_CTL_TRIPLE 5) = 1 ∧ t.get (CAN_CTL_FD_EN 5) = 0) = true := by decide +kernel

theorem test_can_disable :
    Runs (cn 3 ⟨[(2, gf 3 7)], some 2, [], false⟩ [(CAN_STAT_STATE 3, 2)])
      (.canDisable sec 3 0) (fun s t =>
      (s.canCh 3).slots.length = 1 ∧ t.get (CAN_STAT_STATE 3) = 3 ∧ t.canCh 3 = ⟨[], none, [], true⟩
      ∧ (t.ring (.cgw 0)).items.map (·.fin) = [some (0x16, 0, 0)] ∧ t.isPending 156 = true) = true := by decide +kernel

theorem test_can_recover : Runs (st [(CAN_STAT_STATE 4, 2)]) (.canRecover sec 4) (fun s t =>
      s.gate sec (CAN_CTL_RECOVER 4).addr true = .pass ∧ t.get (CAN_STAT_RECOVERING 4) = 1) = true := by decide +kernel

theorem test_can_recovered :
    Runs (st [(CAN_STAT_STATE 4, 2), (CAN_STAT_RECOVERING 4, 1), (CAN_STAT_TEC 4, 255)])
      (.canRecoveryComplete 4) (fun s t =>
      (Block.can 4).live s = true ∧ t.get (CAN_STAT_STATE 4) = 0 ∧ t.get (CAN_STAT_TEC 4) = 0 ∧ t.isPending 160 = true) = true := by decide +kernel

theorem test_can_dominant : Runs (cn 11 canInit []) (.canDominantTimeout 11) (fun _ t =>
      t.get (CAN_ERR_CAP_TYPE 11) = 6 ∧ t.get (CAN_ERR_CAP_TX 11) = 1 ∧ t.isPending 190 = true) = true := by decide +kernel

theorem test_can_integrate : Runs (cn 0 canInit [(CAN_STAT_STATE 0, 3), (CAN_STAT_TEC 0, 128)]) (.canBusIntegration 0) (fun s t =>
      s.get (SEG_STAT_STATE 0) ≠ 3 ∧ t.get (CAN_STAT_STATE 0) = 1 ∧ t.isPending 144 = true) = true := by decide +kernel

theorem test_can_integrate_off : Runs (cn 0 ⟨[], none, [], true⟩ [(CAN_STAT_STATE 0, 3)]) (.canBusIntegration 0) (fun _ t =>
      t.get (CAN_STAT_STATE 0) = 2 ∧ t.get (CAN_STAT_TEC 0) = 255 ∧ (t.canCh 0).wasOff = false) = true := by decide +kernel

/-- 120 + 8 = 128: error-passive. -/
theorem test_can_rx_error : Runs (cn 1 canInit [(CAN_STAT_REC 1, 120)]) (.canRxError 1 4 true true) (fun s t =>
      s.canOnBus 1 = true ∧ s.canRec 1 = 120 ∧ t.canRec 1 = 128 ∧ t.get (CAN_STAT_STATE 1) = 1
      ∧ t.get (CAN_ERR_CAP_TYPE 1) = 4 ∧ t.get (CAN_ERR_CNT 1) = 1) = true := by decide +kernel

/-- At 255 the counter stays, and the first capture stays. -/
theorem test_can_rx_error_captured :
    Runs (cn 1 canInit [(CAN_STAT_REC 1, 127), (CAN_STAT_RP 1, 1), (CAN_ERR_CAP_VALID 1, 1), (CAN_STAT_STATE 1, 1)])
      (.canRxError 1 4 true false) (fun _ t =>
      t.canRec 1 = 255 ∧ t.get (CAN_ERR_CAP_TYPE 1) = 0) = true := by decide +kernel

theorem test_can_rx_wait :
    Runs (cn 2 ⟨[], none, [(⟨1, false, false, false, false, false, []⟩, 0), (⟨1, false, false, false, false, false, []⟩, 0), (⟨1, false, false, false, false, false, []⟩, 0)], false⟩ [(CGW_CTL_EN, 0), (CAN_STAT_REC 2, 127)])
      (.canFrameReceive 2 ⟨0x7FF, false, true, true, false, false, [1, 2]⟩ 0xFFFFFFFF) (fun s t =>
      s.gwOn = false ∧ s.on (CAN_CTL_FD_EN 2) = true ∧ (t.canCh 2).input.length = 4 ∧ t.get (CAN_TS 2) = 0xFFFFFFFF
      ∧ t.canRec 2 = 126 ∧ t.get (CAN_RX_CNT 2) = 1 ∧ t.get (CAN_LOST_CNT 2) = 0) = true := by decide +kernel

theorem test_can_rx_lost :
    Runs (cn 2 ⟨[], none, List.replicate 4 (⟨1, false, false, false, false, false, []⟩, 0), false⟩ [(CGW_CTL_EN, 0)])
      (.canFrameReceive 2 ⟨3, false, false, false, false, false, []⟩ 0) (fun _ t =>
      (t.canCh 2).input.length = 4 ∧ t.get (CAN_LOST_CNT 2) = 1 ∧ t.isPending 155 = true) = true := by decide +kernel

/-- Ten counts of 25 ns after the capture. -/
theorem test_can_rx_ring :
    Runs ({ cn 11 canInit [(CGW_DEFAULT, 2 ^ 22), (CAN_TSY_CNT 11 0, 1000), (CAN_TSY_TLO 11 0, 5000), (CAN_TSY_INFO_STEP 11 0, 1), (CAN_TSY_INFO_EPOCH 11 0, 3)] with rings := [((Ring.cgw 2).base, ⟨1, 0, 0, [⟨0, descOf 3, 0, false, none⟩], []⟩)] })
      (.canFrameReceive 11 ⟨3, false, false, false, false, false, [9]⟩ 1010) (fun s t =>
      s.gwOn = true ∧ s.managed 11 = false ∧ s.on CGW_CTL_ROUTE_EN = false ∧ (s.canCh 11).input = []
      ∧ look t.can.rx (Ring.cgw 2).base [] = [⟨⟨3, false, false, false, false, false, [9]⟩, false, 5250, 3, 11, 0xFFFF⟩]) = true := by decide +kernel

/-- The lower identifier first, the earlier loaded of two equal ones. -/
theorem test_can_arb :
    Runs (cn 3 ⟨[(2, gf 3 7), (0, gf 3 6), (5, gf 3 6)], none, [], false⟩ [])
      (.canArbitrationStart 3 77) (fun s t =>
      s.canOnBus 3 = true ∧ bestFrame (fun q => canKey q.2.frame) (s.canCh 3).slots = some (0, gf 3 6)
      ∧ (t.canCh 3).attempt = some 0 ∧ (t.canCh 3).slots.map (·.2.stamp) = [0, 77, 0] ∧ t.get (CAN_TS 3) = 77) = true := by decide +kernel

theorem test_can_arb_lost : Runs (cn 3 ⟨[(2, gf 3 7)], some 2, [], false⟩ []) (.canArbitrationLost 3) (fun s t =>
      s.attemptOf 3 = some (2, gf 3 7) ∧ t.canCh 3 = ⟨[(2, gf 3 7)], none, [], false⟩ ∧ t.get (CAN_ARB_CNT 3) = 1
      ∧ t.rings = s.rings) = true := by decide +kernel

theorem test_can_arb_lost_cancel :
    Runs (cn 3 ⟨[(2, { gf 3 7 with cancel := true, oneshot := true })], some 2, [], false⟩ [])
      (.canArbitrationLost 3) (fun _ t =>
      (t.canCh 3).slots = [] ∧ (t.ring (.cgw 0)).items.map (·.fin) = [some (0x10, 0, 0)]) = true := by decide +kernel

/-- 248 + 8 is beyond 255: bus-off. -/
theorem test_can_tx_error :
    Runs (cn 3 ⟨[(63, { gf 3 7 with oneshot := true })], some 63, [], false⟩ [(CAN_STAT_TEC 3, 248), (CAN_CTL_TDC_EN 3, 1)])
      (.canTxError 3 2 false false true) (fun _ t =>
      t.get (CAN_STAT_TEC 3) = 255 ∧ t.get (CAN_STAT_STATE 3) = 2 ∧ t.get (CAN_STAT_TDC_FAIL 3) = 1
      ∧ t.get (CAN_ERR_CAP_TYPE 3) = 2 ∧ (t.ring (.cgw 0)).items.map (·.fin) = [some (0x12, 0, 0)] ∧ t.isPending 158 = true) = true := by decide +kernel

theorem test_can_tx_error_active :
    Runs (cn 3 ⟨[(63, gf 3 7)], some 63, [], false⟩ [(CAN_STAT_TEC 3, 119)])
      (.canTxError 3 2 false false false) (fun _ t =>
      t.get (CAN_STAT_TEC 3) = 127 ∧ t.get (CAN_STAT_STATE 3) = 0 ∧ (t.canCh 3).slots.length = 1) = true := by decide +kernel

theorem test_can_tx_complete :
    Runs (cn 3 ⟨[(1, { gf 3 7 with stamp := 4 })], some 1, [], false⟩ [(CAN_STAT_TEC 3, 128), (CAN_STAT_STATE 3, 1), (CAN_TSY_TLO 3 0, 100), (CAN_TSY_INFO_STEP 3 0, 1), (CAN_TSY_INFO_EPOCH 3 0, 3)])
      (.canTxComplete 3 9) (fun _ t =>
      t.get (CAN_STAT_TEC 3) = 127 ∧ t.get (CAN_STAT_STATE 3) = 0
      ∧ (t.ring (.cgw 0)).items.map (·.fin) = [some (0, 200 + 3 * 2 ^ 48, 0)] ∧ t.get (CAN_TX_CNT 3) = 1
      ∧ (t.canCh 3).slots = []) = true := by decide +kernel

/-- A descriptor at the head of ring pair 0 of the gateway, with two frames that wait. -/
def cd (d : Nat) (l : List (Fld × Nat)) : State :=
  { cn 11 canInit l with
    rings := [((Ring.cgw 0).base, ⟨2, 0, 0, [⟨0, descOf 1, 0, false, none⟩, ⟨1, descOf d, 0, false, none⟩], []⟩)]
    can := { (cn 11 canInit l).can with wait := [gf 11 7] } }

theorem test_cgw_send :
    Runs (cd (1 + 2 ^ 33 + 0x123 * 2 ^ 64 + 2 * 2 ^ 104 + 11 * 2 ^ 112 + 0xBBAA * 2 ^ 192) [])
      (.cgwSend (.cgw 0)) (fun s t =>
      (s.gwNext (.cgw 0)).map (·.idx) = some 1 ∧ s.gwNext (.cgw 1) = none ∧ s.gwRoom (ringSrc (.cgw 0)) = true
      ∧ t.can.wait = [gf 11 7, ⟨⟨0x123, false, false, false, false, false, [0xAA, 0xBB]⟩, 11, .pf, some (.cgw 0, 1), true, false, 0⟩]) = true := by decide +kernel

theorem test_cgw_send_off : Runs (cd (1 + 2 ^ 112) []) (.cgwSend (.cgw 0)) (fun _ t =>
      (t.ring (.cgw 0)).items.map (·.fin) = [none, some (0x16, 0, 0)]) = true := by decide +kernel

theorem test_cgw_send_channel : Runs (cd (1 + 12 * 2 ^ 112) []) (.cgwSend (.cgw 0)) (fun s t =>
      (t.ring (.cgw 0)).items.map (·.fin) = [none, some (0x13, 0, 0)] ∧ t.can = s.can) = true := by decide +kernel

theorem test_cgw_cancel : Runs (cd 2 []) (.cgwCancel (.cgw 0)) (fun s t =>
      (s.gwNext (.cgw 0)).map (·.idx) = some 1 ∧ (t.ring (.cgw 0)).items.map (·.fin) = [some (0x10, 0, 0), some (0, 0, 0)]
      ∧ t.can.wait = []) = true := by decide +kernel

theorem test_cgw_cancel_none : Runs (cd (2 + 9 * 2 ^ 64) []) (.cgwCancel (.cgw 0)) (fun s t =>
      (t.ring (.cgw 0)).items.map (·.fin) = [none, some (0x15, 0, 0)] ∧ t.can = s.can) = true := by decide +kernel

theorem test_slot_load :
    Runs ({ cn 11 ⟨[(0, gf 11 5)], none, [], false⟩ [] with can := { up.can with chans := [(11, ⟨[(0, gf 11 5)], none, [], false⟩)], wait := [gf 10 1, gf 11 9, gf 11 8] } })
      (.gwSlotLoad 11) (fun s t =>
      s.gwOn = true ∧ (List.range 64).find? (fun n => !((s.canCh 11).slots.any (fun p => p.1 == n))) = some 1
      ∧ (t.canCh 11).slots = [(0, gf 11 5), (1, gf 11 8)] ∧ t.can.wait = [gf 10 1, gf 11 9] ∧ t.get (CAN_SLOT_LO 11) = 3) = true := by decide +kernel

/-- A RECV of ring pair 2 of the gateway and a frame for it. -/
def cgwGets : State :=
  { st [(CGW_CTL_EN, 1), (RING_CFG_EN (Ring.cgw 2).base, 1)] with
    rings := [((Ring.cgw 2).base, ⟨1, 0, 0, [⟨0, descOf (3 + 0x21004000 * 2 ^ 64 + 80 * 2 ^ 104), 0, false, none⟩], []⟩)]
    can := { up.can with rx := [((Ring.cgw 2).base, [⟨⟨0x155, true, false, false, false, false, [9, 8]⟩, false, 5250, 3, 11, 0xFFFF⟩])] } }

/-- Table 11.8: IDE is bit 29, the length stands from bit 35, the channel from bit 42 of the second half. -/
theorem test_cgw_recv : Runs (cgwGets) (.cgwRecv (.cgw 2)) (fun s t =>
      (s.ringReady (.cgw 2)).isSome = true ∧ s.memGate (Ring.cgw 2).agent true 0x21004000 18 = none
      ∧ targetOfRange 0x21004000 18 = some 4
      ∧ t.readBytes 0x21004000 18 = [0x82, 0x14, 0, 0, 0, 0, 0, 0, 3, 0, 0x55, 1, 0, 0x20, 0x10, 0x2C, 9, 8]
      ∧ (t.ring (.cgw 2)).items.map (·.fin) = [some (0, 0xFFFF, 0)] ∧ look t.can.rx (Ring.cgw 2).base [] = []) = true := by decide +kernel

theorem test_fifo_short :
    Runs (st [(CGW_CTL_EN, 1), (CGW_FIFOSRC_EN 1, 1), (CGW_FIFOSRC_FIFO 1, 15), (FIFO_CFG_EN 15, 1), (FIFO_COUNT_USED 15, 1)])
      (.cgwFifoRecord 1) (fun s t =>
      s.gwOn = true ∧ Block.fifo.live s = true ∧ s.gwRoom .lanes = true ∧ t.get (FIFO_COUNT_USED 15) = 0
      ∧ t.get (FIFO_COUNT_CREDIT 15) = 1 ∧ t.get CGW_FIFO_BAD = 1 ∧ t.isPending 197 = true) = true := by decide +kernel

theorem test_fifo_record :
    Runs ({ st [(CGW_CTL_EN, 1), (CGW_FIFOSRC_EN 0, 1), (CGW_FIFOSRC_FIFO 0, 0), (FIFO_CFG_EN 0, 1), (FIFO_COUNT_USED 0, 2), (FIFO_POOL, 0), (FIFO_CFG_OFFSET 0, 0x400), (CAN_CTL_EN 11, 1)] with mem := [(0x21004000, 1), (0x21004008, 5), (0x2100400E, 11)], fifos := [(0, { fifoInit with pos := 2 })] })
      (.cgwFifoRecord 0) (fun s t =>
      (s.fifoRead 0 0 2).1 = .ok (descOf (1 + 5 * 2 ^ 64 + 11 * 2 ^ 112))
      ∧ (s.fifoRead 0 0 2).2 = { s with arb := (s.fifoRead 0 0 2).2.arb }
      ∧ canTxFormatOk (recordDesc (descOf (1 + 5 * 2 ^ 64 + 11 * 2 ^ 112))) = true
      ∧ t.can.wait = [⟨⟨5, false, false, false, false, false, []⟩, 11, .lanes, none, false, false, 0⟩]
      ∧ t.get (FIFO_COUNT_USED 0) = 0) = true := by decide +kernel

theorem test_fifosrc : Runs (st [(FIFO_CFG_EN 15, 1)]) (.cgwFifosrcEnable sec 1 0x8000000F) (fun s t =>
      s.gate sec (CGW_FIFOSRC_EN 1).addr true = .pass ∧ s.on (FIFO_CFG_CWORLD 15) = true ∧ t.get (CGW_FIFOSRC_FIFO 1) = 15
      ∧ t.get (CGW_FIFOSRC_EN 1) = 1) = true := by decide +kernel

theorem test_fifosrc_off : Runs (up) (.cgwFifosrcEnable sec 0 0x80000003) (fun _ t =>
      t.get (CGW_FIFOSRC_EN 0) = 0) = true := by decide +kernel

/-- A frame of stream 0x5 with one ACF message: identifier 0x7E5, two bytes of data. -/
def acfTo : EFrame :=
  { parseFrame (frameTo 2 4 []) false with
    body := [0x22, 0xF0, 0x82, 0x80, 20, 77] ++ beBytes 8 5 ++ [2, 5, 0x80, 0] ++ beBytes 8 0 ++ beBytes 4 0x7E5 ++ [0xAB, 0xCD, 0, 0] }

/-- The gateway routes that frame to channel 11. -/
def acfState : State :=
  { st [(CGW_CTL_EN, 1), (CGW_CTL_ROUTE_EN, 1), (CAN_CTL_EN 11, 1)] with
    eth := { up.eth with toGw := [acfTo] }
    can := { up.can with
      streams := [(63, [5, 0, 0, 2 ^ 31, 1, 0, 0])]
      routes := [(8, [2 ^ 31 + 0x7E5, 0x7FF, 2 ^ 19 + 63 * 2 ^ 13, 2 ^ 11, 0, 0, 0])] } }

theorem test_acf : Runs (acfState) (.cgwEthFrameReceive) (fun s t =>
      s.gwOn = true ∧ gwStream s.can.streams acfTo = some 63
      ∧ acfFrame ((acfTo.body.drop 14).take 20) 5 = some (⟨0x7E5, false, false, false, false, false, [0xAB, 0xCD]⟩, none)
      ∧ (s.can.routes.find? (fun p => routeHits p.2 0xF 63 ⟨0x7E5, false, false, false, false, false, []⟩)).map (·.1) = some 8
      ∧ s.get (CAN_STAT_STATE 11) ≠ 2
      ∧ t.can.wait = [⟨⟨0x7E5, false, false, false, false, false, [0xAB, 0xCD]⟩, 11, .routed, none, false, false, 0⟩]
      ∧ wordOf (t.streamEnt 63) 6 = 77 ∧ t.eth.toGw = [] ∧ t.get (PORT_TX_FRAMES_LO 9) = 1) = true := by decide +kernel

theorem test_cgw_perm :
    Runs (st [(CGW_TBL_DATA 0, 0xFFFFFFFF), (CGW_TBL_DATA 1, 0xFFFFFFFF), (CGW_TBL_DATA 2, 0xFFFFFFFF)])
      (.cgwTblWrite sec 4 7) (fun s t =>
      s.gate sec CGW_TBL_CMD_OP.addr true = .pass ∧ t.can.perms = [(7, [0xFFF, 0x3FFFFFFF, 0x1FFFFFFF])]
      ∧ t.get CGW_TBL_STAT_RESULT = 0) = true := by decide +kernel

theorem test_cgw_perm_range : Runs (up) (.cgwTblWrite sec 4 8) (fun _ t =>
      t.get CGW_TBL_STAT_RESULT = 1) = true := by decide +kernel

theorem test_cgw_perm_read :
    Runs ({ up with can := { up.can with perms := [(7, [0xFFF, 5, 6])] } })
      (.cgwTblRead sec 4 7) (fun _ t =>
      t.get (CGW_TBL_DATA 0) = 0xFFF ∧ t.get (CGW_TBL_DATA 2) = 6 ∧ t.get (CGW_TBL_DATA 3) = 0) = true := by decide +kernel

/-- A MAC of two bytes is too short. -/
theorem test_cgw_auth_refused : Runs (st [(CGW_TBL_DATA 0, 0x20)]) (.cgwTblWrite sec 2 255) (fun _ t =>
      t.get CGW_TBL_STAT_RESULT = 2) = true := by decide +kernel

/-! ### Network Management and Wake -/

/-- NMW on, segment `g` managed and in state `v`, NMW beside its registers as given, and some fields set. -/
def sg (g v : Nat) (n : NmwSt → NmwSt) (l : List (Fld × Nat)) : State :=
  { st ([(NMW_CTL_EN, 1), (SEG_CTL_MANAGED g, 1), (SEG_STAT_STATE g, v)] ++ l) with nmw := n up.nmw }

theorem test_nmw_on : Runs (st [(SEG_CTL_MANAGED 19, 1)]) (.nmwEnWrite sec 0x00050001) (fun s t =>
      s.gate sec NMW_CTL_EN.addr true = .pass ∧ t.seg 19 = 1 ∧ t.seg 18 = 0 ∧ t.get NMW_CTL_LATE_WIN = 5
      ∧ t.get NMW_STAT_ALL_ASLEEP = 0) = true := by decide +kernel

theorem test_nmw_off :
    Runs (sg 0 3 id [(SEG_STAT_ISO 0, 1), (CGW_STAT_ISO, 1), (NMW_STAT_ASLEEP, 1), (NMW_STAT_ALL_ASLEEP, 1), (SEG_NEED 0, 7)])
      (.nmwEnWrite sec 0) (fun _ t =>
      t.seg 0 = 0 ∧ t.get CGW_STAT_ISO = 0 ∧ t.get NMW_STAT_ASLEEP = 0 ∧ t.get NMW_STAT_ALL_ASLEEP = 0
      ∧ t.get (SEG_NEED 0) = 0) = true := by decide +kernel

/-- Segment 19 wakes, and segment 0 with it through WAKE_FAN. -/
theorem test_wake_req :
    Runs (sg 19 3 (fun n => { n with commits := [(19, -5)] }) [(SEG_CTL_MANAGED 0, 1), (SEG_STAT_STATE 0, 2), (SEG_CTL_WAKE_FAN 19, 1)])
      (.nmwWakeReq sec 0xFFF80000) (fun s t =>
      s.gate sec NMW_WAKE_REQ.addr true = .pass ∧ s.managed 19 = true ∧ t.seg 19 = 4 ∧ t.seg 0 = 1 ∧ t.isPending 202 = true
      ∧ t.isPending 203 = true ∧ t.nmw.commits = []) = true := by decide +kernel

theorem test_seg_manage : Runs (st [(NMW_CTL_EN, 1)]) (.segManagedWrite sec 12 0xBFF80001) (fun s t =>
      s.gate sec (SEG_CTL_MANAGED 12).addr true = .pass ∧ t.seg 12 = 1 ∧ t.get (SEG_CTL_AIDX 12) = 0xFF
      ∧ t.get (SEG_CTL_WAKE_FAN 12) = 0x80001 ∧ t.get (SEG_CTL_HOLD 12) = 0 ∧ t.get (SEG_CTL_ROUTE_WAKE 12) = 1) = true := by decide +kernel

theorem test_seg_unmanage : Runs (sg 12 4 id [(SEG_NEED 12, 1)]) (.segManagedWrite sec 12 0) (fun _ t =>
      t.seg 12 = 0 ∧ t.get (SEG_NEED 12) = 0) = true := by decide +kernel

theorem test_hold : Runs (sg 3 2 id []) (.segHoldWrite sec 3 0x40000000) (fun s t =>
      s.gate sec (SEG_CTL_HOLD 3).addr true = .pass ∧ t.get (SEG_CTL_HOLD 3) = 1 ∧ t.seg 3 = 1 ∧ t.isPending 203 = true) = true := by decide +kernel

theorem test_hold_falls : Runs (sg 3 1 id [(SEG_CTL_HOLD 3, 1)]) (.segHoldWrite sec 3 0) (fun _ t =>
      bit t.nmw.releaseDue 3 = true) = true := by decide +kernel

theorem test_curfew_set : Runs (st [(SEG_CURFEWED 19, 1)]) (.segCurfewSet sec 19 0x80000000) (fun s t =>
      s.gate sec (SEG_CURFEW_SET 19).addr true = .pass ∧ t.get (SEG_CURFEWED 19) = 0x80000001) = true := by decide +kernel

theorem test_lantern_format :
    Runs (sg 3 1 (fun n => { n with lanterns := [⟨3, 4, 5, false, false, true⟩] }) [])
      (.lanternReceive) (fun s t =>
      s.nmwLive = true ∧ t.get NMW_ERR_INFO_CAUSE = 1 ∧ t.get NMW_ERR_INFO_SEG = 3 ∧ t.isPending 207 = true) = true := by decide +kernel

theorem test_lantern_curfewed :
    Runs (sg 3 1 (fun n => { n with lanterns := [⟨3, 31, 5, false, true, true⟩] }) [(SEG_CURFEWED 3, 0x80000000)])
      (.lanternReceive) (fun _ t =>
      t.get NMW_IGN_CNT = 1 ∧ t.get (SEG_NEED 3) = 0) = true := by decide +kernel

/-- A need cancels the closing. -/
theorem test_lantern :
    Runs (sg 3 2 (fun n => { n with lanterns := [⟨3, 31, 15, false, true, true⟩, ⟨4, 0, 0, false, true, true⟩] }) [(SEG_NEED 3, 1), (SEG_REASON 3, 0x8000)])
      (.lanternReceive) (fun _ t =>
      t.get (SEG_NEED 3) = 0x80000001 ∧ t.get (SEG_LAST_SRC 3) = 31 ∧ t.get (SEG_LAST_REASON 3) = 15
      ∧ t.get (SEG_LAST_AUTHZ 3) = 1 ∧ t.seg 3 = 1 ∧ t.nmw.lanterns.length = 1) = true := by decide +kernel

theorem test_lantern_release :
    Runs (sg 3 1 (fun n => { n with lanterns := [⟨3, 0, 0, true, true, true⟩] }) [(SEG_NEED 3, 3)])
      (.lanternReceive) (fun _ t =>
      t.get (SEG_NEED 3) = 2 ∧ t.get (SEG_LAST_RELEASE 3) = 1 ∧ t.get (SEG_LAST_AUTHZ 3) = 0) = true := by decide +kernel

theorem test_own_can :
    Runs (sg 11 1 (fun n => { n with releaseDue := 0x800 }) [(SEG_CTL_HOLD 11, 1), (CGW_CTL_EN, 1), (SEG_LANT_ID_ID 11, 0x7F0), (NMW_OWN_OWN_SRC, 9), (NMW_OWN_OWN_REASON, 4)])
      (.ownLanternSend 11) (fun s t =>
      s.gwRoom .lanes = true ∧ s.gwOn = true ∧ s.managed 11 = true
      ∧ t.can.wait = [⟨⟨0x7F0, false, false, false, false, false, [9, 4]⟩, 11, .lanes, none, false, false, 0⟩]
      ∧ t.nmw.releaseDue = 0) = true := by decide +kernel

theorem test_own_eth :
    Runs (sg 19 1 id [(SEG_CTL_HOLD 19, 1), (NMW_LANT_DMAC_LO, 2), (NMW_LANT_ETYPE, 0x88B5), (NMW_OWN_OWN_SRC, 9)])
      (.ownLanternSend 19) (fun s t =>
      s.poolRoom (s.eQueue 5 7) 60 = true
      ∧ (t.eQueue 5 7).map (fun f => (f.dst, f.body.take 6)) = [(2 + 2 ^ 32 * s.get NMW_LANT_DMAC_HI, [0x88, 0xB5, 1, 9, 0, 0])]) = true := by decide +kernel

theorem test_own_late : Runs (sg 0 1 id [(SEG_CTL_HOLD 0, 1)]) (.ownLanternLate 0) (fun _ t =>
      t.get NMW_ERR_INFO_CAUSE = 3) = true := by decide +kernel

theorem test_need_expiry : Runs (sg 0 1 id [(SEG_NEED 0, 0x80000002)]) (.sourceNeedExpiry 0 31) (fun _ t =>
      t.get (SEG_NEED 0) = 2) = true := by decide +kernel

theorem test_seg_close : Runs (sg 11 1 id []) (.segmentClose 11) (fun _ t =>
      t.seg 11 = 2 ∧ t.get CGW_STAT_ISO = 0x800 ∧ t.get NMW_CLOSING = 0x800 ∧ t.get (SEG_STAT_ISO 11) = 1
      ∧ t.isPending 200 = true) = true := by decide +kernel

theorem test_seg_close_need : Runs (sg 11 1 id [(SEG_NEED 11, 4)]) (.segmentClose 11) (fun _ t =>
      t.seg 11 = 1) = true := by decide +kernel

/-- The last managed segment falls asleep; its channel is not integrated. -/
theorem test_seg_commit :
    Runs ({ sg 11 2 id [(CAN_STAT_STATE 11, 1), (NMW_CLOSING, 0x800)] with zone := 99 })
      (.segmentCommit 11) (fun s t =>
      s.segQuiet 11 = true ∧ t.seg 11 = 3 ∧ t.get NMW_STAT_ALL_ASLEEP = 1 ∧ t.get NMW_CLOSING = 0
      ∧ t.get (CAN_STAT_STATE 11) = 3 ∧ t.nmw.commits = [(11, 99)] ∧ t.isPending 201 = true) = true := by decide +kernel

theorem test_seg_commit_eth : Runs (sg 12 2 id [(PORT_STAT_LINK 6, 1), (ETH_STAT, 0x40)]) (.segmentCommit 12) (fun _ t =>
      t.get (PORT_STAT_LINK 6) = 0 ∧ t.get ETH_STAT = 0 ∧ t.isPending 126 = true) = true := by decide +kernel

/-- 7 ms after the commit point: a late wake. -/
theorem test_wake_detect :
    Runs ({ sg 3 3 (fun n => { n with commits := [(3, 0)] }) [(NMW_CTL_LATE_WIN, 7)] with zone := 7999999 })
      (.segmentWakeDetect 3 false) (fun _ t =>
      t.seg 3 = 4 ∧ t.get (SEG_STAT_LATE 3) = 1 ∧ t.get NMW_LATE_LAST_MS = 7 ∧ t.isPending 202 = true
      ∧ t.isPending 204 = true) = true := by decide +kernel

theorem test_wake_routed :
    Runs (sg 3 3 (fun n => { n with routed := 8 }) [(SEG_CTL_ROUTE_WAKE 3, 1)])
      (.segmentWakeDetect 3 true) (fun _ t =>
      t.seg 3 = 4 ∧ t.nmw.routed = 0) = true := by decide +kernel

theorem test_seg_awake : Runs (sg 3 4 id [(CAN_STAT_STATE 3, 0)]) (.segmentAwake 3) (fun _ t =>
      t.seg 3 = 1 ∧ t.isPending 203 = true) = true := by decide +kernel

theorem test_waking_to : Runs (sg 19 4 id []) (.wakingTimeout 19) (fun _ t =>
      t.get NMW_ERR_INFO_CAUSE = 4 ∧ bit t.nmw.wakingSeen 19 = true) = true := by decide +kernel

theorem test_curfew :
    Runs (sg 19 1 id [(SEG_NEED 19, 0x80000000), (SEG_CURFEW_CURFEW 19, 1)])
      (.curfewExpiry 19 31 60) (fun s t =>
      s.curfewLimit 19 31 ≤ 60 ∧ t.get (SEG_CURFEWED 19) = 0x80000000 ∧ t.get (SEG_NEED 19) = 0 ∧ t.get NMW_CURFEW_CNT = 1
      ∧ t.isPending 205 = true
      ∧ t.recorder.due.map (fun q => (q.code, q.payload.take 8)) = [(5, [19, 31, 0, 0, 60, 0, 0, 0])]) = true := by decide +kernel

/-! ### Metering and sense inputs -/

/-- The metering die powered and strobed, its state and that of SNS as given, and some fields set. -/
def mtr (m : MdSt → MdSt) (n : SnsSt → SnsSt) (l : List (Fld × Nat)) : State :=
  { st ([(SNS_CTL_EN, 1), (SNS_CTL_MD_EN, 1), (BRG_STAT_LINK, 0x2492)] ++ l) with
    pwr := { up.pwr with mdOn := true }, md := m up.md, sns := n up.sns, zone := 700 }

/-- 50 mV over the shunt and 400 V for 100 µs: with 1000 units of 0.1 µΩ 500 A, 200 kW, 20 J. -/
def smp : MdSample := ⟨100000, 50000000, 50000001, 400000000⟩

/-- 500 A in mA; 20000 mJ with a 32-bit fraction. -/
theorem test_md_strobe : Runs (mtr id id [(MD_STAT_ALIGNED, 1)]) (.mdStrobe smp) (fun s t =>
      s.mdStrobed = true ∧ t.md.samples = 1 ∧ t.get MD_SMP_I0 = 500000 ∧ t.get MD_SMP_V = 400000 ∧ t.md.eDis = 20000 * 2 ^ 32
      ∧ t.md.eChg = 0 ∧ t.sns.strobeTime = 700 ∧ t.sns.strobeDue = true ∧ t.get MD_STAT_RANGE_V = 0) = true := by decide +kernel

/-- Gain 1/64 and five steps of 0.1 µV: 65.0005 mV, 650.005 A; one step of 10 mV below 400 V. -/
theorem test_md_strobe_trim :
    Runs (mtr (fun m => { m with cal := [16384 * 65536 + 5, 0, 65535] }) id [(MD_STAT_ALIGNED, 1)])
      (.mdStrobe { smp with s0 := 64000000 }) (fun s t =>
      s.trimmed { smp with s0 := 64000000 } = { smp with s0 := 65000500, uv := 399990000 } ∧ t.get MD_SMP_I0 = 650005
      ∧ t.get MD_SMP_V = 399990) = true := by decide +kernel

theorem test_md_strobe_early :
    Runs (mtr id id [(MD_STAT_ALIGNED, 1), (MD_TIMING_EARLY, 0xFFFF)])
      (.mdStrobe { smp with ns := 99999 }) (fun s t =>
      t.get MD_TIMING_EARLY = 0 ∧ t.md = s.md) = true := by decide +kernel

/-- Beyond -150 mV and above 1000 V: clamped and flagged. -/
theorem test_md_strobe_free :
    Runs (mtr id id [])
      (.mdStrobe { smp with ns := 25000, s0 := -200000000, uv := 1000000001 }) (fun _ t =>
      t.get MD_STAT_ALIGNED = 1 ∧ t.get MD_SMP_I0 = 2 ^ 32 - 1500000 ∧ t.get MD_SMP_V = 1000000 ∧ t.get MD_STAT_RANGE_V = 1
      ∧ bit t.md.flags 2 = true ∧ t.md.eDis = 0 ∧ 0 < t.md.eChg) = true := by decide +kernel

theorem test_md_strobe_extends : Runs (mtr id id []) (.mdStrobe { smp with ns := 24999 }) (fun _ t =>
      t.md.extended = true ∧ t.md.samples = 0) = true := by decide +kernel

theorem test_md_timeout : Runs (mtr id id [(MD_STAT_ALIGNED, 1)]) (.mdIntervalTimeout { smp with ns := 150000 }) (fun _ t =>
      t.get MD_STAT_ALIGNED = 0 ∧ t.get MD_TIMING_FREE = 1 ∧ bit t.md.flags 0 = true ∧ t.md.samples = 1) = true := by decide +kernel

theorem test_md_latch :
    Runs (mtr (fun m => { m with eDis := 0x123456789ABCDEF0FEDCBA98, eChg := 5 * 2 ^ 32, calCnt := 9 }) id [(MD_SMP_SEQ, 7), (MD_SMP_I0, 8), (MD_SMP_V, 9)])
      (.mdLatchWrite 1) (fun _ t =>
      t.get MD_L_SEQ = 7 ∧ t.get MD_L_I0 = 8 ∧ t.get MD_L_V = 9 ∧ t.get MD_L_EDIS_LO = 0x9ABCDEF0
      ∧ t.get MD_L_EDIS_HI = 0x12345678 ∧ t.get MD_L_ECHG_LO = 5 ∧ t.get MD_L_CALCNT = 9) = true := by decide +kernel

theorem test_md_iso : Runs (mtr id id [(MD_STAT_ISO_OK, 1)]) (.mdIsoFault) (fun _ t =>
      t.get MD_STAT_ISO_OK = 0 ∧ bit t.md.flags 5 = true ∧ bit (t.get MD_FLAG) 5 = true) = true := by decide +kernel

theorem test_md_iso_restore : Runs (mtr id id []) (.mdIsoRestore) (fun _ t =>
      t.get MD_STAT_ISO_OK = 1) = true := by decide +kernel

theorem test_md_shadow : Runs (mtr id id []) (.shadowWordWrite 4 0x200 500) (fun _ t =>
      500 &&& definedBits rowsMd 0x50080200 = 500 ∧ t.md.status = 0 ∧ t.get MD_SHUNT = 500 ∧ t.get MD_COMMIT_DIRTY = 1
      ∧ t.md.shunt = 1000) = true := by decide +kernel

theorem test_md_shadow_last : Runs (mtr id id []) (.shadowWordWrite 4 0x210 0x00010501) (fun _ t =>
      0x00010501 &&& definedBits rowsMd (0x50080200 + 4 * 4) = 0x00010501 ∧ bit (t.get MD_COMMIT_DIRTY) 4 = true) = true := by decide +kernel

theorem test_md_commit : Runs (mtr id id [(MD_SHUNT, 500), (MD_COMMIT_DIRTY, 1)]) (.shadowCommit 4 0x214 1) (fun s t =>
      s.mdShadowOk = true ∧ t.md.status = 0 ∧ t.md.shunt = 500 ∧ t.get MD_COMMIT_DIRTY = 0 ∧ t.get MD_COMMIT_APPLIED = 1
      ∧ t.md.calCnt = 1
      ∧ t.md.cal = [65536 * t.get (MD_CAL_GAIN 0) + t.get (MD_CAL_OFFSET 0), 65536 * t.get (MD_CAL_GAIN 1) + t.get (MD_CAL_OFFSET 1), 65536 * t.get (MD_CAL_GAIN 2) + t.get (MD_CAL_OFFSET 2)]
      ∧ bit t.md.flags 4 = true) = true := by decide +kernel

/-- Input 31 closes at its second sample; input 0 stays within the hysteresis; the others are no switch inputs. -/
theorem test_sense :
    Runs (mtr id (fun n => { n with deb := [(31, 1)], raw := 0 }) [(SNS_CFG_MODE 31, 1), (SNS_CFG_DEB 31, 2), (SNS_EDGE_EN, 0x80000000), (SNS_CFG_MODE 0, 2), (SNS_DIN, 6)])
      (.senseSample (6000 :: List.replicate 30 0 ++ [2999])) (fun s t =>
      s.switchKind 31 = 1 ∧ s.switchKind 0 = 2 ∧ t.get SNS_DIN = 0x80000000 ∧ t.get SNS_EDGE = 0x80000000
      ∧ t.isPending 209 = true ∧ t.pwr = s.pwr) = true := by decide +kernel

theorem test_scan_end :
    Runs (mtr id (fun n => { n with scanSet := 0x80000001 }) [(SNS_STAT_BUSY, 1), (SNS_STAT_SEQ, 0xFFFF), (SNS_CTL_SCAN_EVT, 1), (SNS_RES_CODE 1, 5)])
      (.snsScanComplete (List.replicate 32 0x1FFF)) (fun s t =>
      s.get (SNS_BUF_HI_EN 0) = 0 ∧ t.get (SNS_RES_CODE 0) = 0xFFF ∧ t.get (SNS_RES_CODE 31) = 0xFFF
      ∧ t.get (SNS_RES_CODE 1) = 5 ∧ t.get (SNS_RES_SEQ 31) = 0xFFFF ∧ t.get SNS_STAT_BUSY = 0 ∧ t.get SNS_STAT_SEQ = 0
      ∧ t.isPending 208 = true) = true := by decide +kernel

/-- Sixteen records: scan 17 goes to the second place. -/
theorem test_scan_record :
    Runs (mtr id (fun n => { n with scanSet := 1, scanTime := 0x0102, scanEpoch := 3 }) [(SNS_STAT_BUSY, 1), (SNS_STAT_SEQ, 17), (SNS_BUF_HI_EN 0, 1), (SNS_BUF_HI_LOG2 0, 4), (SNS_BUF_LO 0, 0x21004000)])
      (.snsScanComplete [0x123]) (fun s t =>
      s.regionRefused .snsBuf ((targetOf 0x21004080).getD 15) 0x21004080 128 = false
      ∧ s.storeRefused .snsBuf true ((targetOf 0x21004080).getD 15) 0x21004080 128 = false
      ∧ t.readBytes 0x21004080 12 = [2, 1, 0, 0, 0, 0, 0, 0, 3, 0, 17, 0] ∧ t.readBytes 0x21004090 4 = [0x23, 1, 0, 0]) = true := by decide +kernel

theorem test_mbuf :
    Runs (mtr id (fun n => { n with strobeDue := true, strobeTime := 5, strobeEpoch := 6 }) [(SNS_BUF_HI_EN 1, 1), (SNS_BUF_LO 1, 0x21004000), (SNS_BUF_WI 1, 15), (MD_SMP_SEQ, 16), (MD_SMP_I0, 0x11), (MD_SMP_I1, 0x22), (MD_SMP_V, 0x33)])
      (.mbufRead) (fun s t =>
      s.linkUp 4 = true ∧ s.regionRefused .mdBuf ((targetOf 0x21004000).getD 15) 0x21004000 32 = false
      ∧ s.storeRefused .mdBuf true ((targetOf 0x21004000).getD 15) 0x21004000 32 = false ∧ s.fabStalls = false
      ∧ (s.side 4 false).frames = []
      ∧ t.readBytes 0x21004000 28 = [5, 0, 0, 0, 0, 0, 0, 0, 6, 0, 0, 0, 16, 0, 0, 0, 0x11, 0, 0, 0, 0x22, 0, 0, 0, 0x33, 0, 0, 0]
      ∧ t.get (SNS_BUF_WI 1) = 16 ∧ t.sns.strobeDue = false) = true := by decide +kernel

theorem test_mbuf_same :
    Runs (mtr id (fun n => { n with strobeDue := true }) [(SNS_BUF_HI_EN 1, 1), (SNS_BUF_WI 1, 16), (MD_SMP_SEQ, 16)])
      (.mbufRead) (fun _ t =>
      t.get SNS_ERR_INFO_CAUSE = 3 ∧ t.isPending 210 = true) = true := by decide +kernel

theorem test_sns_strobe :
    Runs (mtr id id [(SNS_CTL_SCAN_TRIG, 1), (SNS_CFG_MODE 31, 3), (SNS_CFG_MODE 30, 1), (SNS_SCAN_MASK, 0xFFFFFFFF)])
      (.snsGo sec true) (fun _ t =>
      t.get SNS_STAT_BUSY = 1 ∧ t.sns.scanSet = 0x80000000 ∧ t.sns.scanTime = 700) = true := by decide +kernel

theorem test_sns_go : Runs (mtr id id []) (.snsGo sec false) (fun s t =>
      s.gate sec SNS_CMD_GO.addr true = .pass ∧ t.get SNS_STAT_BUSY = 1) = true := by decide +kernel

theorem test_sns_go_busy : Runs (mtr id id [(SNS_STAT_BUSY, 1), (SNS_SKIP, 0xFFFFFFFF)]) (.snsGo sec false) (fun _ t =>
      t.get SNS_SKIP = 0xFFFFFFFF ∧ t.get SNS_ERR_INFO_CAUSE = 1) = true := by decide +kernel

/-- 4096 records of 128 bytes are 512 KiB: the last aligned place in SRAM. -/
theorem test_sns_buf : Runs (mtr id id [(SNS_BUF_LO 0, 0x21380000)]) (.snsBufEnable sec 0 0x80000C00) (fun s t =>
      s.gate sec (SNS_BUF_HI_EN 0).addr true = .pass ∧ inSramOrDram 0x21380000 0x80000 = true ∧ t.get (SNS_BUF_HI_EN 0) = 1
      ∧ t.get (SNS_BUF_HI_LOG2 0) = 12) = true := by decide +kernel

/-- LOG2 15 is beyond 14. -/
theorem test_sns_buf_refused : Runs (mtr id id [(SNS_BUF_LO 1, 0x21000000)]) (.snsBufEnable sec 1 0x80000F00) (fun _ t =>
      t.get (SNS_BUF_HI_EN 1) = 0 ∧ t.get SNS_ERR_INFO_CAUSE = 2 ∧ t.isPending 210 = true) = true := by decide +kernel

theorem test_sns_buf_off : Runs (mtr id id [(SNS_BUF_HI_EN 1, 1)]) (.snsBufEnable sec 1 0x701) (fun _ t =>
      t.get (SNS_BUF_HI_EN 1) = 0 ∧ t.get (SNS_BUF_HI_ADDR 1) = 1 ∧ t.get SNS_ERR_INFO_CAUSE = 0) = true := by decide +kernel

theorem test_direct :
    Runs ({ st [(PS_CH_STAT_LINE 0 0, 1)] with pwr := { up.pwr with stageOn := true }, aon := [(SNS_DC_DC_EN.key, 0x80)], lines := 3 })
      (.directControlChange 7 true) (fun _ t =>
      t.lines = 3 + 2 ^ 31 ∧ (List.range 4).all (fun d => t.get (PS_CH_STAT_LINE d 0) == b2n (t.lineActive d 0)) = true) = true := by decide +kernel

/-- Without DC_EN the line is low. -/
theorem test_direct_off : Runs ({ up with lines := 2 ^ 24 }) (.directControlChange 0 true) (fun _ t =>
      t.lines = 0) = true := by decide +kernel

/-! ### The event recorder -/

/-- The recorder ready, its own data and its state area as given, and some fields set. -/
def rc (q : RecSt → RecSt) (x : RecArea → RecArea) (l : List (Fld × Nat)) : State :=
  { st ((REC_STAT_READY, 1) :: l) with recorder := q up.recorder, recArea := x up.recArea, zone := 9 }

/-- A request for the logbook (or, with a payload of 17 bytes, the ledger), and the record it becomes. -/
def rq (ledger : Bool) : RecReq := ⟨ledger, 0x0102, 0x10, 3, 4, 5, 6, if ledger then List.replicate 17 7 else [], none⟩

def en (ledger : Bool) : RecEntry := ⟨rq ledger, true, 1, 9, 0⟩

/-- TIME is not locked: the low FLAGS bit says so. -/
theorem test_lb_put :
    Runs (rc (fun q => { q with stage := [(0, 4), (1, 5), (2, 6)] }) id [])
      (.recLbPut sec 0x01023000) (fun s t =>
      s.gate sec REC_LB_PUT_CODE.addr true = .pass ∧ idOf sec = 0 ∧ t.recorder.lbQ = [en false]) = true := by decide +kernel

/-- Firmware may fill 24 of the 32 places. -/
theorem test_lb_put_waits :
    Runs (rc (fun q => { q with lbQ := List.replicate 24 (en false) }) id [])
      (.recLbPut sec 0) (fun s t =>
      s.fwQueued = 24 ∧ t.recorder.waiting.length = 1 ∧ t.recorder.lbQ.length = 24) = true := by decide +kernel

theorem test_lb_put_normal : Runs (rc id id []) (.recLbPut nrm 0) (fun s t =>
      s.gate nrm REC_LB_PUT_CODE.addr true = .world ∧ isNormal nrm s = true ∧ s.awake = true ∧ eventLive s 235 = true
      ∧ t.get REC_LOST = 1 ∧ t.recorder = s.recorder ∧ t.isPending 235 = true) = true := by decide +kernel

theorem test_rec_request :
    Runs (rc (fun q => { q with due := [{ rq false with stamp := some (9, 0) }], lbQ := List.replicate 31 (en false) }) id [])
      (.recRecordRequest) (fun _ t =>
      t.recorder.due = [] ∧ t.recorder.lbQ.length = 32) = true := by decide +kernel

theorem test_rec_request_ledger : Runs (rc (fun q => { q with due := [rq true] }) id []) (.recRecordRequest) (fun _ t =>
      t.recorder.lgQ = [{ en true with firmware := false }]) = true := by decide +kernel

theorem test_rec_request_lost :
    Runs (rc (fun q => { q with due := [rq true], lgQ := List.replicate 8 (en true) }) id [(REC_LOST, 0xFFFFFFFF)])
      (.recRecordRequest) (fun _ t =>
      t.get REC_LOST = 0xFFFFFFFF ∧ t.recorder.lostLg = 1 ∧ t.recorder.lgQ.length = 8 ∧ t.isPending 235 = true) = true := by decide +kernel

/-- Record 32769 takes the place of record 1, of which the oldest valid one is then record 2. -/
theorem test_lb_write :
    Runs (rc (fun q => { q with lbQ := [en false, en false] }) (fun x => { x with lb := ⟨0, 32769, 0, 0, 0⟩ }) [])
      (.recRecordWrite false 3) (fun s t =>
      Block.recorder.live s = true ∧ s.recArea.busy = none
      ∧ t.logBytes false 32 24 = [1, 0x80, 0, 0, 2, 1, 0x10, 0x31, 9, 0, 0, 0, 0, 0, 0, 0, 0, 0, 4, 0, 0, 0, 5, 0]
      ∧ (t.logBytes false 32 32).getD 30 0 = 0x5A ∧ markOk (t.logBytes false 32 32) = true ∧ t.recArea.lb.next = 32770
      ∧ t.recArea.busy = none ∧ t.recorder.lbQ.length = 1) = true := by decide +kernel

theorem test_lb_write_partly : Runs (rc (fun q => { q with lbQ := [en false] }) id []) (.recRecordWrite false 2) (fun _ t =>
      t.recArea.busy.isSome = true ∧ t.recArea.lb.next = 0) = true := by decide +kernel

/-- A clear message for the logbook with COUNTER 5, in a module without a root that has left RAW. -/
def clearing (log : Byte) : State :=
  let x := rc id (fun x => { x with lb := ⟨3, 9, 0, 0, 4⟩, lg := ⟨3, 9, 0, 0, 4⟩ })
    [(REC_STAT_CLR_BUSY, 1), (REC_CLR_ADDR_LO, 0x21004000 / 16)]
  { x with
    keys := { up.keys with run := some .recorder }, otp := { up.otp with pFuse := true }
    mem := [(0x21004000, 0x51), (0x21004001, 0x4B), (0x21004002, 0x55), (0x21004003, 0x4D), (0x21004004, 1), (0x21004006, 4),
      (0x21004008, 5), (0x2100400C, 16), (0x21004020, log)] }

/-- The message as the key manager reads it. -/
def clearMsg (log : Byte) : List Byte :=
  fitBytes 3461 [0x51, 0x4B, 0x55, 0x4D, 1, 0, 4, 0, 5, 0, 0, 0, 16, 0, 0, 0, 0, 0, 0, 0, 0, 0, 0, 0, 0, 0, 0, 0, 0, 0, 0, 0, log]

theorem test_clear_read : ((clearing 1).busRead .keyMgr (clearing 1).clrAddr 3461).1 = .ok (clearMsg 1)
    ∧ (clearing 1).clrCheck (clearMsg 1) true = 0 ∧ (clearing 1).clrCheck (clearMsg 1) false = 2 := by decide +kernel

theorem test_clear_read_state :
    (let r := (clearing 1).busRead .keyMgr (clearing 1).clrAddr 3461
     let q := (clearing 2).busRead .keyMgr (clearing 2).clrAddr 3461
     r.2 = { clearing 1 with arb := r.2.arb } ∧ q.2 = { clearing 2 with arb := q.2.arb }) := by decide +kernel

theorem test_clear_lb : Runs (clearing 1) (.recClearVerified true 3) (fun _ t =>
      t.get REC_CLR_RESULT = 1 ∧ t.get REC_STAT_CLR_BUSY = 0 ∧ t.isPending 233 = true ∧ t.recArea.lb.clr = 5
      ∧ t.recArea.lb.old = 9 ∧ t.recArea.lb.next = 10 ∧ t.keys.run = none) = true := by decide +kernel

theorem test_clear_refused : Runs (clearing 1) (.recClearVerified false 0) (fun s t =>
      t.get REC_CLR_RESULT = 2 ∧ t.get REC_STAT_CLR_BUSY = 0 ∧ t.recArea = s.recArea) = true := by decide +kernel

/-- The hypotheses of the clauses whose effect rests on the hash of Config: the write of a ledger record, here across the end of the
ledger, a signed statement, the clear of the ledger. -/
theorem test_ledger_states :
    (let s := rc (fun q => { q with lgQ := [en true] }) (fun x => { x with lg := ⟨7, 7, 0x1FFFF0, 0x1FFFF0, 0⟩ }) []
     Block.recorder.live s = true ∧ s.on REC_STAT_READY = true ∧ s.recArea.busy = none ∧ s.recorder.waiting = [] ∧ s.recorder.lostLb = 0
      ∧ s.recorder.lostLg = 0 ∧ (en true).req.payload.length < 4096 ∧ s.recArea.lg.nextOff % 16 = 0)
    ∧ (let s : State := { rc id (fun x => { x with lg := ⟨7, 7, 64, 64, 0⟩ }) [(REC_STAT_STMT_BUSY, 1)] with
        keys := { up.keys with run := some .recorder } }
     Block.recorder.live s = true ∧ s.recTurn = true ∧ s.recorder.lgQ = [] ∧ s.recArea.busy = none)
    ∧ (Block.recorder.live (clearing 2) = true ∧ (clearing 2).recTurn = true ∧ (clearing 2).recArea.busy = none
      ∧ (clearing 2).clrCheck (clearMsg 2) true = 0 ∧ fieldAt (clearMsg 2) 0x20 1 = 2) := by decide +kernel

/-- Link 4 is down: every metering field is zero but MD_STAT bit 31. -/
theorem test_stmt_due : Runs (rc id id [(REC_CTL_STMT_PER, 1)]) (.energyStatementDue) (fun s t =>
      s.linkUp 4 = false ∧ eventLive s 236 = true ∧ t.get REC_STAT_STMT_BUSY = 1
      ∧ (t.recorder.stmt.drop 32).take 4 = [0, 0, 0, 0x80] ∧ t.get REC_ERR_INFO_CAUSE = 4 ∧ t.isPending 236 = true) = true := by decide +kernel

theorem test_stmt :
    Runs ({ rc id id [(BRG_STAT_LINK, 0x2492), (MD_SESSION, 0x0A0B0C0D), (MD_SMP_SEQ, 0x11)] with pwr := { up.pwr with mdOn := true } })
      (.recStmt sec) (fun s t =>
      s.gate sec REC_CMD_STMT.addr true = .pass ∧ t.recorder.stmt.take 8 = [0x0D, 0x0C, 0x0B, 0x0A, 0x11, 0, 0, 0]
      ∧ t.get REC_STAT_STMT_BUSY = 1) = true := by decide +kernel

theorem test_stmt_closed : Runs (rc id id [(REC_STAT_CLOSED, 1)]) (.recStmt sec) (fun _ t =>
      t.get REC_STAT_STMT_BUSY = 0) = true := by decide +kernel

theorem test_rec_clear : Runs (rc id id []) (.recClear sec) (fun s t =>
      s.gate sec REC_CMD_CLEAR.addr true = .pass ∧ t.get REC_STAT_CLR_BUSY = 1) = true := by decide +kernel

theorem test_rec_clear_busy : Runs (rc id id [(REC_STAT_STMT_BUSY, 1)]) (.recClear sec) (fun _ t =>
      t.get REC_CLR_RESULT = 5 ∧ t.isPending 233 = true) = true := by decide +kernel

/-- With the next record 0 the newest is 2^32 - 1; the number of the snapshot wraps. -/
theorem test_rec_snap :
    Runs (rc (fun q => { q with snaps := [(0, ⟨0, 0, 0, 0, 0, 0, 0, 0xFFFF⟩)] }) (fun x => { x with lb := ⟨2, 0, 0, 0, 4⟩, lg := ⟨3, 9, 64, 80, 5⟩ }) [])
      (.recSnap sec) (fun s t =>
      s.gate sec REC_CMD_SNAP.addr true = .pass
      ∧ look t.recorder.snaps 0 ⟨0, 0, 0, 0, 0, 0, 0, 0⟩ = ⟨2, 0xFFFFFFFF, 3, 8, 64, 4, 5, 0⟩) = true := by decide +kernel

theorem test_recovery : Runs (rc id id [(REC_STAT_READY, 0)]) (.recStartupRecovery) (fun s t =>
      s.syn = [] ∧ t.get REC_STAT_READY = 1 ∧ t.isPending 237 = true) = true := by decide +kernel

/-- The record in progress carries a valid mark: it is completed. -/
theorem test_recovery_done :
    Runs ({ rc id (fun x => { x with busy := some ⟨false, 5, 160, 32, [], none⟩ }) [(REC_STAT_READY, 0)] with mem := ((marked (lbBody 5 (en false))).zipIdx.map (fun p => ((0x10C000A0 + p.2, p.1) : Host.Cell))).filter (fun p => p.2 != 0) })
      (.recStartupRecovery) (fun s t =>
      markOk (s.logBytes false 160 32) = true ∧ t.recArea.busy = none ∧ t.recArea.lb.next = 6) = true := by decide +kernel

/-- A completed clear of the ledger enters its logbook record: the clear's number and the newest number it took out. -/
theorem test_recovery_clear :
    Runs ({ rc id (fun x => { x with busy := some ⟨true, 5, 160, 32, [], some 4⟩ }) [(REC_STAT_READY, 0)] with mem := ((marked (lbBody 5 (en false))).zipIdx.map (fun p => ((0x10D000A0 + p.2, p.1) : Host.Cell))).filter (fun p => p.2 != 0) })
      (.recStartupRecovery) (fun s t =>
      s.recArea.busy.bind (·.clr) = some 4 ∧ s.on REC_STAT_CLOSED = false ∧ markOk (s.logBytes true 160 32) = true
      ∧ t.recArea.lg.next = 6
      ∧ t.recorder.lbQ.map (fun x => (x.req.code, x.req.payload)) = s.recorder.lbQ.map (fun x => (x.req.code, x.req.payload)) ++ [(s.stamped ⟨false, 1, 0, 2, 4, 4, 0, [], none⟩ false false)].map (fun x => (x.req.code, x.req.payload))) = true := by decide +kernel

theorem test_recovery_torn :
    Runs (rc id (fun x => { x with busy := some ⟨true, 5, 160, 64, [], none⟩ }) [(REC_STAT_READY, 0)])
      (.recStartupRecovery) (fun s t =>
      markOk (s.logBytes true 160 64) = false ∧ t.recArea.busy = none ∧ t.recArea.lg.next = 6 ∧ t.get REC_TORN_LG = 1
      ∧ t.isPending 234 = true) = true := by decide +kernel

/-- A busy channel refuses a command with result 2 (R465). -/
theorem test_key_busy : Runs (st [(KEY_RESULT_BUSY 1, 1)]) (.keyPersonalise sec 1 0x05010008) (fun s t =>
      s.gate sec (KEY_CMD_OP 1).addr true = .pass ∧ s.keyBusy 1 = true ∧ t.get (KEY_RESULT_RESULT 1) = 2
      ∧ t.isPending 241 = true) = true := by decide +kernel

/-- The Normal channel does not take UPDATE: 0xE (R465). -/
theorem test_key_normal_op : Runs (up) (.keyUpdate nrm 1 2) (fun s t =>
      s.gate nrm (KEY_CMD_OP 1).addr true = .pass ∧ s.keyBusy 1 = false ∧ t.get (KEY_RESULT_RESULT 1) = 0xE
      ∧ t.get (KEY_RESULT_OP 1) = 2) = true := by decide +kernel

theorem test_key_invalid : Runs (up) (.keyInvalidOp sec 0 9) (fun s t =>
      s.gate sec (KEY_CMD_OP 0).addr true = .pass ∧ s.keyBusy 0 = false ∧ t.get (KEY_RESULT_RESULT 0) = 6
      ∧ t.get (KEY_RESULT_OP 0) = 9) = true := by decide +kernel

/-- EXTEND of measurement register 15, from the Normal channel. -/
theorem test_key_accept : Runs (up) (.keyExtend nrm 1 0xF04) (fun s t =>
      s.gate nrm (KEY_CMD_OP 1).addr true = .pass ∧ s.keyBusy 1 = false ∧ t.keys.wait1 = some ⟨4, 15, 0, 0⟩
      ∧ t.get (KEY_RESULT_BUSY 1) = 1) = true := by decide +kernel

/-- A request of REC goes before the Secure channel's command (R465). -/
theorem test_key_start_rec :
    Runs ({ st [(REC_STAT_CLR_BUSY, 1)] with keys := { State.reset.keys with recovered := true, wait0 := some ⟨1, 0, 0, 0⟩ } })
      (.keyOperationStart) (fun s t =>
      Block.key.live s = true ∧ s.keys.recovered = true ∧ s.keys.run = none ∧ t.keys = { s.keys with run := some .recorder }) = true := by decide +kernel

theorem test_key_start_paused :
    Runs ({ up with keys := { State.reset.keys with recovered := true, paused := some 1, job := some ⟨true, [], none⟩ } })
      (.keyOperationStart) (fun s t =>
      Block.key.live s = true ∧ t.keys = { s.keys with run := some (.chan 1), paused := none }) = true := by decide +kernel

theorem test_key_start_wait1 :
    Runs ({ up with keys := { State.reset.keys with recovered := true, wait1 := some ⟨3, 0, 0, 0⟩ } })
      (.keyOperationStart) (fun s t =>
      Block.key.live s = true ∧ s.dbg.checking = false ∧ t.keys.run = some (.chan 1) ∧ t.keys.runCmd = ⟨3, 0, 0, 0⟩
      ∧ t.keys.wait1 = none) = true := by decide +kernel

theorem test_key_start_token :
    Runs ({ up with keys := { State.reset.keys with recovered := true }, dbg := { State.reset.dbg with checking := true } })
      (.keyOperationStart) (fun s t =>
      Block.key.live s = true ∧ s.keys.wait0 = none ∧ t.keys.run = some (.chan 0)) = true := by decide +kernel

/-- A running VERIFY_IMAGE gives way to REC (R465). -/
theorem test_key_yield :
    Runs ({ st [(REC_STAT_STMT_BUSY, 1)] with keys := { State.reset.keys with recovered := true, run := some (.chan 1), runCmd := ⟨5, 8, 0, 0⟩ } })
      (.keyOperationStart) (fun s t =>
      Block.key.live s = true ∧ t.keys.run = some .recorder ∧ t.keys.paused = some 1) = true := by decide +kernel

theorem test_key_seal_none :
    Runs ({ up with keys := { State.reset.keys with run := some .vfm, job := some ⟨true, [], none⟩ } })
      (.keySeal) (fun s t =>
      Block.key.live s = true ∧ s.keys.sealerKey = none ∧ t.keys.job = some ⟨true, [], some none⟩ ∧ t.keys.run = none) = true := by decide +kernel

theorem test_key_seal :
    Runs ({ up with keys := { State.reset.keys with run := some .vfm, job := some ⟨true, [], none⟩, sealerKey := some [1] }, otp := { State.reset.otp with pFuse := true } })
      (.keySeal) (fun s t =>
      Block.key.live s = true ∧ s.lifecycle = 1
      ∧ (match t.keys.job with | some j => (j.out.getD none).isSome | none => false) = true) = true := by decide +kernel

theorem test_key_unseal_raw :
    Runs ({ up with keys := { State.reset.keys with run := some .vfm, job := some ⟨false, [], none⟩, sealerKey := some [1] } })
      (.keyUnseal) (fun s t =>
      Block.key.live s = true ∧ s.lifecycle = 0 ∧ t.keys.job = some ⟨false, [], some none⟩) = true := by decide +kernel

theorem test_key_unseal_form :
    Runs ({ up with keys := { State.reset.keys with run := some .vfm, job := some ⟨false, leBytes 4 0x4C455351 ++ leBytes 2 1 ++ leBytes 2 0x200, none⟩, sealerKey := some [1] }, otp := { State.reset.otp with pFuse := true } })
      (.keyUnseal) (fun s t =>
      Block.key.live s = true ∧ s.lifecycle ≠ 0 ∧ s.lifecycle ≠ 4 ∧ s.get KEY_TAMPER_BOOT = 0
      ∧ sealFormat (leBytes 4 0x4C455351 ++ leBytes 2 1 ++ leBytes 2 0x200) = true ∧ t.keys.run = none) = true := by decide +kernel

/-- The alarm of the last sleep becomes due as a record (R479). -/
theorem test_key_recovery : Runs ({ up with pwr := { up.pwr with alarms := [(4, 77)] } }) (.keyStartupRecovery) (fun s t =>
      Block.key.live s = true ∧ s.keys.recovered = false ∧ t.keys.recovered = true ∧ t.pwr.alarms = []
      ∧ t.recorder.due = [⟨false, 0x0F10, 2, 0, 16, 1, 77, [], none⟩]) = true := by decide +kernel

theorem test_key_recovery_quiet : Runs (up) (.keyStartupRecovery) (fun s t =>
      Block.key.live s = true ∧ s.keyState.lcSeen = s.otp.lcGen ∧ s.keyState.dSeen = s.otp.dFuse
      ∧ (List.range 128).all (fun i => (s.keyHalf (i / 2) (i % 2)).all (fun d => fieldAt d 0 1 != 1)) = true
      ∧ t.keys.recovered = true ∧ t.get SYS_LC_STATE = 0) = true := by decide +kernel

/-- A monitor that fires in sleep is latched with the sleep tick count, and the module is in DUSK (Table 2.6, R479). -/
theorem test_tamper_sleep :
    Runs ({ State.reset with pwr := { State.reset.pwr with phase := .closed }, aon := [(PWR_SLEEP_LO.key, 5)], regs := [(PWR_SLEEP_LO.key, 5)] })
      (.tamperMonitorFire 0 10) (fun s t =>
      s.tamperLive 0 = true ∧ s.pwr.phase.asleep = true ∧ t.pwr.phase = .dusk ∧ t.pwr.alarms = [(0, 15)]
      ∧ bit (t.aonGet KEY_TAMPER_SLEEP) 0 = true) = true := by decide +kernel

theorem test_tamper_boot :
    Runs ({ State.reset with pwr := { State.reset.pwr with phase := .bootRom } })
      (.tamperMonitorFire 2 0) (fun s t =>
      s.tamperLive 2 = true ∧ s.pwr.phase.asleep = false ∧ s.pwr.phase.starting = true ∧ t.pwr.phase = .hold
      ∧ t.get KEY_TAMPER_BOOT = 4 ∧ t.isPending 9 = true) = true := by decide +kernel

theorem test_tamper_run : Runs ({ up with bursts := 1 }) (.tamperMonitorFire 3 0) (fun s t =>
      s.tamperLive 3 = true ∧ s.keyOperation = false ∧ t.get KEY_TAMPER_RUN = 8 ∧ t.bursts = 0 ∧ t.isPending 10 = true) = true := by decide +kernel

/-- The operation in progress ends with result 0xA, and the key register is empty (Table 15.19). -/
theorem test_tamper_operation :
    Runs ({ st [(KEY_RESULT_BUSY 1, 1)] with keys := { State.reset.keys with run := some (.chan 1), runCmd := ⟨3, 0, 0, 0⟩, keyReg := some [1] } })
      (.tamperMonitorFire 1 0) (fun s t =>
      s.tamperLive 1 = true ∧ t.get (KEY_RESULT_RESULT 1) = 0xA ∧ t.get (KEY_RESULT_BUSY 1) = 0 ∧ t.isPending 242 = true
      ∧ t.keys.keyReg = none) = true := by decide +kernel

theorem test_key_deliver_raw :
    Runs ({ st [(KEY_RESULT_BUSY 0, 1)] with keys := { State.reset.keys with run := some (.chan 0), runCmd := ⟨1, 0, 0, 0⟩ } })
      (.keyOperationComplete true [] 5) (fun s t =>
      Block.key.live s = true ∧ s.lifecycle = 0 ∧ t.get (KEY_RESULT_RESULT 0) = 0xB) = true := by decide +kernel

/-- In the hold state of the boot no key is delivered. -/
theorem test_key_deliver_hold :
    Runs ({ st [(KEY_RESULT_BUSY 0, 1)] with keys := { State.reset.keys with run := some (.chan 0), runCmd := ⟨1, 0, 0, 0⟩ }, otp := { State.reset.otp with pFuse := true }, pwr := { up.pwr with phase := .hold } })
      (.keyOperationComplete true [] 5) (fun s t =>
      Block.key.live s = true ∧ s.lifecycle ≠ 0 ∧ s.pwr.phase = .hold ∧ t.get (KEY_RESULT_RESULT 0) = 0xB) = true := by decide +kernel

/-- MACsec TARGET 6 names no port (Table 15.5). -/
theorem test_key_deliver_target :
    Runs ({ st [(KEY_RESULT_BUSY 0, 1)] with keys := { State.reset.keys with run := some (.chan 0), runCmd := ⟨1, 0, 1, 6⟩ }, otp := { State.reset.otp with pFuse := true } })
      (.keyOperationComplete true [] 5) (fun s t =>
      Block.key.live s = true ∧ targetOk 1 6 = false ∧ t.get (KEY_RESULT_RESULT 0) = 6) = true := by decide +kernel

theorem test_key_deliver_empty :
    Runs ({ st [(KEY_RESULT_BUSY 0, 1)] with keys := { State.reset.keys with run := some (.chan 0), runCmd := ⟨1, 63, 0, 15⟩ }, otp := { State.reset.otp with pFuse := true } })
      (.keyOperationComplete true [] 5) (fun s t =>
      Block.key.live s = true ∧ targetOk 0 15 = true ∧ s.holdsKey 63 = false ∧ t.get (KEY_RESULT_RESULT 0) = 7) = true := by decide +kernel

/-- A slot whose DEST mask has CRY only is not delivered to CGW: 8. -/
theorem test_key_deliver_dest :
    Runs ({ (st [(KEY_RESULT_BUSY 0, 1)]).writeBytes 0x10FE0000 [2, 1, 1] with keys := { State.reset.keys with run := some (.chan 0), runCmd := ⟨1, 0, 2, 0⟩ }, otp := { State.reset.otp with pFuse := true } })
      (.keyOperationComplete true [] 5) (fun s t =>
      Block.key.live s = true ∧ s.holdsKey 0 = true ∧ s.keyArg 0 = 0
      ∧ (s.busRead .keyMgr 0x10FE0000 128).2 = { s with arb := (s.busRead .keyMgr 0x10FE0000 128).2.arb }
      ∧ s.pwr.phase ≠ .hold ∧ (targetBlock 2).live s = true ∧ t.get (KEY_RESULT_RESULT 0) = 8) = true := by decide +kernel

theorem test_key_deliver_type :
    Runs ({ (st [(KEY_RESULT_BUSY 0, 1)]).writeBytes 0x10FE0000 [2, 3, 1] with keys := { State.reset.keys with run := some (.chan 0), runCmd := ⟨1, 0, 0, 0⟩ }, otp := { State.reset.otp with pFuse := true } })
      (.keyOperationComplete true [] 5) (fun s t =>
      s.holdsKey 0 = true ∧ s.acceptsKey 0 0 3 = false ∧ t.get (KEY_RESULT_RESULT 0) = 9) = true := by decide +kernel

theorem test_key_revoke :
    Runs ({ st [(KEY_RESULT_BUSY 0, 1), (CRY_KEYS, 0x8001)] with keys := { State.reset.keys with run := some (.chan 0), runCmd := ⟨7, 0, 0, 15⟩, cry := [(15, [1]), (0, [2])] }, otp := { State.reset.otp with pFuse := true } })
      (.keyOperationComplete true [] 5) (fun s t =>
      Block.key.live s = true ∧ s.lifecycle ≠ 0 ∧ (targetBlock 0).live s = true ∧ t.get CRY_KEYS = 1
      ∧ t.keys.cry = [(0, [2])] ∧ t.get (KEY_RESULT_RESULT 0) = 1) = true := by decide +kernel

/-- MEAS0 takes the boot ROM's image only: 0xE (R473). -/
theorem test_key_extend_meas0 :
    Runs ({ st [(KEY_RESULT_BUSY 0, 1)] with keys := { State.reset.keys with run := some (.chan 0), runCmd := ⟨4, 0, 0, 0⟩ } })
      (.keyOperationComplete true [] 5) (fun s t =>
      Block.key.live s = true ∧ t.get (KEY_RESULT_RESULT 0) = 0xE) = true := by decide +kernel

theorem test_key_extend :
    Runs ({ st [(KEY_RESULT_BUSY 1, 1), (KEY_ARG_LO 1, 0x20000000)] with keys := { State.reset.keys with run := some (.chan 1), runCmd := ⟨4, 15, 0, 0⟩ } })
      (.keyOperationComplete true [] 5) (fun s t =>
      Block.key.live s = true ∧ (s.busRead .keyMgr (s.keyArg 1) 48).1 = .ok (List.replicate 48 0)
      ∧ (s.busRead .keyMgr (s.keyArg 1) 48).2 = { s with arb := (s.busRead .keyMgr (s.keyArg 1) 48).2.arb }
      ∧ t.get (KEY_RESULT_RESULT 1) = 1) = true := by decide +kernel

theorem test_key_verify_fails :
    Runs ({ st [(KEY_RESULT_BUSY 1, 1), (KEY_ARG_LO 1, 0x20000000), (KEY_AUX 1, 1)] with keys := { State.reset.keys with run := some (.chan 1), runCmd := ⟨5, 8, 0, 0⟩ } })
      (.keyOperationComplete true [] 5) (fun s t =>
      Block.key.live s = true ∧ (s.checkImage (s.keyArg 1) (s.keyArg2 1) 1 true).1 = 6
      ∧ (s.checkImage (s.keyArg 1) (s.keyArg2 1) 1 true).2.2 = { s with arb := (s.checkImage (s.keyArg 1) (s.keyArg2 1) 1 true).2.2.arb }
      ∧ t.get (KEY_RESULT_RESULT 1) = 6) = true := by decide +kernel

theorem test_key_attest_raw :
    Runs ({ st [(KEY_RESULT_BUSY 1, 1)] with keys := { State.reset.keys with run := some (.chan 1), runCmd := ⟨3, 0, 0, 0⟩ } })
      (.keyOperationComplete true [] 5) (fun s t =>
      Block.key.live s = true ∧ t.get (KEY_RESULT_RESULT 1) = 0xB) = true := by decide +kernel

/-- The operation is not done before all its steps are. -/
theorem test_key_export :
    Runs ({ st [(KEY_RESULT_BUSY 1, 1), (KEY_ARG2_LO 1, 0x20000000)] with keys := { State.reset.keys with run := some (.chan 1), runCmd := ⟨6, 0, 0, 0⟩ }, otp := { State.reset.otp with pFuse := true, root := some [] } })
      (.keyOperationComplete true [] 0) (fun s t =>
      Block.key.live s = true ∧ s.lifecycle ≠ 0 ∧ s.otp.root = some [] ∧ t = s) = true := by decide +kernel

/-- A message of zeros has no right envelope: 6 (R466). -/
theorem test_key_update_format :
    Runs ({ st [(KEY_RESULT_BUSY 0, 1), (KEY_ARG_LO 0, 0x20000000)] with keys := { State.reset.keys with run := some (.chan 0), runCmd := ⟨2, 0, 0, 0⟩ }, otp := { State.reset.otp with pFuse := true } })
      (.keyOperationComplete true [] 5) (fun s t =>
      Block.key.live s = true ∧ (s.busRead .keyMgr (s.keyArg 0) 32).1 = .ok (List.replicate 32 0)
      ∧ (s.busRead .keyMgr (s.keyArg 0) 32).2 = { s with arb := (s.busRead .keyMgr (s.keyArg 0) 32).2.arb }
      ∧ (s.busRead .keyMgr (s.keyArg 0) 3437).2 = { s with arb := (s.busRead .keyMgr (s.keyArg 0) 3437).2.arb }
      ∧ s.keys.step = 0 ∧ t.get (KEY_RESULT_RESULT 0) = 6) = true := by decide +kernel

/-- Up to its third step, PERSONALISE writes the first hash row and not the fuse P (R458). -/
theorem test_key_personalise :
    Runs ({ st [(KEY_RESULT_BUSY 0, 1), (KEY_ARG_LO 0, 0x20000000), (KEY_ARG2_LO 0, 0x20000100)] with keys := { State.reset.keys with run := some (.chan 0), runCmd := ⟨8, 0, 0, 0⟩ }, otp := { State.reset.otp with root := some [7] } })
      (.keyOperationComplete true [] 3) (fun s t =>
      Block.key.live s = true ∧ s.lifecycle = 0 ∧ s.otp.authEc = none ∧ s.otp.authMl = none
      ∧ (s.busRead .keyMgr (s.keyArg 0) 97).2 = { s with arb := (s.busRead .keyMgr (s.keyArg 0) 97).2.arb }
      ∧ (s.busRead .keyMgr (s.keyArg2 0) 1952).2 = { s with arb := (s.busRead .keyMgr (s.keyArg2 0) 1952).2.arb }
      ∧ t.otp.pFuse = false ∧ t.otp.authEc.isSome = true ∧ t.otp.authMl = none ∧ t.keys = s.keys) = true := by decide +kernel

theorem test_cry_nop :
    Runs ({ st [(CRY_CTL, 1), (RING_CFG_EN (Ring.cry 0).base, 1)] with rings := [((Ring.cry 0).base, ⟨1, 0, 0, [⟨0, List.replicate 32 0, 0, false, none⟩], []⟩)] })
      (.cryNop (.cry 0)) (fun s t =>
      s.awake = true ∧ isCry (.cry 0) = true ∧ s.nextItem (.cry 0) = some ⟨0, List.replicate 32 0, 0, false, none⟩
      ∧ s.cryWork (.cry 0) = true ∧ s.cryTurn (.cry 0) = true
      ∧ (t.ring (.cry 0)).items = [⟨0, List.replicate 32 0, 0, true, some (0, 0, 0)⟩] ∧ t.keys.round = [cryFn (.cry 0)]) = true := by decide +kernel

/-- A descriptor whose key register is not loaded completes with 0x11 (R481). -/
theorem test_cry_no_key :
    Runs ({ st [(CRY_CTL, 1), (RING_CFG_EN (Ring.cry 0).base, 1)] with rings := [((Ring.cry 0).base, ⟨1, 0, 0, [⟨0, 3 :: List.replicate 31 0, 0, false, none⟩], []⟩)] })
      (.cryCmac (.cry 0)) (fun s t =>
      s.cryWork (.cry 0) = true ∧ dOp (3 :: List.replicate 31 0) = 3 ∧ s.cryKey (.cry 0) (3 :: List.replicate 31 0) = none
      ∧ (t.ring (.cry 0)).items.map (·.fin) = [some (0x11, 0, 0)] ∧ t.mem = s.mem) = true := by decide +kernel

/-- A command written while another runs is refused with 3 (R177). -/
theorem test_vfm_busy : Runs (st [(VFM_CMD_STAT_BUSY, 1)]) (.vfmFreeze sec 31) (fun s t =>
      s.gate sec VFM_CMD_OP.addr true = .pass ∧ t.get VFM_CMD_STAT_RESULT = 3 ∧ t.get VFM_CMD_STAT_FN = 31
      ∧ t.get VFM_CMD_STAT_OP = 4) = true := by decide +kernel

theorem test_vfm_invalid : Runs (up) (.vfmInvalidOp sec 0x001F0008) (fun s t =>
      s.on VFM_CMD_STAT_BUSY = false ∧ t.vfm.result = 9 ∧ t.get VFM_CMD_STAT_OP = 8 ∧ t.get VFM_CMD_STAT_FN = 31) = true := by decide +kernel

theorem test_vfm_wrong_state : Runs (up) (.vfmReset sec 24) (fun s t =>
      s.get (VFM_VF_STATE_STATE 24) = 0 ∧ t.vfm.result = 2) = true := by decide +kernel

theorem test_vfm_enable : Runs (st [(RING_CFG_EN (Ring.canVf 0 1).base, 1)]) (.vfmEnable sec 16) (fun s t =>
      s.get (VFM_VF_STATE_STATE 16) = 0 ∧ t.get (VFM_VF_STATE_STATE 16) = 1
      ∧ t.on (RING_CFG_EN (Ring.canVf 0 1).base) = false ∧ t.vfm.result = 1) = true := by decide +kernel

/-- A generation step: GEN wraps, the started item is stale, the local event 5 is set (R178). -/
theorem test_vfm_reset_step :
    Runs ({ st [(VFM_VF_STATE_STATE 31, 1), (VFM_VF_STATE_GEN 31, 255)] with rings := [((Ring.cryVf 7).base, ⟨2, 0, 0, [⟨0, [], 255, true, none⟩, ⟨1, [], 255, false, none⟩], []⟩)] })
      (.vfmReset sec 31) (fun s t =>
      s.get (VFM_VF_STATE_STALE 31) = 0 ∧ t.get (VFM_VF_STATE_GEN 31) = 0 ∧ t.get (VFM_VF_STATE_STALE 31) = 1
      ∧ t.get (VFP_VF_EVT_PEND 31) = 32 ∧ t.rings = [] ∧ t.get (VFM_VF_STATE_STATE 31) = 1) = true := by decide +kernel

theorem test_vfm_disable_held : Runs (st [(VFM_VF_STATE_STATE 0, 1), (VFM_VF_STATE_STALE 0, 1)]) (.vfmDisable sec 0) (fun s t =>
      s.get (VFM_VF_STATE_STALE 0) ≠ 0 ∧ t.vfm.result = 0xA ∧ t.get (VFM_VF_STATE_RST_HELD 0) = 1
      ∧ t.get (VFM_VF_STATE_STATE 0) = 1 ∧ bit t.vfm.heldOff 0 = true) = true := by decide +kernel

/-- The unstarted descriptor goes to the pending list (R182). -/
theorem test_vfm_freeze :
    Runs ({ st [(VFM_VF_STATE_STATE 24, 1)] with rings := [((Ring.cryVf 0).base, ⟨2, 0, 0, [⟨0, [], 0, true, none⟩, ⟨1, [], 0, false, none⟩], [7]⟩)] })
      (.vfmFreeze sec 24) (fun s t =>
      s.get (VFM_VF_STATE_STATE 24) = 1 ∧ (t.ring (.cryVf 0)).items = [⟨0, [], 0, true, none⟩]
      ∧ (t.ring (.cryVf 0)).again = [1, 7] ∧ t.get (VFM_VF_STATE_STATE 24) = 2) = true := by decide +kernel

theorem test_vfm_resume :
    Runs ({ st [(VFM_VF_STATE_STATE 15, 3)] with vfm := { up.vfm with forced := 2 ^ 15, frozen := [(15, (5, 1))] } })
      (.vfmResume sec 15) (fun s t =>
      s.get (VFM_VF_STATE_STATE 15) = 3 ∧ t.get (VFM_VF_STATE_STATE 15) = 1 ∧ bit t.vfm.forced 15 = false) = true := by decide +kernel

/-- MRAM takes no blob (R183). -/
theorem test_vfm_save_place : Runs (st [(VFM_VF_STATE_STATE 15, 3), (VFM_BLOB_LO, 0xBFFFE0 / 64)]) (.vfmSave sec 15) (fun s t =>
      s.blobPlace (if s.on VFM_SEAL then 576 else 512) = false ∧ t.vfm.result = 8) = true := by decide +kernel

theorem test_vfm_save_sealed :
    Runs (st [(VFM_VF_STATE_STATE 15, 3), (VFM_BLOB_LO, 0x21000000 / 64)])
      (.vfmSave sec 15) (fun s t =>
      s.blobPlace 576 = true ∧ s.on VFM_SEAL = true ∧ t.vfm.result = 1 ∧ t.keys.job.isSome = true) = true := by decide +kernel

/-- The blob begins with "QVFB", version 1, KIND 0, length 0x200 (Table 5.7). -/
theorem test_vfm_save :
    Runs (st [(VFM_VF_STATE_STATE 15, 3), (VFM_BLOB_LO, 0x21000000 / 64), (VFM_SEAL, 0)])
      (.vfmSave sec 15) (fun s _ =>
      s.blobPlace 512 = true ∧ s.on VFM_SEAL = false ∧ (s.blobBody 15).take 10 = leBytes 4 0x42465651 ++ [1, 0, 0, 0, 0, 2]) = true := by decide +kernel

/-- Bytes of zeros are no blob: 5 (R184). -/
theorem test_vfm_restore_bad : Runs (st [(VFM_BLOB_LO, 0x21000000 / 64), (VFM_SEAL, 0)]) (.vfmRestore sec 3) (fun s t =>
      s.blobPlace 512 = true ∧ (s.busRead .vfm s.blobAddr 512).2 = { s with arb := (s.busRead .vfm s.blobAddr 512).2.arb }
      ∧ s.blobCheck 3 (List.replicate 512 0) = 5 ∧ t.vfm.result = 5) = true := by decide +kernel

theorem test_vfm_restore_sealed : Runs (st [(VFM_BLOB_LO, 0x21000000 / 64)]) (.vfmRestore sec 3) (fun s t =>
      s.blobPlace 576 = true ∧ (s.busRead .vfm s.blobAddr 576).1 = .ok (List.replicate 576 0)
      ∧ (s.busRead .vfm s.blobAddr 576).2 = { s with arb := (s.busRead .vfm s.blobAddr 576).2.arb }
      ∧ t.keys.job = some ⟨false, List.replicate 576 0, none⟩) = true := by decide +kernel

theorem test_vfm_complete :
    Runs ({ st [(VFM_CMD_STAT_BUSY, 1), (VFM_CMD_STAT_OP, 1)] with vfm := { up.vfm with result := 1, fn := 9, op := 1 } })
      (.vfmCommandComplete) (fun s t =>
      Block.vfm.live s = true ∧ s.keys.job = none ∧ s.vfm.later = [] ∧ t.get VFM_CMD_STAT_RESULT = 1
      ∧ t.get VFM_CMD_STAT_BUSY = 0 ∧ t.get VFM_CMD_STAT_FN = 9 ∧ t.get VFM_CMD_STAT_OP = 1 ∧ t.isPending 252 = true) = true := by decide +kernel

theorem test_vfm_complete_waits :
    Runs ({ st [(VFM_CMD_STAT_BUSY, 1), (VFM_CMD_STAT_OP, 7)] with keys := { State.reset.keys with job := some ⟨false, [], none⟩ } })
      (.vfmCommandComplete) (fun s t =>
      Block.vfm.live s = true ∧ t = s) = true := by decide +kernel

theorem test_vfm_complete_unseal_fails :
    Runs ({ st [(VFM_CMD_STAT_BUSY, 1), (VFM_CMD_STAT_OP, 7)] with keys := { State.reset.keys with job := some ⟨false, [], some none⟩ }, vfm := { up.vfm with op := 7 } })
      (.vfmCommandComplete) (fun s t =>
      Block.vfm.live s = true ∧ t.get VFM_CMD_STAT_RESULT = 6 ∧ t.keys.job = none) = true := by decide +kernel

theorem test_vfm_complete_seal :
    Runs ({ st [(VFM_CMD_STAT_BUSY, 1), (VFM_CMD_STAT_OP, 6), (VFM_BLOB_LO, 0x21001000 / 64), (VFM_SEAL, 0)] with keys := { State.reset.keys with job := some ⟨true, [], some (some [9])⟩ }, vfm := { up.vfm with op := 6, blobAt := 0x21000000 } })
      (.vfmCommandComplete) (fun s t =>
      Block.vfm.live s = true ∧ s.vfm.later = [] ∧ t.get VFM_CMD_STAT_RESULT = 1 ∧ t.readByte 0x21000000 = 9) = true := by decide +kernel

theorem test_vf_ctl_reset : Runs (st [(VFM_VF_STATE_STATE 31, 1)]) (.vfCtlReset nrm 31) (fun s t =>
      s.gate nrm (VFP_VF_CTL 31).addr true = .pass ∧ t.get (VFM_VF_STATE_GEN 31) = 1) = true := by decide +kernel

theorem test_vf_ctl_reset_held :
    Runs (st [(VFM_VF_STATE_STATE 31, 1), (VFM_VF_STATE_STALE 31, 255)])
      (.vfCtlReset nrm 31) (fun s t =>
      s.get (VFM_VF_STATE_STALE 31) ≠ 0 ∧ t.get (VFM_VF_STATE_RST_HELD 31) = 1 ∧ t.get (VFM_VF_STATE_GEN 31) = 0) = true := by decide +kernel

/-- A reset asked in OFF raises event 254 (R177). -/
theorem test_vf_ctl_reset_off : Runs (up) (.vfCtlReset nrm 0) (fun s t =>
      s.get (VFM_VF_STATE_STATE 0) ≠ 1 ∧ t.isPending 254 = true) = true := by decide +kernel

theorem test_vf_fwd_ack :
    Runs (st [(EVC_PEND 4, 1), (EVC_EN 4, 1), (EVC_CFG_TGT 128, 8), (EVC_CFG_VF 128, 3), (EVC_CFG_PRIO 128, 1), (EVC_CFG_WORLD 128, 0)])
      (.vfFwdAck nrm 3 128) (fun s t =>
      s.forwardedVf 128 = some 3 ∧ t.isPending 128 = false) = true := by decide +kernel

theorem test_vf_fwd_ack_other : Runs (up) (.vfFwdAck nrm 3 255) (fun s t =>
      s.forwardedVf 255 ≠ some 3 ∧ t.isPending 254 = true) = true := by decide +kernel

theorem test_vf_freeze_drained : Runs ({ st [(VFM_VF_STATE_STATE 7, 2)] with zone := 123 }) (.vfFreezeDrained 7) (fun s t =>
      Block.vfm.live s = true ∧ s.vfStarted 7 = 0 ∧ t.get (VFM_VF_STATE_STATE 7) = 3 ∧ t.vfm.frozen = [(7, (123, s.epoch))]
      ∧ t.isPending 252 = true) = true := by decide +kernel

/-- The work left at the bound goes to the pending list, and the freeze is forced (R181). -/
theorem test_vf_drain_bound :
    Runs ({ st [(VFM_VF_STATE_STATE 24, 2)] with rings := [((Ring.cryVf 0).base, ⟨2, 0, 0, [⟨0, [], 0, true, none⟩], []⟩)] })
      (.vfDrainBoundExpiry 24) (fun s t =>
      Block.vfm.live s = true ∧ s.vfStarted 24 ≠ 0 ∧ s.get (VFM_VF_STATE_STALE 24) = 0 ∧ t.get VFM_FORCED = 1
      ∧ (t.ring (.cryVf 0)).again = [0] ∧ t.get (VFM_VF_STATE_STATE 24) = 3 ∧ bit t.vfm.forced 24 = true) = true := by decide +kernel

theorem test_vf_drain_bound_stale :
    Runs (st [(VFM_VF_STATE_STATE 24, 1), (VFM_VF_STATE_STALE 24, 3)])
      (.vfDrainBoundExpiry 24) (fun s t =>
      Block.vfm.live s = true ∧ t.get (VFM_VF_STATE_STALE 24) = 0 ∧ t.isPending 255 = true) = true := by decide +kernel

/-- The counters saturate and carry (R179). -/
theorem test_stale_item :
    Runs (st [(VFM_VF_STATE_STALE 1, 2), (VFM_VF_DROP_STALE_DROP 1, 0xFFFF), (VFM_STALE_DROP_LO, 0xFFFFFFFF)])
      (.staleItemEnd 1) (fun s t =>
      Block.vfm.live s = true ∧ t.get (VFM_VF_STATE_STALE 1) = 1 ∧ t.get (VFM_VF_DROP_STALE_DROP 1) = 0xFFFF
      ∧ t.get VFM_STALE_DROP_HI = 1 ∧ t.isPending 253 = true) = true := by decide +kernel

/-- The last stale item lets a held DISABLE take effect (R180). -/
theorem test_stale_item_last :
    Runs ({ st [(VFM_VF_STATE_STATE 1, 1), (VFM_VF_STATE_STALE 1, 1), (VFM_VF_STATE_RST_HELD 1, 1)] with vfm := { up.vfm with heldOff := 2 } })
      (.staleItemEnd 1) (fun s t =>
      Block.vfm.live s = true ∧ t.get (VFM_VF_STATE_STATE 1) = 0 ∧ t.get (VFM_VF_STATE_GEN 1) = 1 ∧ t.isPending 252 = true) = true := by decide +kernel

theorem test_vfm_window :
    Runs (st [(VFM_WIN_HBASE 31 3, 0x21000000 / 0x200000)])
      (.vfmWindowEnable sec 31 3 0x80000001) (fun s t =>
      s.gate sec (VFM_WIN_CTL_EN 31 3).addr true = .pass ∧ hostRangeOk (s.get (VFM_WIN_HBASE 31 3)) 1 = true
      ∧ t.get (VFM_WIN_CTL_EN 31 3) = 1 ∧ t.get (VFM_WIN_CTL_SIZE 31 3) = 1) = true := by decide +kernel

/-- A window onto MRAM stays disabled and is captured with cause 4 (R167). -/
theorem test_vfm_window_refused : Runs (up) (.vfmWindowEnable sec 0 0 0x80000001) (fun s t =>
      hostRangeOk 0 1 = false ∧ s.on VFM_ERR_INFO_VALID = false ∧ t.get (VFM_WIN_CTL_EN 0 0) = 0
      ∧ t.get VFM_ERR_INFO_CAUSE = 4) = true := by decide +kernel

theorem test_wld_busy : Runs (st [(WLD_HO_STAT_BUSY, 1)]) (.wldHandover sec 0) (fun s t =>
      s.gate sec WLD_HO_WORLD.addr true = .pass ∧ t.get WLD_HO_STAT_RESULT = 2 ∧ t.isPending 248 = true) = true := by decide +kernel

/-- The FIFO block cannot be handed over (Table 16.2). -/
theorem test_wld_fixed : Runs (up) (.wldHandover sec 15) (fun _ t =>
      handable 15 = false ∧ t.get WLD_HO_STAT_RESULT = 3 ∧ t.get WLD_HO_STAT_BLOCK = 15) = true := by decide +kernel

/-- At reset every block is Secure. -/
theorem test_wld_same : Runs (up) (.wldHandover sec 0x117) (fun s t =>
      bits (s.get WLD_OWN) 23 1 = 1 ∧ t.get WLD_HO_STAT_RESULT = 4) = true := by decide +kernel

theorem test_wld_vfm_in_use : Runs (st [(VFM_VF_STATE_STALE 31, 1)]) (.wldHandover sec 0x17) (fun s t =>
      s.get (VFM_VF_STATE_STALE 31) ≠ 0 ∧ t.get WLD_HO_STAT_RESULT = 5) = true := by decide +kernel

theorem test_wld_accept : Runs (up) (.wldHandover sec 0x17) (fun s t =>
      s.vfmQuiet = true ∧ t.dbg.handOver = some ⟨23, .normal, none⟩ ∧ t.get WLD_HO_STAT_BUSY = 1) = true := by decide +kernel

/-- The drained block is reset and its clock gate opened (R491). -/
theorem test_wld_drain :
    Runs ({ st [(CAN_CTL_EN 11, 1), (CLK_BLK_GATE, 0x801)] with dbg := { State.reset.dbg with handOver := some ⟨11, .normal, none⟩ } })
      (.handoverDrainEnd true) (fun _ t =>
      handable 11 = true ∧ blockOfBit 11 = some (.can 11) ∧ t.dbg.handOver = some ⟨11, .normal, some true⟩
      ∧ t.get (CAN_CTL_EN 11) = 0 ∧ t.get CLK_BLK_GATE = 1) = true := by decide +kernel

/-- A forced drain reports 6; the gateway's events follow it to the Normal world, event 207 does not. -/
theorem test_wld_complete :
    Runs ({ st [(EVC_PEND 6, 0x8000), (EVC_EN 6, 0x8000), (EVC_CFG_PRIO 207, 3)] with dbg := { State.reset.dbg with handOver := some ⟨12, .normal, some true⟩ } })
      (.handoverComplete) (fun s t =>
      s.awake = true ∧ t.get WLD_OWN = 0xFFEFFF ∧ t.get WLD_HO_STAT_RESULT = 6 ∧ t.get (EVC_CFG_WORLD 199) = 0
      ∧ t.get (EVC_CFG_PRIO 207) = 3 ∧ t.isPending 207 = true ∧ t.dbg.handOver = none) = true := by decide +kernel

theorem test_wld_appw_locked : Runs (st [(WLD_LOCK, 1), (RST_APP, 15)]) (.wldAppwWrite sec 15) (fun s t =>
      s.gate sec WLD_APPW.addr true = .pass ∧ t.get WLD_APPW = 0) = true := by decide +kernel

theorem test_wld_appw : Runs (st [(RST_APP, 8)]) (.wldAppwWrite sec 8) (fun s t =>
      s.on WLD_LOCK = false ∧ t.get WLD_APPW = 8 ∧ t.get (EVC_CFG_WORLD 3) = 1 ∧ t.get WLD_VIOL_CNT = 0) = true := by decide +kernel

/-- Core 2 runs: its bit stays, and the write is captured with cause 6 (R487). -/
theorem test_wld_appw_refused : Runs (st [(RST_APP, 8)]) (.wldAppwWrite sec 12) (fun s t =>
      bit (s.get RST_APP) 2 = false ∧ t.get WLD_APPW = 8 ∧ t.get WLD_VIOL_CNT = 1 ∧ t.get WLD_VIOL_INFO_CAUSE = 6
      ∧ t.isPending 249 = true) = true := by decide +kernel

/-- In FIELD bit 3 of DBG_GRANT is ignored (Table 16.9). -/
theorem test_dbg_grant_field :
    Runs ({ up with otp := { State.reset.otp with pFuse := true, lcGen := 1 } })
      (.dbgGrantWrite sec 15) (fun s t =>
      s.lifecycle = 2 ∧ s.gate sec DBG_GRANT.addr true = .pass ∧ t.get DBG_GRANT = 7) = true := by decide +kernel

theorem test_dbg_lock :
    Runs ({ st [(DBG_GRANT, 7), (DBG_STAT_TOKEN, 8), (DBG_STAT_LEFT, 9)] with otp := { State.reset.otp with pFuse := true } })
      (.dbgLock sec) (fun s t =>
      s.gate sec DBG_CMD_LOCK.addr true = .pass ∧ t.reaches = 0 ∧ s.reaches = 7 ∧ t.isPending 250 = true) = true := by decide +kernel

theorem test_dbg_challenge : Runs (st [(DBG_CHAL, 0xFFFFFFFF)]) (.dbgChallenge sec) (fun s t =>
      s.gate sec DBG_CMD_CHALLENGE.addr true = .pass ∧ t.get DBG_CHAL = 0 ∧ t.dbg.challenge = true) = true := by decide +kernel

theorem test_dbg_submit : Runs (up) (.dbgSubmit sec) (fun s t =>
      s.gate sec DBG_CMD_SUBMIT.addr true = .pass ∧ t.dbg.checking = true) = true := by decide +kernel

theorem test_dbg_tbuf : Runs (st [(DBG_TBUF_IDX, 1023)]) (.dbgTbufWrite sec 0xABCD) (fun s t =>
      s.gate sec DBG_TBUF_DATA.addr true = .pass ∧ t.dbg.tbuf = [(1023, 0xABCD)] ∧ t.get DBG_TBUF_IDX = 0) = true := by decide +kernel

theorem test_dbg_reset_ignored : Runs ({ up with otp := { State.reset.otp with pFuse := true } }) (.debugReset sec) (fun s t =>
      s.steer .secure = false ∧ t.resp = ⟨false, 0, false⟩) = true := by decide +kernel

/-- In RAW every reach is active; a debug reset leaves the DBG page (R500). -/
theorem test_dbg_reset : Runs (st [(DBG_CHAL, 4), (LCC_CTL_LT_RUN, 1)]) (.debugReset sec) (fun s t =>
      s.steer .secure = true ∧ s.pwr.phase ≠ .hold ∧ t.pwr.phase = .clocking ∧ t.get RST_CAUSE_DBG = 1 ∧ t.get DBG_CHAL = 4
      ∧ t.get LCC_CTL_LT_RUN = 0) = true := by decide +kernel

theorem test_dbg_expiry : Runs ({ up with dbg := { State.reset.dbg with challenge := true } }) (.dbgChallengeExpiry) (fun s t =>
      s.awake = true ∧ t.dbg.challenge = false) = true := by decide +kernel

theorem test_dbg_minute_last :
    Runs ({ st [(DBG_STAT_TOKEN, 1), (DBG_STAT_LEFT, 1)] with otp := { State.reset.otp with pFuse := true, lcGen := 1 } })
      (.dbgTokenMinute) (fun s t =>
      s.get DBG_STAT_LEFT = 1 ∧ t.get DBG_STAT_TOKEN = 0 ∧ t.isPending 250 = true) = true := by decide +kernel

theorem test_dbg_minute : Runs (st [(DBG_STAT_LEFT, 2)]) (.dbgTokenMinute) (fun s t =>
      1 < s.get DBG_STAT_LEFT ∧ t.get DBG_STAT_LEFT = 1) = true := by decide +kernel

/-- A token buffer of zeros has no right envelope: 6; the challenge is void (R503). -/
theorem test_dbg_token_fails :
    Runs ({ up with dbg := { State.reset.dbg with checking := true, challenge := true }, keys := { State.reset.keys with run := some (.chan 0), runCmd := ⟨15, 0, 0, 0⟩ } })
      (.dbgTokenResult true) (fun s t =>
      Block.key.live s = true ∧ t.get DBG_TOK_RESULT = 6 ∧ t.dbg.challenge = false ∧ t.keys.run = none) = true := by decide +kernel

theorem test_dbg_acc_busy :
    Runs ({ up with dbg := { State.reset.dbg with acc := some ⟨false, .secure, 0, 0, none⟩ } })
      (.dbgAccWrite sec) (fun s t =>
      s.gate sec DBG_ACC_CMD_READ.addr true = .pass ∧ t.get DBG_ACC_STAT_RESULT = 0) = true := by decide +kernel

theorem test_dbg_acc_refused : Runs ({ up with otp := { State.reset.otp with pFuse := true } }) (.dbgAccRead sec) (fun s t =>
      s.watch .normal = false ∧ t.get DBG_ACC_STAT_RESULT = 3) = true := by decide +kernel

theorem test_dbg_acc : Runs (st [(DBG_ACC_ADDR_LO, 0x08000001), (DBG_ACC_ADDR_HI_WORLD, 1)]) (.dbgAccRead sec) (fun s t =>
      s.watch .secure = true ∧ t.dbg.acc = some ⟨false, .secure, 0x20000004, 0, none⟩) = true := by decide +kernel

theorem test_dbg_acc_stalled :
    Runs ({ up with dbg := { State.reset.dbg with acc := some ⟨false, .secure, 0x21000004, 0, none⟩ }, pwr := { up.pwr with unlocked := 8 } })
      (.dbgAccComplete) (fun s t =>
      s.fabStalls = true ∧ t = s) = true := by decide +kernel

theorem test_dbg_acc_read :
    Runs ({ up.writeBytes 0x21000004 [1, 2, 3, 4] with dbg := { State.reset.dbg with acc := some ⟨false, .secure, 0x21000004, 0, none⟩ } })
      (.dbgAccComplete) (fun s t =>
      inT0to6 0x21000004 4 = true ∧ s.fabStalls = false ∧ t.get DBG_ACC_DATA = 0x04030201 ∧ t.get DBG_ACC_STAT_RESULT = 1
      ∧ t.dbg.acc = none) = true := by decide +kernel

/-- A Normal access outside every region is refused (R489): RESULT 2. -/
theorem test_dbg_acc_read_fails :
    Runs ({ up with dbg := { State.reset.dbg with acc := some ⟨false, .normal, 0x21000004, 0, none⟩ } })
      (.dbgAccComplete) (fun _ t =>
      inT0to6 0x21000004 4 = true ∧ t.get DBG_ACC_STAT_RESULT = 2 ∧ t.get DBG_ACC_DATA = 0) = true := by decide +kernel

theorem test_dbg_acc_write :
    Runs ({ up with dbg := { State.reset.dbg with acc := some ⟨true, .secure, 0x21000004, 0x01020304, none⟩ } })
      (.dbgAccComplete) (fun s t =>
      s.lanesQuiet = true ∧ t.readBytes 0x21000004 4 = [4, 3, 2, 1] ∧ t.get DBG_ACC_STAT_RESULT = 1) = true := by decide +kernel

theorem test_dm_refused : Runs ({ up with otp := { State.reset.otp with pFuse := true } }) (.dmHaltRequest 11) (fun s t =>
      s.lanesQuiet = true ∧ s.hartAvail 11 = false ∧ look t.dbg.dm 0x16 0 = 4) = true := by decide +kernel

theorem test_dm_halt : Runs (st [(RST_APP, 0)]) (.dmHaltRequest 8) (fun s t =>
      s.hartAvail 8 = true ∧ s.steer (s.hartWorld 8) = true ∧ t.haltedHarts = 2 ^ 8) = true := by decide +kernel

theorem test_dm_resume :
    Runs ({ st [(RST_APP, 0)] with haltedHarts := 2 ^ 8, harts := [(8, ⟨[(0x344, 2), (0x1001, 2)], false, false, false⟩)] })
      (.dmResume 8) (fun s t =>
      s.hartAvail 8 = true ∧ t.haltedHarts = 0 ∧ (t.hart 8).lost = true ∧ t.hart 9 = s.hart 9 ∧ look t.dbg.dm 0x80 0 = 2 ^ 8) = true := by decide +kernel

theorem test_dm_step : Runs ({ st [(RST_APP, 0)] with haltedHarts := 2 ^ 11 }) (.dmStep ⟨11, [(0x1001, 2 ^ 64 + 5)]⟩) (fun s t =>
      s.steer (s.hartWorld 11) = true ∧ s.hartAvail 11 = true ∧ t.hartReg 11 0x1001 = 5 ∧ t.haltedHarts = 2 ^ 11
      ∧ look t.dbg.dm 0x80 0 = 2 ^ 11) = true := by decide +kernel

/-- A VOTED group halts at a commit (R498). -/
theorem test_dm_halt_voted : Runs (up) (.dmHaltRequest 4) (fun s t =>
      s.hartAvail 4 = true ∧ s.canCommit 1 = true ∧ (s.grp 1).relq = [] ∧ s.group 1 = 0 ∧ t.haltedHarts = 2 ^ 4
      ∧ t.dbg.asks = 0 ∧ t.mem = s.mem) = true := by decide +kernel

theorem test_dm_halt_voted_waits : Runs (st [(VOTE_STAT_GROUP 0, 3)]) (.dmHaltRequest 0) (fun s t =>
      s.hartAvail 0 = true ∧ s.canCommit 0 = false ∧ t.haltedHarts = 0 ∧ t.dbg.asks = 1) = true := by decide +kernel

theorem test_dm_resume_voted : Runs ({ up with haltedHarts := 1 }) (.dmResume 0) (fun s t =>
      s.hartAvail 0 = true ∧ s.group 0 = 0 ∧ t.haltedHarts = 0 ∧ t.dbg.asks = 0 ∧ look t.dbg.dm 0x80 0 = 1) = true := by decide +kernel

theorem test_dm_step_voted : Runs ({ up with haltedHarts := 1 }) (.dmStep ⟨0, [(0x7B1, 4)]⟩) (fun s t =>
      (s.grp 0).relq = [] ∧ s.groupLive 0 = true ∧ t.hartReg 0 0x7B1 = 4 ∧ t.hartReg 0 0xB02 = s.hartReg 0 0xB02 + 1
      ∧ t.haltedHarts = 1 ∧ t.get (IST_CKPT_CNT_LO 0) = 1) = true := by decide +kernel

/-- A core's registers have 64 bits (R160). -/
theorem test_dm_write :
    Runs ({ st [(RST_APP, 0)] with haltedHarts := 2 ^ 8 })
      (.dmAccessRegister 8 true 0x103F 0x10000000000000005) (fun s t =>
      s.hartAvail 8 = true ∧ t.hartReg 8 0x103F = 5 ∧ look t.dbg.dm 0x16 0 = 0) = true := by decide +kernel

theorem test_dm_write_running : Runs (st [(RST_APP, 0)]) (.dmAccessRegister 8 true 0x1001 5) (fun s t =>
      s.hartAvail 8 = true ∧ bit s.haltedHarts 8 = false ∧ look t.dbg.dm 0x16 0 = 4 ∧ t.harts = []) = true := by decide +kernel

theorem test_dm_read :
    Runs ({ up with harts := [(0, ⟨[(0x340, 0xFFFFFFFF)], false, false, false⟩)] })
      (.dmAccessRegister 0 false 0x340 0) (fun s t =>
      s.hartAvail 0 = true ∧ csrExists 0 0x340 = true ∧ s.hartDerived 0 0x340 = none ∧ (s.hart 0).lost = false
      ∧ look t.dbg.dm 4 0 = 0xFFFFFFFF) = true := by decide +kernel

/-- mhartid of core 3 is 11 (R160). -/
theorem test_dm_read_hartid : Runs (st [(RST_APP, 0)]) (.dmAccessRegister 11 false 0xF14 0) (fun _ t =>
      csrExists 11 0xF14 = true ∧ look t.dbg.dm 4 0 = 11) = true := by decide +kernel

/-- The delivered line of a VOTED group is mip.MEIP. -/
theorem test_dm_read_mip :
    Runs ({ gr 0 (fun x => { x with line := true }) [] with dbg := up.dbg })
      (.dmAccessRegister 0 false 0x344 0) (fun s t =>
      s.hartDerived 0 0x344 = some (s.mip 0) ∧ look t.dbg.dm 4 0 = 0x800) = true := by decide +kernel

/-- A core's mip shows its stimecmp. -/
theorem test_dm_read_mip_core :
    Runs ({ st [(RST_APP, 0)] with harts := [(9, ⟨[], true, false, false⟩)] })
      (.dmAccessRegister 9 false 0x344 0) (fun s t =>
      csrExists 9 0x344 = true ∧ s.hartAvail 9 = true ∧ bit (look t.dbg.dm 4 0) 5 = true ∧ bit (look t.dbg.dm 4 0) 11 = false) = true := by decide +kernel

/-- time cannot be written. -/
theorem test_dm_write_readonly :
    Runs ({ st [(RST_APP, 0)] with haltedHarts := 2 ^ 8 })
      (.dmAccessRegister 8 true 0xC01 5) (fun s t =>
      csrReadOnly 0xC01 = true ∧ csrExists 8 0xC01 = true ∧ look t.dbg.dm 0x16 0 = 3 ∧ t.harts = s.harts) = true := by decide +kernel

/-- QDWIN takes its defined bits. -/
theorem test_dm_write_qdwin : Runs ({ up with haltedHarts := 1 }) (.dmAccessRegister 0 true 0x7C0 0xFFFFFFFF) (fun s t =>
      csrReadOnly 0x7C0 = false ∧ s.steer (s.hartWorld 0) = true ∧ t.hartReg 0 0x7C0 = 0x8000000F) = true := by decide +kernel

theorem test_dm_read_zero : Runs (up) (.dmAccessRegister 0 false 0x1000 0) (fun s t =>
      s.hartAvail 0 = true ∧ look t.dbg.dm 4 7 = 0) = true := by decide +kernel

/-- IDCODE is 0xA724_00A3 (R504). -/
theorem test_tap_idcode : Runs (up) (.tapInstruction 1 5) (fun s t =>
      s.portAnswers = true ∧ t.dbg.tdo = 0xA72400A3) = true := by decide +kernel

/-- While the boot ROM runs the port does not answer (R540). -/
theorem test_tap_bootrom : Runs ({ up with pwr := { up.pwr with phase := .bootRom } }) (.tapInstruction 1 5) (fun s t =>
      s.portAnswers = false ∧ t.dbg.tdo = s.dbg.tdo) = true := by decide +kernel

/-- EXTEST is accepted in RAW and SERVICE only; elsewhere it is BYPASS. -/
theorem test_tap_bypass : Runs ({ up with otp := { State.reset.otp with pFuse := true } }) (.tapInstruction 0 5) (fun s t =>
      s.lifecycle = 1 ∧ t.dbg.ir = 0x1F ∧ t.dbg.tdo = 10) = true := by decide +kernel

theorem test_tap_preload : Runs (up) (.tapInstruction 2 7) (fun s t =>
      s.portAnswers = true ∧ t.dbg.bsr = 7 ∧ t.dbg.ir = 2) = true := by decide +kernel

theorem test_tap_closed :
    Runs ({ st [(DBG_GRANT, 0)] with otp := { State.reset.otp with pFuse := true }, dbg := { State.reset.dbg with tapRead := 9 } })
      (.tapInstruction 0x10 0x200000000) (fun s t =>
      s.reaches = 0 ∧ openRead 8 = false ∧ t.dbg.tapRead = 0) = true := by decide +kernel

theorem test_uart_crc : Runs (up) (.uartRequest [0xA5, 1, 0, 0, 0, 0, 0, 0, 1]) (fun _ t =>
      crc8 0 [1, 0, 0, 0, 0, 0, 0] ≠ 1 ∧ t.dbg.uart.take 2 = [0x5A, 1]) = true := by decide +kernel

/-- An offset that is not a multiple of 4 is answered with 2. -/
theorem test_uart_unknown :
    Runs (up)
      (.uartRequest ([0xA5, 1, 2, 0, 0, 0, 0, 0] ++ [BitVec.ofNat 8 (crc8 0 [1, 2, 0, 0, 0, 0, 0])])) (fun s t =>
      s.portAnswers = true ∧ t.dbg.uart.take 2 = [0x5A, 2]) = true := by decide +kernel

theorem test_uart_closed :
    Runs ({ up with otp := { State.reset.otp with pFuse := true } })
      (.uartRequest ([0xA5, 1, 8, 0, 0, 0, 0, 0] ++ [BitVec.ofNat 8 (crc8 0 [1, 8, 0, 0, 0, 0, 0])])) (fun s t =>
      s.reaches = 0 ∧ openRead 8 = false ∧ t.dbg.uart = uartAnswer 0 0) = true := by decide +kernel

theorem test_uart_write :
    Runs ({ up with otp := { State.reset.otp with pFuse := true } })
      (.uartRequest ([0xA5, 2, 0x2C, 0, 1, 2, 3, 4] ++ [BitVec.ofNat 8 (crc8 0 [2, 0x2C, 0, 1, 2, 3, 4])])) (fun s t =>
      s.lanesQuiet = true ∧ t.dbg.tbuf = [(0, 0x04030201)] ∧ t.dbg.uart.take 2 = [0x5A, 0] ∧ t.get DBG_TBUF_IDX = 1) = true := by decide +kernel

theorem test_cohort_beacon :
    Runs ({ st [(SYS_ZONE, 5)] with cohort := { State.reset.cohort with seq := 0xFFFFFFFF } })
      (.cohortBeaconSend) (fun s _ =>
      s.agentRuns = true ∧ s.member = true ∧ s.cohort.seq = 0xFFFFFFFF) = true := by decide +kernel

theorem test_cohort_unsecured :
    Runs ({ st [(SYS_ZONE, 5)] with cohort := { State.reset.cohort with out := [(none, [])] } })
      (.cohortBeaconReceive [] false) (fun s t =>
      s.agentRuns = true ∧ s.member = true ∧ t.cohort.out = []) = true := by decide +kernel

theorem test_cohort_message_unsecured :
    Runs ({ st [(SYS_ZONE, 0)] with cohort := { State.reset.cohort with out := [(none, [])] } })
      (.offer [] false) (fun s t =>
      s.agentRuns = true ∧ s.member = true ∧ t.cohort.out = []) = true := by decide +kernel

/-- A VERIFIED peer is HEARD again, and asked with a new NONCE (Table 17.3). -/
theorem test_cohort_reverify :
    Runs ({ st [(SYS_ZONE, 0)] with cohort := { State.reset.cohort with peers := [(5, ⟨2, [], [], 3, false⟩)] } })
      (.peerReverifyExpiry 5) (fun s t =>
      s.agentRuns = true ∧ s.member = true ∧ (t.peer 5).state = 1 ∧ (t.peer 5).nonce.length = 32
      ∧ t.cohort.out.map (fun f => (f.1, f.2.take 3)) = [(some 5, [1, 2, 0])]) = true := by decide +kernel

theorem test_cohort_absent_self :
    Runs ({ st [(SYS_ZONE, 3)] with cohort := { State.reset.cohort with dup := true } })
      (.peerAbsentTimeout 3) (fun s t =>
      s.member = true ∧ t.cohort.dup = false) = true := by decide +kernel

theorem test_cohort_absent :
    Runs ({ st [(SYS_ZONE, 3)] with cohort := { State.reset.cohort with peers := [(2, ⟨2, [1], [], 0, true⟩)], inb := [⟨2, 7, 4, 1⟩] } })
      (.peerAbsentTimeout 2) (fun s _ =>
      s.member = true ∧ 2 ≠ s.position ∧ s.inOf 2 7 = some ⟨2, 7, 4, 1⟩) = true := by decide +kernel

theorem test_cohort_reassembly :
    Runs ({ st [(SYS_ZONE, 3)] with cohort := { State.reset.cohort with parts := [⟨1, 9, 3, 4, []⟩, ⟨1, 8, 3, 4, []⟩] } })
      (.transferReassemblyTimeout 1 9) (fun s t =>
      s.member = true ∧ t.cohort.parts = [⟨1, 8, 3, 4, []⟩]) = true := by decide +kernel

theorem test_cohort_retry :
    Runs ({ st [(SYS_ZONE, 3)] with cohort := { State.reset.cohort with peers := [(1, ⟨1, [], [5], 2, false⟩)] } })
      (.transferRetryTimeout 1 2) (fun s t =>
      s.member = true ∧ (t.peer 1).tries = 3 ∧ t.cohort.out.map (fun f => f.2.drop 16) = [[5]]) = true := by decide +kernel

theorem test_cohort_retry_ends :
    Runs ({ st [(SYS_ZONE, 3)] with cohort := { State.reset.cohort with peers := [(1, ⟨1, [], [5], 3, false⟩)] } })
      (.transferRetryTimeout 1 2) (fun s t =>
      s.member = true ∧ t.peer 1 = ⟨1, [], [], 0, false⟩ ∧ t.recorder.lbQ.map (·.req.code) = [0x0C06]) = true := by decide +kernel

/-- |TIME_OFFSET| of 1001 ns makes the time untrusted (R520). -/
theorem test_cohort_time_lost : Runs (st [(TIME_STAT_STATE, 2), (TIME_OFFSET, 2 ^ 32 - 1001)]) (.timeTrustChange 0) (fun s t =>
      s.agentRuns = true ∧ t.cohort.untrusted = true ∧ t.get REC_CTL_UNTRUSTED = 1) = true := by decide +kernel

theorem test_cohort_time_kept : Runs (st [(TIME_STAT_STATE, 2), (TIME_OFFSET, 1000)]) (.timeTrustChange 0) (fun s t =>
      s.agentRuns = true ∧ t.cohort.untrusted = false) = true := by decide +kernel

theorem test_cohort_time_back :
    Runs ({ st [(TIME_STAT_STATE, 2), (TIME_OFFSET, 500), (REC_CTL_UNTRUSTED, 1)] with cohort := { State.reset.cohort with untrusted := true } })
      (.timeTrustChange 0) (fun s t =>
      s.agentRuns = true ∧ t.cohort.untrusted = false ∧ t.get REC_CTL_UNTRUSTED = 0) = true := by decide +kernel

/-- A held copy whose COMMIT does not come asks with QUERY (Table 17.5). -/
theorem test_cohort_commit_wait :
    Runs ({ st [(SYS_ZONE, 3)] with cohort := { State.reset.cohort with inb := [⟨5, 7, 4, 1⟩] } })
      (.migrationCommitWaitExpiry 5 7) (fun s t =>
      s.member = true ∧ s.inOf 5 7 = some ⟨5, 7, 4, 1⟩
      ∧ t.cohort.out.map (fun f => (f.1, f.2.take 3, f.2.drop 16)) = [(some 5, [1, 9, 3], [7, 0, 0, 0])]
      ∧ t.cohort.asked = [⟨5, 7, 0⟩]) = true := by decide +kernel

theorem test_cohort_done_wait :
    Runs ({ st [(SYS_ZONE, 3)] with cohort := { State.reset.cohort with outb := [⟨2, 7, 4, [], 0, true⟩] } })
      (.migrationDoneWaitExpiry 7) (fun s t =>
      s.member = true ∧ t.cohort.asked = [⟨2, 7, 0⟩] ∧ t.recorder.lbQ.map (·.req.code) = [0x0C12]) = true := by decide +kernel

theorem test_cohort_offer_again :
    Runs ({ st [(SYS_ZONE, 3)] with cohort := { State.reset.cohort with outb := [⟨2, 7, 31, [1, 2], 2, false⟩] } })
      (.transferRetryTimeout 2 4) (fun s t =>
      s.member = true ∧ t.cohort.outb = [⟨2, 7, 31, [1, 2], 3, false⟩] ∧ t.cohort.out.map (fun f => f.2.drop 16) = [[1, 2]]) = true := by decide +kernel

/-- After three repetitions the migration is given up with ABORT, and the function resumes (R523). -/
theorem test_cohort_offer_given_up :
    Runs ({ st [(SYS_ZONE, 3), (VFM_VF_STATE_STATE 31, 3)] with cohort := { State.reset.cohort with outb := [⟨2, 7, 31, [1, 2], 3, false⟩] } })
      (.transferRetryTimeout 2 4) (fun s t =>
      s.member = true ∧ t.cohort.outb = [] ∧ t.cohort.outcomes = [(7, 5)]
      ∧ t.cohort.out.map (fun f => f.2.take 3) = [[1, 7, 3]] ∧ t.get (VFM_VF_STATE_STATE 31) = 1) = true := by decide +kernel

/-- A source that has committed asks without limit (Table 17.5). -/
theorem test_cohort_query_again :
    Runs ({ st [(SYS_ZONE, 3)] with cohort := { State.reset.cohort with outb := [⟨2, 7, 4, [], 0, true⟩], asked := [⟨2, 7, 3⟩] } })
      (.transferRetryTimeout 2 9) (fun s t =>
      s.member = true ∧ t.cohort.asked = [⟨2, 7, 4⟩]) = true := by decide +kernel

theorem test_cohort_query_ends :
    Runs ({ st [(SYS_ZONE, 3)] with cohort := { State.reset.cohort with asked := [⟨2, 7, 3⟩] } })
      (.transferRetryTimeout 2 9) (fun s t =>
      s.member = true ∧ s.outOf 2 7 = none ∧ t.cohort.asked = []) = true := by decide +kernel

/-- A frame in one part: its header and a content, from position 5, with MSG_ID 1. -/
def frameOf (typ : Nat) (content : List Byte) : List Byte :=
  leBytes 1 1 ++ leBytes 1 typ ++ leBytes 1 5 ++ leBytes 1 0 ++ leBytes 4 1 ++ leBytes 2 0 ++ leBytes 2 1
    ++ leBytes 2 content.length ++ leBytes 2 0 ++ content
/-- A member at position 3, with position 5 VERIFIED, two migrations from there and two to there. -/
def member3 : State := { st [(SYS_ZONE, 3)] with
  cohort := { State.reset.cohort with
    peers := [(5, ⟨2, [], [1], 0, false⟩)], inb := [⟨5, 7, 4, 1⟩, ⟨5, 8, 5, 2⟩]
    outb := [⟨5, 9, 6, [], 0, false⟩, ⟨5, 10, 7, [], 0, true⟩] } }
/-- Where the cohort table (a constant of Config) has a member at position 5, every TYPE of message from there is taken: the
hypotheses of the statements about messages hold of these frames together. -/
theorem test_cohort_frames (h : member3.taken 5 = true) :
    ∀ typ < 16, member3.frameOk (frameOf typ [7, 0, 0, 0]) true typ = true
      ∧ fieldAt (frameOf typ [7, 0, 0, 0]) 10 2 = 1 := by
  intro typ ht
  have e : fieldAt (frameOf typ [7, 0, 0, 0]) 2 1 = 5 := by
    revert typ; decide +kernel
  unfold State.frameOk
  rw [e, h]
  revert typ; decide +kernel
/-- The migrations of `member3` as the messages of those MIG_IDs find them. -/
theorem test_cohort_migrations : member3.inOf 5 7 = some ⟨5, 7, 4, 1⟩ ∧ member3.inOf 5 8 = some ⟨5, 8, 5, 2⟩
    ∧ member3.outOf 5 7 = none ∧ member3.outOf 5 9 = some ⟨5, 9, 6, [], 0, false⟩
    ∧ member3.outOf 5 10 = some ⟨5, 10, 7, [], 0, true⟩ ∧ member3.inOf 5 11 = none ∧ member3.agentRuns = true
    ∧ member3.member = true := by decide +kernel

/-- While a VFM command runs, the agent's RESUME of the function waits. -/
theorem test_cohort_offer_given_up_busy :
    Runs ({ st [(SYS_ZONE, 3), (VFM_CMD_STAT_BUSY, 1)] with cohort := { State.reset.cohort with outb := [⟨2, 7, 31, [1, 2], 3, false⟩] } })
      (.transferRetryTimeout 2 4) (fun s t =>
      s.member = true ∧ s.on VFM_CMD_STAT_BUSY = true ∧ t.cohort.outb = [] ∧ t.vfm.later = [(5, 31)]
      ∧ t.get (VFM_VF_STATE_STATE 31) = s.get (VFM_VF_STATE_STATE 31)) = true := by decide +kernel

end Sys2Proof.Tests
end

section
/-! SUPPORT. The fabric's own part of an access: the latches, the arbiters and the answer; pending words, which stand in no access's
way; and what the fabric hands to a register. -/

namespace Sys2Proof.Machine

/-! ### What the fabric keeps for itself -/

/-- Only the latches, the arbiters and the answer differ. -/
def FabricOnly (s u : State) : Prop := u = { s with latches := u.latches, arb := u.arb, resp := u.resp }

theorem FabricOnly.regs {s u : State} (h : FabricOnly s u) : u.regs = s.regs := by rw [h]

theorem FabricOnly.gate {s u : State} (h : FabricOnly s u) (a : Agent) (addr : Nat) (w : Bool) : u.gate a addr w = s.gate a addr w := by
  rw [h]; rfl

theorem FabricOnly.epoch {s u : State} (h : FabricOnly s u) : u.epoch = s.epoch := by rw [h]; rfl

theorem FabricOnly.settle_keeps {s u : State} (h : FabricOnly s u) : Keeps [] [] s u.settle := Moves.settle (Moves.ofRegs h.regs)

theorem State.settle_arb (s : State) : s.settle.arb = s.arb := by rw [s.settle_rest]
theorem State.settle_latches (s : State) : s.settle.latches = s.latches := by rw [s.settle_rest]

/-- Settling such a state changes registers besides. -/
theorem FabricOnly.settle {s u : State} (h : FabricOnly s u) :
    u.settle = { s with regs := u.settle.regs, latches := u.settle.latches, arb := u.settle.arb, resp := u.settle.resp } := by
  rw [State.settle_latches, State.settle_arb, State.settle_resp]
  refine u.settle_rest.trans ?_
  generalize u.settle.regs = r
  rw [h]

/-! ### What stands in the way of an access -/

theorem PendOnly.awake {s t : State} (h : PendOnly s t) : t.awake = s.awake := by rw [h.rest]; rfl
theorem PendOnly.islandStalls {s t : State} (h : PendOnly s t) (i : Nat) : t.islandStalls i = s.islandStalls i := by rw [h.rest]; rfl
theorem PendOnly.fenced {s t : State} (h : PendOnly s t) (b : Block) : b.fenced t = b.fenced s := by rw [h.rest]; rfl
theorem PendOnly.stalled {s t : State} (h : PendOnly s t) (b : Block) : b.stalled t = b.stalled s := by rw [h.rest]; rfl
theorem PendOnly.gated {s t : State} (h : PendOnly s t) (b : Block) : b.gated t = b.gated s := by
  unfold Block.gated; rw [h.get CLK_BLK_GATE (by decide)]
theorem PendOnly.owner {s t : State} (h : PendOnly s t) (b : Block) : b.owner t = b.owner s := by
  unfold Block.owner; rw [h.get WLD_OWN (by decide)]

theorem PendOnly.worldOf {s t : State} (h : PendOnly s t) (a : Agent) : worldOf a t = worldOf a s := by
  cases a
  case fifo n =>
    have hf : t.get (FIFO_CFG_PWORLD n) = s.get (FIFO_CFG_PWORLD n) := h.get _
      (pendFld_of_addr (by simp [FIFO_CFG_PWORLD]; omega) (by simp [FIFO_CFG_PWORLD]; omega) (by simp [FIFO_CFG_PWORLD]))
    exact congrArg (fun v => if (v == 1) = true then World.secure else World.normal) hf
  all_goals simp only [Machine.worldOf, h.owner, h.get WLD_APPW (by decide)]

theorem PendOnly.normalReaches {s t : State} (h : PendOnly s t) (addr : Nat) (w : Bool) :
    t.normalReaches addr w = s.normalReaches addr w := by
  simp only [State.normalReaches, State.on, h.owner, h.get WLD_APPW (by decide), h.get REC_CTL_NPUT (by decide)]

/-- Pending words stand in no access's way. -/
theorem PendOnly.gate {s t : State} (h : PendOnly s t) (a : Agent) (addr : Nat) (w : Bool) : t.gate a addr w = s.gate a addr w := by
  unfold State.gate State.fabStalls isNormal
  rw [h.awake, h.islandStalls, h.islandStalls, h.worldOf, h.normalReaches]
  cases blockOf addr with
  | none => rfl
  | some b => simp only [h.fenced, h.gated, h.stalled]

/-- An access that reaches its register finds the control die awake and no island on its way stalled. -/
theorem State.gate_pass {s : State} {a : Agent} {addr : Nat} {w : Bool} (h : s.gate a addr w = .pass) :
    s.awake = true ∧ (s.fabStalls || s.islandStalls (islandOf a)) = false := by
  unfold State.gate at h
  split at h
  · cases h
  · rename_i hawake
    split at h
    · cases h
    · rename_i hstalls
      exact ⟨by simpa using hawake, Bool.eq_false_iff.2 hstalls⟩

/-! ### Grants -/

theorem State.grants_rest (s : State) (a : Agent) (t n : Nat) : s.grants a t n = { s with arb := (s.grants a t n).arb } := by
  unfold State.grants
  generalize List.range ((n + 3) / 4) = l
  induction l generalizing s with
  | nil => rfl
  | cons k l ih => rw [List.foldl_cons, ih]; rfl

/-! ### Reads of register space -/

/-- The fabric hands a 32-bit read of register space to its register. -/
theorem State.fabricRead_narrow {s : State} {a : Agent} {addr t : Nat} (hs : (s.fabStalls || s.islandStalls (islandOf a)) = false)
    (ht : targetOfRange addr 4 = some t) (hp : t = 7 ∨ t = 8) (hal : addr % 4 = 0) :
    ∃ x, s.fabricRead a addr 4 = (({ s with arb := x } : State).regRead32 a addr).oneGrant x := by
  refine ⟨(s.grants a t (wordsOf addr 4).length).arb, ?_⟩
  unfold State.fabricRead
  have h7 : ¬ t < 7 := by omega
  have h9 : ¬ t = 9 := by omega
  simp only [hs, ht, if_neg h7, if_neg h9, regShape, hal]
  rw [← State.grants_rest]
  rfl

/-- The fabric hands an aligned 64-bit read of register space to its registers, and refuses any other. -/
theorem State.fabricRead_wide {s : State} {a : Agent} {addr t : Nat} (hs : (s.fabStalls || s.islandStalls (islandOf a)) = false)
    (ht : targetOfRange addr 8 = some t) (hp : t = 7 ∨ t = 8) :
    ∃ x, s.fabricRead a addr 8 = if addr % 8 = 0 then (({ s with arb := x } : State).regRead64 a addr).oneGrant x
      else ({ s with arb := x } : State).answerErr := by
  refine ⟨(s.grants a t (wordsOf addr 8).length).arb, ?_⟩
  unfold State.fabricRead
  have h7 : ¬ t < 7 := by omega
  have h9 : ¬ t = 9 := by omega
  simp only [hs, ht, if_neg h7, if_neg h9, regShape]
  rw [← State.grants_rest]
  by_cases hal : addr % 8 = 0 <;> simp [hal]

end Sys2Proof.Machine
end

section
/-! SUPPORT. The state after reset, and the prefetch of register space. -/

namespace Sys2Proof.Machine

/-- Settles O6: no register field and no memory is listed at reset. -/
theorem resetGivesEveryFieldItsResetValue : Obligations.ResetGivesEveryFieldItsResetValue := by
  unfold Obligations.ResetGivesEveryFieldItsResetValue
  have hget : ∀ f : Fld, State.reset.get f = f.reset := fun f => look_nil f.key f.reset
  have hpend : ∀ e : Nat, e < 256 → State.reset.isPending e = false := by
    intro e _
    have h0 : State.reset.get (EVC_PEND (e / 32)) = 0 := hget _
    rw [State.isPending, h0, bit_eq_testBit, Nat.zero_testBit]
  exact ⟨hget, hpend, fun a => look_nil a 0, fun w => look_nil w 0, rfl, rfl, rfl⟩

/-- The fabric refuses a prefetch-tagged read of register space without asking a target (R9). -/
theorem exec_fabricTransfer_prefetch {s : State} {x : Transfer} (haw : s.awake = true) (hf : s.fabStalls = false)
    (hi : s.islandStalls (islandOf x.agent) = false) (hok : transferOk x = true) (hpar : x.parityOk = true)
    (hpre : x.prefetch = true) (hw : x.write = false) (hlo : 0x40000000 ≤ x.addr) (hhi : x.addr < 0x41000000) :
    exec (.fabricTransfer x) s = .next s.answerErr.settle := by
  have he : exec (.fabricTransfer x) s = execFabricTransfer x s := rfl
  rw [he, execFabricTransfer]
  simp [haw, hf, hi, hok, hpar, hpre, hw, hlo, hhi, done]

/-- Settles O18: all that is left of the read is its error response, settled. -/
theorem prefetchOfRegisterSpaceIsRefused : Obligations.PrefetchOfRegisterSpaceIsRefused := by
  unfold Obligations.PrefetchOfRegisterSpaceIsRefused
  intro s x haw hf hi hok hpar hpre hw hlo hhi
  exact ⟨_, exec_fabricTransfer_prefetch haw hf hi hok hpar hpre hw hlo hhi, State.settle_resp _,
    Moves.changes (Moves.ofRegs rfl) rfl⟩

end Sys2Proof.Machine
end

section
/-! SUPPORT. LO and HI reads of the counters (R11, R338). -/

namespace Sys2Proof.Machine

/-! ### Where the counters stand -/

/-- The blocks with a LO register. -/
def counterBlocks : List Block := [.pwr, .vote0, .vote1, .ist, .dma0, .dma1, .eth, .time, .vfm]

/-- The LO registers one by one: those of their own, and four for each port of the switch. -/
def counterLos : List Nat :=
  [0x40001028, 0x4002001C, 0x4002101C, 0x40022100, 0x40022140, 0x400F0020, 0x40030020, 0x40031020, 0x40070000, 0x40070048, 0x40070050]
    ++ (List.range 10).flatMap (fun p => [0x50, 0x58, 0xA0, 0xA8].map (0x40061000 + 0x100 * p + ·))

/-- Where a LO register stands: in register space beside its HI register in one block, and in no latch itself. -/
structure CounterAddr (lo : Nat) : Prop where
  aligned : lo % 4 = 0
  live : isLatched lo = false
  below : lo + 4 < 0x41000000
  port : targetOf lo = some 7 ∨ targetOf lo = some 8
  narrow : targetOfRange lo 4 = targetOf lo
  wide : targetOfRange lo 8 = targetOf lo
  block : ∃ b ∈ counterBlocks, blockOf lo = some b ∧ blockOf (lo + 4) = some b

theorem mem_counterLos {lo : Nat} (h : isCounterLo lo = true) : lo ∈ counterLos := by
  simp only [isCounterLo, Bool.or_eq_true, beq_iff_eq, Bool.and_eq_true, decide_eq_true_eq, List.contains_iff_mem] at h
  rw [counterLos, List.mem_append]
  by_cases hp : (0x40061000 ≤ lo ∧ lo < 0x40061A00) ∧ lo % 0x100 ∈ [0x50, 0x58, 0xA0, 0xA8]
  · right
    obtain ⟨⟨h1, h2⟩, h3⟩ := hp
    refine List.mem_flatMap.2 ⟨(lo - 0x40061000) / 0x100, List.mem_range.2 (by omega), List.mem_map.2 ⟨_, h3, by omega⟩⟩
  · left
    simp only [hp, or_false] at h
    simp only [List.mem_cons, List.not_mem_nil, or_false]
    omega

theorem counterAddr {lo : Nat} (h : isCounterLo lo = true) : CounterAddr lo := by
  have hall : ∀ l ∈ counterLos, (l % 4 = 0 ∧ isLatched l = false ∧ l + 4 < 0x41000000 ∧ (targetOf l = some 7 ∨ targetOf l = some 8)
      ∧ targetOfRange l 4 = targetOf l ∧ targetOfRange l 8 = targetOf l
      ∧ ∃ b ∈ counterBlocks, blockOf l = some b ∧ blockOf (l + 4) = some b) := by decide
  obtain ⟨h1, h2, h3, h4, h5, h6, h7⟩ := hall lo (mem_counterLos h)
  exact ⟨h1, h2, h3, h4, h5, h6, h7⟩

/-! ### Latches -/

/-- What the latches hold after a LO read (R11, R338). -/
def State.latchesLoaded (s : State) (a : Agent) (lo : Nat) : List (Nat × Nat) :=
  let l := ins s.latches (latchKey a (lo + 4)) (s.liveWord a (lo + 4)).1
  if lo = 0x40070000 then ins l (latchKey a 0x40070008) s.epoch else l

theorem latchKey_ne {a : Agent} {x y : Nat} (h : x ≠ y) : latchKey a x ≠ latchKey a y := by unfold latchKey; omega

theorem State.look_latchesLoaded_hi (s : State) (a : Agent) (lo : Nat) :
    look (s.latchesLoaded a lo) (latchKey a (lo + 4)) 0 = (s.liveWord a (lo + 4)).1 := by
  unfold State.latchesLoaded
  split
  · rw [look_ins_ne _ (latchKey_ne (by omega)), look_ins_self]
  · rw [look_ins_self]

theorem State.look_latchesLoaded_epoch (s : State) (a : Agent) :
    look (s.latchesLoaded a 0x40070000) (latchKey a 0x40070008) 0 = s.epoch := by
  unfold State.latchesLoaded
  rw [if_pos rfl, look_ins_self]

theorem State.look_latchesLoaded_ne (s : State) (a : Agent) {lo k : Nat} (hk : k ≠ latchKey a (lo + 4))
    (he : lo = 0x40070000 → k ≠ latchKey a 0x40070008) : look (s.latchesLoaded a lo) k 0 = look s.latches k 0 := by
  unfold State.latchesLoaded
  split
  · rw [look_ins_ne _ (he ‹_›), look_ins_ne _ hk]
  · rw [look_ins_ne _ hk]

theorem isLatched_hi {lo : Nat} (hc : isCounterLo lo = true) : isLatched (lo + 4) = true := by
  unfold isLatched
  rw [show lo + 4 - 4 = lo by omega, hc]
  simp

/-- A latched register that a read reaches answers its latch. -/
theorem State.regRead32_latched {s : State} {a : Agent} {addr : Nat} (hg : s.gate a addr false = .pass) (hl : isLatched addr = true) :
    s.regRead32 a addr = s.answer (look s.latches (latchKey a addr) 0) := by
  unfold State.regRead32
  simp only [State.refuse_pass hg, hl, if_true]

/-! ### Reads of counters -/

/-- The word of a register of a counter's block is a function of what the units hold: reading it changes nothing. -/
theorem State.liveWord_counterBlock {addr : Nat} {b : Block} (hlt : addr < 0x41000000)
    (hb : blockOf addr = some b) (hm : b ∈ counterBlocks) (s : State) (a : Agent) :
    (s.liveWord a addr).2 = s ∧ ∀ u, FabricOnly s u → (u.liveWord a addr).1 = (s.liveWord a addr).1 := by
  simp only [counterBlocks, List.mem_cons, List.not_mem_nil, or_false] at hm
  unfold State.liveWord
  rw [if_neg (by omega), hb]
  rcases hm with rfl | rfl | rfl | rfl | rfl | rfl | rfl | rfl | rfl
  all_goals exact ⟨rfl, fun u hu => by rw [if_neg (by omega), hu]; rfl⟩

section
variable {s : State} {a : Agent} {lo : Nat} (hc : isCounterLo lo = true)
include hc

theorem State.liveWord_lo_state : (s.liveWord a lo).2 = s := by
  obtain ⟨b, hm, hb, -⟩ := (counterAddr hc).block
  have hlt : lo < 0x41000000 := by have := (counterAddr hc).below; omega
  exact (State.liveWord_counterBlock hlt hb hm s a).1

theorem FabricOnly.liveWord_lo {u : State} (h : FabricOnly s u) : (u.liveWord a lo).1 = (s.liveWord a lo).1 := by
  obtain ⟨b, hm, hb, -⟩ := (counterAddr hc).block
  have hlt : lo < 0x41000000 := by have := (counterAddr hc).below; omega
  exact (State.liveWord_counterBlock hlt hb hm s a).2 u h

theorem FabricOnly.liveWord_hi {u : State} (h : FabricOnly s u) : (u.liveWord a (lo + 4)).1 = (s.liveWord a (lo + 4)).1 := by
  obtain ⟨b, hm, -, hb⟩ := (counterAddr hc).block
  exact (State.liveWord_counterBlock (counterAddr hc).below hb hm s a).2 u h

theorem FabricOnly.latchesLoaded {u : State} (h : FabricOnly s u) (hl : u.latches = s.latches) :
    u.latchesLoaded a lo = s.latchesLoaded a lo := by
  unfold State.latchesLoaded
  rw [h.liveWord_hi hc, h.epoch, hl]

/-- A LO register is read: its word is the answer, and the latches are loaded. -/
theorem State.regRead32_counter (hg : s.gate a lo false = .pass) :
    s.regRead32 a lo = { s with latches := s.latchesLoaded a lo, resp := ⟨false, (s.liveWord a lo).1, false⟩ } := by
  unfold State.regRead32 State.loadLatch State.latchesLoaded
  simp only [State.refuse_pass hg, (counterAddr hc).live, State.liveWord_lo_state hc, hc]
  rfl

/-- Both halves of a counter are read in one access (R11). -/
theorem State.regRead64_counter (hg : s.gate a lo false = .pass) (hg' : s.gate a (lo + 4) false = .pass) :
    s.regRead64 a lo = { s with latches := s.latchesLoaded a lo,
                                resp := ⟨false, (s.liveWord a lo).1 + 2 ^ 32 * (s.liveWord a (lo + 4)).1, false⟩ } := by
  unfold State.regRead64
  rw [State.regRead32_counter hc hg]
  have hu : FabricOnly s { s with latches := s.latchesLoaded a lo, resp := ⟨false, (s.liveWord a lo).1, false⟩ } := rfl
  simp only [hc, State.refuse_pass ((hu.gate a (lo + 4) false).trans hg'), hu.liveWord_hi hc]
  rfl

/-- A counter read that its register space accepts: the answer and the loaded latches. -/
theorem State.fabricRead_counter (hg : s.gate a lo false = .pass) (hg' : s.gate a (lo + 4) false = .pass) (wide : Bool)
    (hw : wide = true → lo % 8 = 0) :
    ∃ u, s.fabricRead a lo (if wide then 8 else 4) = u ∧ FabricOnly s u ∧ u.latches = s.latchesLoaded a lo
      ∧ u.resp = ⟨false, (s.liveWord a lo).1 + (if wide then 2 ^ 32 * (s.liveWord a (lo + 4)).1 else 0), false⟩ := by
  obtain ⟨-, hs⟩ := State.gate_pass hg
  have ca := counterAddr hc
  obtain ⟨t, ht, hp⟩ : ∃ t, targetOf lo = some t ∧ (t = 7 ∨ t = 8) := by
    rcases ca.port with h | h
    · exact ⟨7, h, .inl rfl⟩
    · exact ⟨8, h, .inr rfl⟩
  refine ⟨_, rfl, ?_⟩
  cases wide with
  | false =>
    obtain ⟨x, hx⟩ := State.fabricRead_narrow hs (ca.narrow.trans ht) hp ca.aligned
    have hu : FabricOnly s { s with arb := x } := rfl
    rw [State.regRead32_counter hc ((hu.gate a lo false).trans hg), hu.latchesLoaded hc rfl, hu.liveWord_lo hc] at hx
    rw [if_neg Bool.false_ne_true, hx]
    exact ⟨rfl, rfl, rfl⟩
  | true =>
    obtain ⟨x, hx⟩ := State.fabricRead_wide hs (ca.wide.trans ht) hp
    have hu : FabricOnly s { s with arb := x } := rfl
    rw [if_pos (hw rfl), State.regRead64_counter hc ((hu.gate a lo false).trans hg) ((hu.gate a (lo + 4) false).trans hg'),
      hu.latchesLoaded hc rfl, hu.liveWord_lo hc, hu.liveWord_hi hc] at hx
    rw [if_pos rfl, hx]
    exact ⟨rfl, rfl, rfl⟩

/-- A 64-bit read of a counter that is not aligned to 8 bytes gets an error response. -/
theorem State.fabricRead_counter_unaligned (hs : (s.fabStalls || s.islandStalls (islandOf a)) = false) (hal : lo % 8 ≠ 0) :
    ∃ x, s.fabricRead a lo 8 = ({ s with arb := x } : State).answerErr := by
  have ca := counterAddr hc
  rcases ca.port with hp | hp
  · obtain ⟨x, hx⟩ := State.fabricRead_wide hs (ca.wide.trans hp) (.inl rfl)
    exact ⟨x, hx.trans (if_neg hal)⟩
  · obtain ⟨x, hx⟩ := State.fabricRead_wide hs (ca.wide.trans hp) (.inr rfl)
    exact ⟨x, hx.trans (if_neg hal)⟩

/-- After settling, the HI register still answers its latch. -/
theorem State.regRead32_hi_settle (hg : s.gate a (lo + 4) false = .pass) :
    (s.settle.regRead32 a (lo + 4)).resp = ⟨false, look s.latches (latchKey a (lo + 4)) 0, false⟩ := by
  rw [State.regRead32_latched ((s.settle_pendOnly.gate a (lo + 4) false).trans hg) (isLatched_hi hc), State.answer_resp,
    State.settle_latches]

end

theorem exec_counterLoRead {s : State} (h : s.awake = true) (a : Agent) (lo : Nat) (wide : Bool) :
    exec (.counterLoRead a lo wide) s = .next (s.fabricRead a lo (if wide then 8 else 4)).settle := by
  have he : exec (.counterLoRead a lo wide) s = execCounterLoRead a lo wide s := rfl
  rw [he, execCounterLoRead, whenAwake_awake h]

/-- Settles O22: a read of a LO register is a function of what the units hold, and changes only what the fabric keeps for itself;
settling then moves pending words only, which stand in no read's way. -/
theorem counterReadsLatchTheirUpperHalf : Obligations.CounterReadsLatchTheirUpperHalf := by
  unfold Obligations.CounterReadsLatchTheirUpperHalf
  intro s a lo hc hg hg'
  obtain ⟨hawake, hs⟩ := State.gate_pass hg
  constructor
  · intro wide hw
    obtain ⟨u, hx, hu, hl, hr⟩ := State.fabricRead_counter hc hg hg' wide hw
    refine ⟨u.settle, (exec_counterLoRead hawake a lo wide).trans (by rw [hx]), (u.settle_resp).trans hr, ?_, ?_, ?_,
      hu.settle_keeps, hu.settle⟩
    · rw [State.regRead32_hi_settle hc ((hu.gate a (lo + 4) false).trans hg'), hl, s.look_latchesLoaded_hi a lo]
    · intro k hk he
      rw [State.settle_latches, hl]
      exact s.look_latchesLoaded_ne a hk he
    · rintro rfl
      rw [State.settle_latches, hl]
      exact s.look_latchesLoaded_epoch a
  · intro hal
    obtain ⟨x, hx⟩ := State.fabricRead_counter_unaligned hc hs hal
    refine ⟨_, (exec_counterLoRead hawake a lo true).trans (by rw [if_pos rfl, hx]), State.settle_resp _, ?_⟩
    rw [State.settle_arb]
    exact Moves.changes (Moves.ofRegs rfl) rfl

end Sys2Proof.Machine
end

section
/-! SUPPORT. Release queues: a write of a VOTED group to a once target. -/

namespace Sys2Proof.Machine

@[simp] theorem State.grp_set (s : State) (f : Fld) (v i : Nat) : (s.set f v).grp i = s.grp i := rfl

@[simp] theorem State.grp_setGrp_self (s : State) (g : Nat) (x : LaneGrp) : (s.setGrp g x).grp g = x := by
  simp [State.grp, State.setGrp]

theorem State.grp_setGrp_ne (s : State) {g i : Nat} (h : i ≠ g) (x : LaneGrp) : (s.setGrp g x).grp i = s.grp i := by
  simp [State.grp, State.setGrp, look_ins_ne _ h]

/-- A group with a new undo log and release queue: their lengths show in its status, nothing else changes. -/
theorem State.putGrp_moves (s : State) (g : Fin 2) (x : LaneGrp) :
    Moves [IST_CKPT_STAT_RELQ g, IST_CKPT_STAT_UNDO g] [] s (s.putGrp g x) := by
  have hr : pendFld (IST_CKPT_STAT_RELQ g) = false :=
    pendFld_of_addr (by simp only [IST_CKPT_STAT_RELQ]; omega) (by simp only [IST_CKPT_STAT_RELQ]; omega) (by decide : 16 < 32)
  have hu : pendFld (IST_CKPT_STAT_UNDO g) = false :=
    pendFld_of_addr (by simp only [IST_CKPT_STAT_UNDO]; omega) (by simp only [IST_CKPT_STAT_UNDO]; omega) (by decide : 0 < 32)
  have hg : Moves [IST_CKPT_STAT_RELQ g, IST_CKPT_STAT_UNDO g] [] s (s.setGrp g x) := Moves.ofRegs rfl
  unfold State.putGrp
  exact (hg.trans (Moves.set _ (.tail _ (.head _)) hu _)).trans (Moves.set _ (.head _) hr _)

/-- A once-write joins a release queue that has room (R140). -/
theorem State.queueWrite_room {s : State} {g : Fin 2} (h : (s.grp g).relq.length < 64) (e : RelqEnt) :
    s.queueWrite g e = (s.putGrp g { s.grp g with relq := (s.grp g).relq ++ [e] }).countWrite g := by
  unfold State.queueWrite
  simp only [show ¬ 64 ≤ (s.grp g).relq.length by omega, decide_false, Bool.and_false, if_false, Bool.false_eq_true]

/-- What joining a release queue leaves of the groups. -/
structure Queued (g : Fin 2) (e : RelqEnt) (s t : State) : Prop where
  self : t.grp g = { s.grp g with relq := (s.grp g).relq ++ [e], writes := (s.grp g).writes + 1 }
  other : ∀ i, i ≠ g.val → t.grp i = s.grp i
  moves : Moves [IST_CKPT_STAT_RELQ g, IST_CKPT_STAT_UNDO g] [] s t
  rest : t = { s with regs := t.regs, groups := t.groups }

theorem State.queueWrite_queued {s : State} {g : Fin 2} (h : (s.grp g).relq.length < 64) (e : RelqEnt) :
    Queued g e s (s.queueWrite g e) := by
  rw [State.queueWrite_room h]
  unfold State.countWrite
  refine ⟨?_, fun i hi => ?_, (State.putGrp_moves s g _).trans (Moves.ofRegs rfl), rfl⟩
  · simp [State.putGrp]
  · simp [State.putGrp, State.grp_setGrp_ne _ hi]

/-- A group's queue is nothing that the groups take up between outputs. -/
theorem Queued.lanesQuiet {g : Fin 2} {e : RelqEnt} {s t : State} (h : Queued g e s t) : t.lanesQuiet = s.lanesQuiet := by
  have hd : t.dbg = s.dbg := by rw [h.rest]
  have hw : ∀ i, (t.grp i).window = (s.grp i).window := by
    intro i
    by_cases hi : i = g.val
    · rw [hi, h.self]
    · rw [h.other i hi]
  unfold State.lanesQuiet
  rw [hd, hw, hw]

theorem exec_regWrite_queued {s : State} {a : Agent} {addr : Nat} {g : Fin 2} (haw : s.awake = true)
    (hq : s.queueOf a addr = some g) (v : Word) :
    exec (.regWrite a addr v) s = .next ((s.answer 0).queueWrite g (regEntry addr v)).laneWork.settle := by
  have he : exec (.regWrite a addr v) s = execRegWrite a addr v s := rfl
  rw [he, execRegWrite, whenAwake_awake haw, hq]

theorem exec_regWrite_unqueued {s : State} {a : Agent} {addr : Nat} (haw : s.awake = true)
    (hq : s.queueOf a addr = none) (v : Word) :
    exec (.regWrite a addr v) s = .next (s.fabricWrite a addr (leBytes 4 v.toNat)).laneWork.settle := by
  have he : exec (.regWrite a addr v) s = execRegWrite a addr v s := rfl
  rw [he, execRegWrite, whenAwake_awake haw, hq]

theorem State.settle_groups (s : State) : s.settle.groups = s.groups := by rw [s.settle_rest]
theorem State.grp_settle (s : State) (i : Nat) : s.settle.grp i = s.grp i := by
  unfold State.grp; rw [State.settle_groups]

/-- A write of a VOTED group to a once target waits in the release queue (R124, R140). -/
theorem regWrite_joins_queue {s : State} {a : Agent} {addr : Nat} {g : Fin 2} (haw : s.awake = true) (hlq : s.lanesQuiet = true)
    (hq : s.queueOf a addr = some g) (hroom : (s.grp g).relq.length < 64) (v : Word) :
    Does (.regWrite a addr v) s (fun t =>
      (t.grp g).relq = (s.grp g).relq ++ [regEntry addr v] ∧ Keeps [IST_CKPT_STAT_RELQ g, IST_CKPT_STAT_UNDO g] [] s t
      ∧ (∀ i, i ≠ g.val → t.grp i = s.grp i) ∧ t = { s with regs := t.regs, groups := t.groups, resp := ⟨false, 0, false⟩ }) := by
  have hqd : Queued g (regEntry addr v) (s.answer 0) ((s.answer 0).queueWrite g (regEntry addr v)) :=
    State.queueWrite_queued (s := s.answer 0) hroom _
  have hquiet : ((s.answer 0).queueWrite g (regEntry addr v)).lanesQuiet = true := hqd.lanesQuiet.trans hlq
  refine ⟨_, exec_regWrite_queued haw hq v, ?_⟩
  rw [State.laneWork_quiet hquiet]
  generalize (s.answer 0).queueWrite g (regEntry addr v) = u at hqd
  refine ⟨?_, Moves.settle ((Moves.answer s 0).trans hqd.moves), fun i hi => ?_, ?_⟩
  · rw [State.grp_settle, hqd.self]; rfl
  · rw [State.grp_settle, hqd.other i hi]; rfl
  · rw [State.settle_groups]
    refine u.settle_rest.trans ?_
    generalize u.settle.regs = r
    rw [hqd.rest]; rfl

end Sys2Proof.Machine
end

section
/-! SUPPORT. Register writes over the fabric that no row of the table carries: the enables, configurations and thresholds of the EVC (R44). -/

namespace Sys2Proof.Machine

/-! ### The register map of the EVC -/

/-- The rows of Table 1.12 with a field in EVC_CFGn. -/
theorem rowsAt_evcCfg (n : Fin 256) : rowsAt (0x40011000 + 4 * n.val) =
    [⟨EVC_CFG_WORLD 0, [(256, 4)], .ro⟩, ⟨EVC_CFG_PRIO 0, [(256, 4)], .rw⟩, ⟨EVC_CFG_VF 0, [(256, 4)], .rw⟩,
      ⟨EVC_CFG_TGT 0, [(256, 4)], .rw⟩] := by
  revert n; decide +kernel

theorem rowsAt_evcEn (k : Fin 8) : rowsAt (EVC_EN k).addr = [⟨EVC_EN 0, [(8, 4)], .rw⟩] := by
  revert k; decide

theorem rowsAt_evcThr (g : Fin 6) : rowsAt (EVC_THR g).addr = [⟨EVC_THR 0, [(6, 0x10)], .rw⟩] := by
  revert g; decide

/-! ### Where the EVC lies -/

theorem blockOf_evc {addr : Nat} (h : 0x40010000 ≤ addr) (h' : addr < 0x40014000) : blockOf addr = some .evc := by
  have hsys : ¬ addr < 0x40001000 := by omega
  have hpwr : ¬ addr < 0x40002000 := by omega
  have hclk : ¬ addr < 0x40003000 := by omega
  have hrst : ¬ addr < 0x40004000 := by omega
  unfold blockOf allBlocks
  simp [Block.base, Block.size, hsys, hpwr, hclk, hrst, h, h']

theorem targetOf_evc {addr : Nat} (h : 0x40010000 ≤ addr) (h' : addr < 0x40014000) : targetOf addr = some 7 := by
  unfold targetOf
  rw [if_neg (by omega), if_neg (by omega), if_neg (by omega), if_neg (by omega), if_neg (by omega), if_neg (by omega),
    if_neg (by omega), if_pos (by omega), blockOf_evc h h', if_pos (Option.isSome_some), if_pos (by omega)]

theorem targetOfRange_evc {addr : Nat} (h : 0x40010000 ≤ addr) (h' : addr + 4 ≤ 0x40014000) : targetOfRange addr 4 = some 7 := by
  unfold targetOfRange
  rw [targetOf_evc h (by omega), targetOf_evc (by omega) (by omega)]
  rfl

/-- Nothing stands in the way of a Secure initiator to the EVC but the fabric: the EVC is neither gated nor handed over, and its
island is the fabric's (Tables 1.3, 2.12, 16.2). -/
theorem State.gate_evc {s : State} {a : Agent} (haw : s.awake = true) (hs : (s.fabStalls || s.islandStalls (islandOf a)) = false)
    (hn : isNormal a s = false) {addr : Nat} (h : 0x40010000 ≤ addr) (h' : addr < 0x40014000) (w : Bool) :
    s.gate a addr w = .pass := by
  have hf : Block.evc.fenced s = false := by
    unfold Block.fenced
    cases s.dbg.handOver <;> rfl
  have hg : Block.evc.gated s = false := rfl
  have hst : Block.evc.stalled s = false := rfl
  unfold State.gate
  rw [haw, hs, if_neg (by omega : ¬ 0x41000000 ≤ addr), blockOf_evc h h']
  simp [hf, hg, hst, hn]

theorem ringDoorbell_ge (r : Ring) : 0x40020000 ≤ r.doorbell := by
  cases r <;> simp only [Ring.doorbell] <;> omega

theorem ringBase_ge (r : Ring) : 0x40020000 ≤ r.base := by
  cases r <;> simp only [Ring.base] <;> omega

theorem ringAt_evc {addr : Nat} (h : addr < 0x40020000) : ringAt addr = none := by
  refine List.find?_eq_none.2 (fun r _ => ?_)
  have := ringBase_ge r
  simp only [Bool.and_eq_true, decide_eq_true_eq]
  omega

/-- No ring has a doorbell or a ring set below the blocks behind the EVC. -/
theorem ringCmds_evc {addr : Nat} (h : addr < 0x40020000) (a : Agent) (v : Word) : ringCmds a addr v = none := by
  have hbell : bellAt addr = none := by
    refine List.find?_eq_none.2 (fun r _ => ?_)
    have := ringDoorbell_ge r
    simp only [Bool.or_eq_true, beq_iff_eq]
    omega
  unfold ringCmds
  rw [hbell, ringAt_evc h]

/-- The registers of the EVC from the enables to the thresholds, which no row of the table writes. -/
def EvcPlain (addr : Nat) : Prop := 0x40010100 ≤ addr ∧ addr < 0x40013000 ∧ addr % 4 = 0

theorem EvcPlain.rowCmds {addr : Nat} (h : EvcPlain addr) (a : Agent) (v : Word) : rowCmds a addr v = ([], true) := by
  obtain ⟨hlo, hhi, -⟩ := h
  have hwce : addr ≠ EVC_WCE_CTL_REARM.addr := by simp only [EVC_WCE_CTL_REARM]; omega
  have hfab : addr ≠ EVC_FAB_CTL.addr := by simp only [EVC_FAB_CTL]; omega
  have hevc : evcCmds a addr v = ([], true) := by
    unfold evcCmds
    rw [if_neg (by omega), if_neg (by omega), if_neg hwce, if_neg hfab]
  unfold Machine.rowCmds
  rw [ringCmds_evc (by omega), blockOf_evc (by omega) (by omega)]
  exact (if_neg (by omega)).trans hevc

theorem EvcPlain.shut {addr : Nat} (h : EvcPlain addr) (s : State) : s.shut addr = false := by
  obtain ⟨hlo, hhi, -⟩ := h
  unfold State.shut
  rw [ringAt_evc (by omega), blockOf_evc (by omega) (by omega)]
  rfl

/-- The fields take their parts: no lock, no mirror. -/
theorem EvcPlain.writeFields {addr : Nat} (h : EvcPlain addr) (s : State) (v : Nat) :
    s.writeFields addr v = (rowsAt addr).foldl (fun (s : State) r => s.writeField addr v r) s := by
  obtain ⟨hlo, hhi, -⟩ := h
  have hl : ∀ t : State, t.lockReg addr = t := by
    intro t
    unfold State.lockReg
    refine if_neg ?_
    simp only [RST_WDT_CFG_EN, WLD_LOCK]
    omega
  have hm : isMirror addr = false := by
    unfold isMirror
    simp only [Bool.or_eq_false_iff, beq_eq_false_iff_ne]
    omega
  unfold State.writeFields
  rw [hl, hm]
  rfl

/-- A Secure write of such a register that reaches it: the bits that are open to it go to the fields. -/
theorem EvcPlain.regWrite32 {addr : Nat} (h : EvcPlain addr) {s : State} {a : Agent} {v : Word} {w : Nat}
    (hg : s.gate a addr true = .pass) (ho : s.openBits a addr v.toNat = some w) :
    s.regWrite32 a addr v = ((rowsAt addr).foldl (fun (s : State) r => s.writeField addr w r) s).answer 0 := by
  have hp : s.plainWrite a addr v.toNat = s.writeFields addr w := by
    have hb : blockOf addr = some .evc := blockOf_evc (by have := h.1; omega) (by have := h.2.1; omega)
    unfold State.plainWrite
    rw [h.shut, hb, ho]
    rfl
  unfold State.regWrite32
  rw [h.rowCmds, State.refuse_pass hg, ← h.writeFields, ← hp]
  rfl

/-! ### A 32-bit write over the fabric -/

theorem leBytes_length (n v : Nat) : (leBytes n v).length = n := by
  induction n generalizing v with
  | zero => rfl
  | succ n ih => simp [leBytes, ih]

theorem leNat_leBytes (n v : Nat) : leNat (leBytes n v) = v % 256 ^ n := by
  induction n generalizing v with
  | zero => simp [leBytes, leNat, Nat.mod_one]
  | succ n ih =>
    rw [leBytes, leNat, ih, BitVec.toNat_ofNat]
    exact ((congrArg (v % ·) (Nat.pow_succ' (m := 256) (n := n))).trans Nat.mod_mul).symm

theorem word_of_leBytes (v : Word) : BitVec.ofNat 32 (fieldAt (leBytes 4 v.toNat) 0 4) = v := by
  have hv : v.toNat < 256 ^ 4 := v.isLt
  have hf : fieldAt (leBytes 4 v.toNat) 0 4 = v.toNat := by
    unfold fieldAt
    rw [List.drop_zero, List.take_of_length_le (Nat.le_of_eq (leBytes_length 4 _)), leNat_leBytes, Nat.mod_eq_of_lt hv]
  rw [hf, BitVec.ofNat_toNat, BitVec.setWidth_eq]

/-- The fabric hands an aligned 32-bit write of register space to its register. -/
theorem State.fabricWrite_word {s : State} {a : Agent} {addr t : Nat} (hs : (s.fabStalls || s.islandStalls (islandOf a)) = false)
    (ht : targetOfRange addr 4 = some t) (hp : t = 7 ∨ t = 8) (hal : addr % 4 = 0) (v : Word) :
    ∃ x, s.fabricWrite a addr (leBytes 4 v.toNat) = (({ s with arb := x } : State).regWrite32 a addr v).oneGrant x := by
  refine ⟨(s.grants a t (wordsOf addr 4).length).arb, ?_⟩
  unfold State.fabricWrite
  have h7 : ¬ t < 7 := by omega
  have h9 : ¬ t = 9 := by omega
  simp only [hs, leBytes_length, ht, if_neg h7, if_neg h9, regShape, hal, word_of_leBytes]
  rw [← State.grants_rest]
  rfl

theorem State.setAll_regs_congr {s u : State} (h : u.regs = s.regs) (l : List (Fld × Nat)) : (u.setAll l).regs = (s.setAll l).regs := by
  induction l generalizing s u with
  | nil => exact h
  | cons p l ih =>
    rw [State.setAll_cons, State.setAll_cons]
    exact ih (by rw [State.set_eq, State.set_eq, h])

theorem State.lanesQuiet_congr {s u : State} (hd : u.dbg = s.dbg) (hg : u.groups = s.groups) : u.lanesQuiet = s.lanesQuiet := by
  unfold State.lanesQuiet State.grp
  rw [hd, hg]

/-- The write of such a register gives its fields the values of `l`: what its rows and the bits open to the writer make of it. -/
def Stores (a : Agent) (addr : Nat) (v : Word) (l : List (Fld × Nat)) (s : State) : Prop :=
  ∃ w, s.openBits a addr v.toNat = some w ∧ (rowsAt addr).foldl (fun (s : State) r => s.writeField addr w r) s = s.setAll l

/-- A write has been served and answered: the fields of `l` hold their values, nothing else changes but the arbiters' turns. -/
structure Stored (l : List (Fld × Nat)) (s r : State) : Prop where
  regs : r.regs = (s.setAll l).regs
  rest : r = { s with regs := r.regs, arb := r.arb, resp := ⟨false, 0, false⟩ }

theorem Stored.lanesQuiet {l : List (Fld × Nat)} {s r : State} (h : Stored l s r) : r.lanesQuiet = s.lanesQuiet :=
  State.lanesQuiet_congr (by rw [h.rest]) (by rw [h.rest])

theorem Stored.get_settle {l : List (Fld × Nat)} {s r : State} (h : Stored l s r) {f : Fld} (hf : pendFld f = false) :
    r.settle.get f = (s.setAll l).get f := by
  rw [State.get_settle r hf, State.get_eq, State.get_eq, h.regs]

theorem Stored.writes {l : List (Fld × Nat)} {fs : List Fld} {s r : State} (h : Stored l s r) (hm : ∀ p ∈ l, p.1 ∈ fs)
    (hl : ∀ p ∈ l, pendFld p.1 = false) : Writes fs [] s r.settle := by
  have hset : Moves fs [] s (s.setAll l) := Moves.setAll s l hm hl
  refine ⟨(hset.trans (Moves.ofRegs h.regs)).settle, ?_⟩
  unfold Answered
  rw [State.settle_arb]
  refine r.settle_rest.trans ?_
  generalize r.settle.regs = x
  rw [h.rest]

theorem State.stored_setAll (s : State) (x y : List (Nat × Arb)) (l : List (Fld × Nat)) :
    Stored l s (((({ s with arb := x } : State).setAll l).answer 0).oneGrant y) := by
  have hr : (({ s with arb := x } : State).setAll l).regs = (s.setAll l).regs :=
    State.setAll_regs_congr (s := s) (u := { s with arb := x }) rfl l
  refine ⟨hr, ?_⟩
  rw [State.setAll_rest { s with arb := x } l]
  rfl

/-- A Secure write of such a register by an initiator without a release queue. -/
theorem EvcPlain.does_regWrite {addr : Nat} (h : EvcPlain addr) {s : State} {a : Agent} {v : Word} {l : List (Fld × Nat)} {fs : List Fld}
    (haw : s.awake = true) (hs : (s.fabStalls || s.islandStalls (islandOf a)) = false) (hlq : s.lanesQuiet = true)
    (hn : isNormal a s = false) (hq : s.queueOf a addr = none) (hm : ∀ p ∈ l, p.1 ∈ fs)
    (hl : ∀ p ∈ l, pendFld p.1 = false) (hst : ∀ u, isNormal a u = false → Stores a addr v l u) :
    Does (.regWrite a addr v) s (fun t => (∀ f, pendFld f = false → t.get f = (s.setAll l).get f) ∧ Writes fs [] s t) := by
  obtain ⟨hlo, hhi, hal⟩ := id h
  obtain ⟨x, hx⟩ := State.fabricWrite_word hs (targetOfRange_evc (by omega) (by omega)) (.inl rfl) hal v
  have hu : FabricOnly s { s with arb := x } := rfl
  have hg : ({ s with arb := x } : State).gate a addr true = .pass :=
    (hu.gate a addr true).trans (State.gate_evc haw hs hn (by omega) (by omega) true)
  obtain ⟨w, ho, hw⟩ := hst { s with arb := x } hn
  rw [h.regWrite32 hg ho, hw] at hx
  have hr : Stored l s (s.fabricWrite a addr (leBytes 4 v.toNat)) := by
    rw [hx]
    exact s.stored_setAll x x l
  have hquiet := State.laneWork_quiet (hr.lanesQuiet.trans hlq)
  exact ⟨_, (exec_regWrite_unqueued haw hq v).trans (by rw [hquiet]), fun f hf => hr.get_settle hf, hr.writes hm hl⟩

/-! ### EVC_CFG, EVC_EN, EVC_THR -/

/-- Merging a word into a field from which all its bits are cleared gives the word, whatever lies above it. -/
theorem orBits_clearBits_all (v : Word) (e : Nat) :
    orBits (v.toNat &&& (2 ^ 32 - 1)) (clearBits e (2 ^ 32 - 1)) % 2 ^ 32 = v.toNat := by
  have hv : v.toNat % 2 ^ 32 = v.toNat := Nat.mod_eq_of_lt v.isLt
  have he : clearBits e (2 ^ 32 - 1) % 2 ^ 32 = 0 := by
    rw [clearBits, Nat.and_two_pow_sub_one_eq_mod]
    omega
  rw [orBits, Nat.or_mod_two_pow, he, Nat.or_zero, Nat.and_two_pow_sub_one_eq_mod, hv, hv]

/-- The bits of EVC word `k` that a Secure write leaves in the enables: all that it writes. -/
theorem openBits_evcEn {s : State} {a : Agent} (hn : isNormal a s = false) (k : Fin 8) (v : Word) :
    ∃ w, s.openBits a (EVC_EN k).addr v.toNat = some w ∧ w % 2 ^ 32 = v.toNat := by
  have hk : ((EVC_EN k).addr - 0x40010100) / 4 = k := by simp only [EVC_EN]; omega
  unfold State.openBits
  rw [if_pos (by simp only [EVC_EN]; omega)]
  simp only [hk, evcMask, hn]
  exact ⟨_, rfl, orBits_clearBits_all v _⟩

theorem stores_evcEn {s : State} {a : Agent} (hn : isNormal a s = false) (k : Fin 8) (v : Word) :
    Stores a (EVC_EN k).addr v [(EVC_EN k, v.toNat)] s := by
  obtain ⟨w, ho, hw⟩ := openBits_evcEn hn k v
  refine ⟨w, ho, ?_⟩
  rw [rowsAt_evcEn]
  have hb : bits w 0 32 = v.toNat := by rw [bits, Nat.pow_zero, Nat.div_one, hw]
  show s.set (EVC_EN k) (bits w 0 32) = s.set (EVC_EN k) v.toNat
  rw [hb]

theorem stores_evcThr (s : State) (a : Agent) (g : Fin 6) (v : Word) :
    Stores a (EVC_THR g).addr v [(EVC_THR g, bits v.toNat 0 4)] s := by
  refine ⟨v.toNat, ?_, ?_⟩
  · unfold State.openBits
    rw [if_neg (by simp only [EVC_THR]; omega), if_neg (by simp only [EVC_THR]; omega)]
  · rw [rowsAt_evcThr]; rfl

theorem stores_evcCfg {s : State} {a : Agent} (hn : isNormal a s = false) (n : Fin 256) (v : Word) :
    Stores a (0x40011000 + 4 * n.val) v
      [(EVC_CFG_PRIO n, bits v.toNat 16 4), (EVC_CFG_VF n, bits v.toNat 8 5), (EVC_CFG_TGT n, bits v.toNat 0 4)] s := by
  refine ⟨v.toNat, ?_, ?_⟩
  · unfold State.openBits
    rw [if_neg (by omega), if_pos (by omega), hn]
    rfl
  · rw [rowsAt_evcCfg]; rfl

theorem evcPlain_cfg (n : Fin 256) : EvcPlain (0x40011000 + 4 * n.val) := ⟨by omega, by omega, by omega⟩
theorem evcPlain_en (k : Fin 8) : EvcPlain (EVC_EN k).addr := by
  simp only [EVC_EN, EvcPlain]; omega
theorem evcPlain_thr (g : Fin 6) : EvcPlain (EVC_THR g).addr := by
  simp only [EVC_THR, EvcPlain]; omega

/-- No field of these registers is a pending word. -/
theorem EvcPlain.pendFld {f : Fld} (h : EvcPlain f.addr) (hlo : f.lo < 32) : pendFld f = false := by
  obtain ⟨h1, h2, -⟩ := h
  exact pendFld_of_addr (by omega) (by omega) hlo

theorem pendFld_cfgTgt (n : Fin 256) : pendFld (EVC_CFG_TGT n) = false := EvcPlain.pendFld (evcPlain_cfg n) (by decide : 0 < 32)
theorem pendFld_cfgVf (n : Fin 256) : pendFld (EVC_CFG_VF n) = false := EvcPlain.pendFld (evcPlain_cfg n) (by decide : 8 < 32)
theorem pendFld_cfgPrio (n : Fin 256) : pendFld (EVC_CFG_PRIO n) = false := EvcPlain.pendFld (evcPlain_cfg n) (by decide : 16 < 32)
theorem pendFld_cfgWorld (n : Fin 256) : pendFld (EVC_CFG_WORLD n) = false := EvcPlain.pendFld (evcPlain_cfg n) (by decide : 24 < 32)

theorem bits_mod (v lo w : Nat) : bits v lo w % 2 ^ w = bits v lo w := Nat.mod_mod _ _

theorem Fld.key_ne_of_lo_ne {f g : Fld} (ha : f.addr = g.addr) (hl : f.lo ≠ g.lo) : f.key ≠ g.key := by
  unfold Fld.key
  omega

/-- What the three fields of EVC_CFGn and its WORLD hold after a write of the three. -/
theorem State.get_setAll_evcCfg (s : State) (n x y z : Nat) :
    let t := s.setAll [(EVC_CFG_PRIO n, x), (EVC_CFG_VF n, y), (EVC_CFG_TGT n, z)]
    t.get (EVC_CFG_TGT n) = z % 2 ^ 4 ∧ t.get (EVC_CFG_VF n) = y % 2 ^ 5 ∧ t.get (EVC_CFG_PRIO n) = x % 2 ^ 4
      ∧ t.get (EVC_CFG_WORLD n) = s.get (EVC_CFG_WORLD n) := by
  have hvt : (EVC_CFG_VF n).key ≠ (EVC_CFG_TGT n).key := Fld.key_ne_of_lo_ne rfl (by decide : 8 ≠ 0)
  have hpt : (EVC_CFG_PRIO n).key ≠ (EVC_CFG_TGT n).key := Fld.key_ne_of_lo_ne rfl (by decide : 16 ≠ 0)
  have hpv : (EVC_CFG_PRIO n).key ≠ (EVC_CFG_VF n).key := Fld.key_ne_of_lo_ne rfl (by decide : 16 ≠ 8)
  have hwt : (EVC_CFG_WORLD n).key ≠ (EVC_CFG_TGT n).key := Fld.key_ne_of_lo_ne rfl (by decide : 24 ≠ 0)
  have hwv : (EVC_CFG_WORLD n).key ≠ (EVC_CFG_VF n).key := Fld.key_ne_of_lo_ne rfl (by decide : 24 ≠ 8)
  have hwp : (EVC_CFG_WORLD n).key ≠ (EVC_CFG_PRIO n).key := Fld.key_ne_of_lo_ne rfl (by decide : 24 ≠ 16)
  simp only [State.setAll_cons, State.setAll_nil]
  refine ⟨State.get_set_self .., ?_, ?_, ?_⟩
  · rw [State.get_set_ne _ hvt, State.get_set_self]; rfl
  · rw [State.get_set_ne _ hpt, State.get_set_ne _ hpv, State.get_set_self]; rfl
  · rw [State.get_set_ne _ hwt, State.get_set_ne _ hwv, State.get_set_ne _ hwp]

/-- Settles O12: a once-write of a VOTED group joins its queue; the registers of the EVC from the enables to the thresholds store
what is written, since no row writes them and a Secure writer has all their bits open. -/
theorem plainRegisterWritesStoreTheirFields : Obligations.PlainRegisterWritesStoreTheirFields := by
  unfold Obligations.PlainRegisterWritesStoreTheirFields
  intro s a v haw hf hi hlq hn
  have hs : (s.fabStalls || s.islandStalls (islandOf a)) = false := by rw [hf, hi]; rfl
  refine ⟨fun g addr hq hroom => regWrite_joins_queue haw hlq hq hroom v, fun hq => ⟨fun n => ?_, fun k => ?_, fun g => ?_⟩⟩
  · have hl : ∀ p ∈ [(EVC_CFG_PRIO n, bits v.toNat 16 4), (EVC_CFG_VF n, bits v.toNat 8 5), (EVC_CFG_TGT n, bits v.toNat 0 4)],
        pendFld p.1 = false := by
      simp [pendFld_cfgPrio, pendFld_cfgVf, pendFld_cfgTgt]
    obtain ⟨t, he, hget, hw⟩ :=
      (evcPlain_cfg n).does_regWrite haw hs hlq hn (hq _) (fs := [EVC_CFG_TGT n, EVC_CFG_VF n, EVC_CFG_PRIO n]) (by simp) hl
        (fun u hu => stores_evcCfg (s := u) hu n v)
    obtain ⟨htgt, hvf, hprio, hworld⟩ := s.get_setAll_evcCfg n (bits v.toNat 16 4) (bits v.toNat 8 5) (bits v.toNat 0 4)
    refine ⟨t, he, ?_, ?_, ?_, ?_, hw⟩
    · rw [hget _ (pendFld_cfgTgt n), htgt, bits_mod]
    · rw [hget _ (pendFld_cfgVf n), hvf, bits_mod]
    · rw [hget _ (pendFld_cfgPrio n), hprio, bits_mod]
    · rw [hget _ (pendFld_cfgWorld n), hworld]
  · have hp : pendFld (EVC_EN k) = false := EvcPlain.pendFld (evcPlain_en k) (by decide : 0 < 32)
    obtain ⟨t, he, hget, hw⟩ := (evcPlain_en k).does_regWrite (l := [(EVC_EN k, v.toNat)]) haw hs hlq hn (hq _)
      (fs := [EVC_EN k]) (by simp) (by simp [hp]) (fun u hu => stores_evcEn (s := u) hu k v)
    refine ⟨t, he, ?_, hw⟩
    rw [hget _ hp, State.setAll_cons, State.setAll_nil, State.get_set_self]
    exact Nat.mod_eq_of_lt v.isLt
  · have hp : pendFld (EVC_THR g) = false := EvcPlain.pendFld (evcPlain_thr g) (by decide : 0 < 32)
    obtain ⟨t, he, hget, hw⟩ := (evcPlain_thr g).does_regWrite (l := [(EVC_THR g, bits v.toNat 0 4)]) haw hs hlq hn (hq _)
      (fs := [EVC_THR g]) (by simp) (by simp [hp]) (fun u _ => stores_evcThr u a g v)
    refine ⟨t, he, ?_, hw⟩
    rw [hget _ hp, State.setAll_cons, State.setAll_nil, State.get_set_self]
    exact bits_mod v.toNat 0 4

end Sys2Proof.Machine
end
